-- ==== Sys2Proof/Word.lean ====
section
/-!
DEFINITION. The word types of Jalos-2 (spec/00_scope.md R11: little-endian formats, 48-bit byte
addresses, 16-bit member ids) and nothing else.
-/

namespace Sys2Proof

/-- One byte. -/
abbrev Byte := BitVec 8
/-- A 16-bit word (BF16 values, member ids). -/
abbrev W16 := BitVec 16
/-- A 32-bit word (FP32 values, one management-window word). -/
abbrev W32 := BitVec 32
/-- A 64-bit word (digests, Gazelle words). -/
abbrev W64 := BitVec 64
/-- A host or state-tier byte address (R11). -/
abbrev Addr := BitVec 48
/-- The 40-bit step number (R27). -/
abbrev StepNo := BitVec 40
/-- The 48-bit slot counter (R13). -/
abbrev SlotNo := BitVec 48

/-- Memory behind a port or in a buffer: address and byte pairs (see Machine/Ops.lean). -/
abbrev Mem := List (Nat × Byte)

end Sys2Proof
end

