-- ==== Sys2Proof/Machine/Image.lean ====
section
/-!
DEFINITION. The content of a run image (.sxi): the typed tables its sections hold
(spec/13_image_boot_and_management.md R326) and the file itself (R324, R325). Where a chapter gives a
section's bit layout, the record below holds the layout's fields; where none is given (declarations, phase
table, curves, transfer tables, admission maps, the release's OP encodings, R402), the record holds
the items the chapters name (notes/assumptions/6.md).
-/

namespace Sys2Proof.Machine

/-- Coordinates on the torus (R102, R256). -/
structure Coord where
  x : Nat
  y : Nat
  z : Nat
  deriving DecidableEq, Repr

/-- A member and where it stands: member ids are linear indices the image assigns (R11). -/
structure MemberAt where
  id : Nat
  at_ : Coord
  deriving DecidableEq, Repr

/-- The far end the image declares for a peer port (R2, R236, R257). -/
structure PeerDecl where
  port : Nat
  member : Nat
  coord : Coord
  /-- the far port, which the image declares for P6 and P7 only (R236) -/
  farPort : Nat
  /-- declared with another port to the same member as a pair (R258) -/
  pair : Bool
  /-- the image holds a degraded schedule for the port (R260) -/
  degraded : Bool
  /-- RX-pool buffers the image assigns to the port's VC1, VC2, VC3 (R131, R132) -/
  rxBufs : List Nat
  deriving DecidableEq, Repr

/-- The Jalos-1 offload declaration of one channel (R305). -/
structure OffloadList where
  base : Nat
  entries : Nat
  deriving DecidableEq, Repr

/-- The Jalos-1 offload area (R305). -/
structure OffloadDecl where
  base : Nat
  length : Nat
  /-- lists of channels 60–63 -/
  lists : List OffloadList
  deriving DecidableEq, Repr

/-- What a spare worker's image declares for one member id it may replace (R367). -/
structure SpareId where
  id : Nat
  coord : Coord
  peers : List PeerDecl
  buddy : Nat
  deriving DecidableEq, Repr

/-- The declarations section (R2, R23, R305, R332 and the chapters that say "the image declares"). -/
structure Decl where
  /-- 0 = J2-40; 1 = J2-44; 2 = J2-48; 3 = J2-48T (R332) -/
  grade : Nat
  twin : Bool
  /-- the Twin instance the image is for: true = B (R332) -/
  twinB : Bool
  jclkKHz : Nat
  stateBytes : Nat
  stateDemand : Nat
  tempLo : Int
  tempHi : Int
  voltLo : Nat
  voltHi : Nat
  torus : Coord
  member : Nat
  coord : Coord
  members : List MemberAt
  peers : List PeerDecl
  commitDomain : Nat
  verdictRoot : Nat
  bank1Off : Nat
  hbank1Off : Nat
  biasOrigin : Nat
  lean : Bool
  seed : W64
  startStep : StepNo
  boundaryPeriod : Nat
  replicaDomain : Option Nat
  replicaRoot : Nat
  buddy : Nat
  buddyExt : Bool
  satBase : Nat
  normBase : Nat
  scaleBase : Nat
  /-- state-tier addresses of the root directory, the factors and the sample buffers (R169, R171, R184) -/
  rootBase : Nat
  factBase : Nat
  sampleBase : Nat
  /-- state-tier addresses of the block work areas of each logical tile (R194) -/
  workAreas : List (List Nat)
  serviceLo : Nat
  serviceHi : Nat
  offload : Option OffloadDecl
  spare : List SpareId
  /-- destinations and flag records of the fixed norm reductions 6, 7, 8 (R220) -/
  normDst : List Nat
  normFlag : List Nat
  /-- the pool of each of the 127 staging buffers: 0 = RX; 1 = TX; 2 = HOLD; 3 = FWD (R131) -/
  stagePools : List Nat
  deriving DecidableEq, Repr

/-- One phase-table entry: the phase's length (R21). -/
structure PhaseDecl where
  code : Nat
  length : Nat
  deriving DecidableEq, Repr

/-- The work an entry's OP and OPERAND select (R402: "the encodings only select work that the unit chapters
define and carry its operands"). -/
inductive Work where
  /-- an OP that selects nothing the model's units do beyond being issued -/
  | idle
  /-- intake: the arrival gate that ends INTAKE (R21, R78) -/
  | intakeEnd
  /-- ring: waits for the incoming lap-1 chunk of an axis (R121) -/
  | lap1Recv (chunk axis : Nat)
  /-- ring: adds or starts this member's contribution (R114, R119) -/
  | lap1Add (chunk axis : Nat)
  /-- ring: starts a gather-table entry (R125) -/
  | gather (index : Nat)
  /-- ring: waits for a gather's chunks (R128) -/
  | gatherWait (index : Nat)
  /-- ring: starts a neighbour shift (R129) -/
  | shift (index : Nat)
  /-- ring: starts a permutation transfer (R130) -/
  | perm (index : Nat)
  /-- ring: waits for a shift or permutation transfer (R130) -/
  | transferWait (index : Nat)
  /-- Gazelle: starts a reduction (R141, R146) -/
  | gzStart (rid : Nat)
  /-- Gazelle: waits at a result gate (R141) -/
  | gzWait (rid : Nat)
  /-- sequencer: the verdict-send entry (R24, R214) -/
  | verdictSend
  /-- Mover, data class: loads and starts a channel from the Mover parameter table's entry OPERAND (R296) -/
  | mover (chan : Nat)
  /-- Kronecker array: feeds one output tile (R160, R163) -/
  | arrayFeed (job : Nat)
  /-- phase control: a power group's target (R396) -/
  | power (group : Nat) (up : Bool)
  deriving DecidableEq, Repr

/-- One row of the release's encoding tables (R402): an OP admitted for a unit and an operand, and the work it
selects. -/
structure OpEnc where
  unit : Nat
  op : Nat
  operand : Nat
  work : Work
  deriving DecidableEq, Repr

/-- What an arrival queue id stands for (R402: Sniex assigns ids 0–3,967). -/
inductive Arrival where
  /-- the contribution buffer of a chunk on an axis (R119) -/
  | contribution (chunk axis : Nat)
  /-- the receive queue of a lap-1 chunk on an axis (R121) -/
  | chunkIn (chunk axis : Nat)
  /-- every tile of the step's catalogue accepted (R21) -/
  | intake
  /-- every chunk of a gather's present run received (R128) -/
  | gatherIn (index : Nat)
  /-- every chunk of a shift or permutation received (R130) -/
  | transferIn (index : Nat)
  deriving DecidableEq, Repr

/-- A catalogue entry (R79, R166, R190). -/
structure CatEntry where
  rows : Nat
  cols : Nat
  chLen : Nat
  cls : Nat
  wire : Nat
  resFmt : Nat
  resShift : Int
  dcurve : Nat
  escB : Nat
  clipOct : Nat
  sideCap : Nat
  srQ : Bool
  srRes : Bool
  rowGroups : Nat
  satThresh : W32
  resBase : Nat
  padCols : Nat
  maskBase : Nat
  chunkMap : Nat
  chunkCount : Nat
  blockQ : Nat
  p4 : Bool
  factMode : Nat
  subs : Nat
  sampN : Nat
  dampCurve : Nat
  fcoef : Nat
  refreshLog2 : Nat
  phase0 : Nat
  aShift : Int
  gShift : Int
  prog : Nat
  kset : Nat
  srM : Bool
  srW : Bool
  /-- a reserved bit or a reserved value was set (R79) -/
  reservedBad : Bool
  deriving DecidableEq, Repr

/-- A chunk-map entry (R106). -/
structure ChunkEntry where
  group0 : Nat
  rangeGroups : Nat
  domain : Nat
  owner : Nat
  tile : Nat
  layer : Nat
  /-- the chunk's place within its layer's buffer (R125) -/
  offset : Nat
  reservedBad : Bool
  deriving DecidableEq, Repr

/-- A domain-table entry (R102), listed with its number. -/
structure DomEntry where
  num : Nat
  key : W32
  axes : BitVec 3
  bidir : Bool
  lateDrop : Bool
  xOrg : Nat
  xLen : Nat
  yOrg : Nat
  yLen : Nat
  zOrg : Nat
  zLen : Nat
  ownDl : Nat
  upDl : Nat
  reservedBad : Bool
  deriving DecidableEq, Repr

/-- A gather-table entry (R124). -/
structure GatherEntry where
  doorbell : Nat
  nbuf : Nat
  carryMask : Bool
  bufBase : Nat
  bufSize : Nat
  flagBase : Nat
  reservedBad : Bool
  deriving DecidableEq, Repr

/-- A shift or permutation transfer (R129, R130). -/
structure XferEntry where
  /-- true: permutation (OP 3); false: neighbour shift (OP 2) -/
  isPerm : Bool
  port : Nat
  /-- members at the two ends -/
  src : Nat
  dst : Nat
  /-- source and destination in host memory (true) or tile scratchpad (false) -/
  srcHost : Bool
  dstHost : Bool
  srcAddr : Nat
  dstAddr : Nat
  length : Nat
  flag : Nat
  domain : Nat
  tag : W32
  reservedBad : Bool
  deriving DecidableEq, Repr

/-- A reduction-table entry (R141), listed with its id. -/
structure RedEntry where
  rid : Nat
  op : Nat
  typ : Nat
  feedsStep : Bool
  sprint : Bool
  wireLen : Nat
  sprintN : Nat
  srcBf16 : Bool
  dstBf16 : Bool
  domain : Nat
  root : Nat
  src : Nat
  dst : Nat
  flag : Nat
  reservedBad : Bool
  deriving DecidableEq, Repr

/-- One density-curve breakpoint (R84). -/
structure DensBp where
  start : Nat
  code : Nat
  deriving DecidableEq, Repr

/-- One pass of a program (R195). -/
structure PassDir where
  start : Nat
  proLen : Nat
  bodyLen : Nat
  epiLen : Nat
  block : Bool
  pre : Bool
  preSplit : Bool
  deriving DecidableEq, Repr

/-- A program-directory entry (R195), listed with its number. -/
structure ProgEntry where
  prog : Nat
  isBlock : Bool
  usesS : Bool
  passes : List PassDir
  reservedBad : Bool
  deriving DecidableEq, Repr

/-- One coefficient entry (R216). -/
structure CoefEntry where
  mode : Nat
  curve : Nat
  value : W32
  reservedBad : Bool
  deriving DecidableEq, Repr

/-- One coefficient-curve breakpoint (R217). -/
structure CoefBp where
  start : Nat
  lin : Bool
  value : W32
  reservedBad : Bool
  deriving DecidableEq, Repr

/-- One damping-curve breakpoint (R178). -/
structure DampBp where
  start : Nat
  eps : W32
  phi : W32
  deriving DecidableEq, Repr

/-- One factor coefficient entry (R173). -/
structure FactCoef where
  alpha : W32
  gammaL : W32
  gammaR : W32
  deriving DecidableEq, Repr

/-- A state-directory entry (R210). -/
structure StateDir where
  wBase : Nat
  m1Base : Nat
  m2Base : Nat
  wcBase : Nat
  e5m2 : Bool
  margin : Nat
  eInit : Int
  normGroup : Nat
  deriving DecidableEq, Repr

/-- A codec-region entry (R306), listed with its number. -/
structure RegionEntry where
  num : Nat
  home : Nat
  /-- NBLK_M1: blocks minus one -/
  nblkM1 : Nat
  fmt : Nat
  slot : Nat
  isSealed : Bool
  tmask : BitVec 4
  spill : Nat
  flag : Nat
  reservedBad : Bool
  deriving DecidableEq, Repr

/-- A prefix-code table (R315): its kind and the code length of each symbol. -/
structure PrefixTable where
  kind : Nat
  lens : List Nat
  reservedBad : Bool
  deriving DecidableEq, Repr

/-- A Mover parameter-table entry (R296). -/
structure MoverParam where
  src : Nat
  dst : Nat
  cnt : Nat
  ctl : W32
  pace : W32
  reservedBad : Bool
  deriving DecidableEq, Repr

/-- An array job: the operands of one output tile (R160, R163). -/
structure ArrayJob where
  /-- 0 = BF16; 1 = split-FP32; 2 = INT8 (R159) -/
  mode : Nat
  rows : Nat
  cols : Nat
  inner : Nat
  /-- state-tier addresses of the row-major operands A (rows × inner) and B (inner × cols) -/
  aBase : Nat
  bBase : Nat
  /-- INT8: state-tier addresses of the zero points of A's rows and B's columns -/
  zaBase : Nat
  zbBase : Nat
  /-- the state-tier address where a state-port writer stores the drained tile -/
  dst : Nat
  deriving DecidableEq, Repr

/-- One Ethernet port's declared addresses and speed (R267). -/
structure EthDecl where
  mac : BitVec 48
  ipv4 : W32
  ipv6 : BitVec 128
  deriving DecidableEq, Repr

/-- RDMA and Ethernet configuration (section 0x15). -/
structure RdmaDecl where
  ports : List EthDecl
  ctxBase : Nat
  deriving DecidableEq, Repr

/-- One schedule entry (R16). -/
structure SchedEntry where
  slotOff : Nat
  phase : Nat
  unit : Nat
  op : Nat
  gate : Nat
  gateArg : Nat
  deadline : Nat
  act : Nat
  dlScale : Nat
  operand : Nat
  reservedBad : Bool
  deriving DecidableEq, Repr

/-- The tables that can change while running (R35): the live-swappable sections and the admission maps. -/
structure LiveTables where
  schedule : List SchedEntry
  phases : List PhaseDecl
  opEncs : List OpEnc
  arrivals : List (Nat × Arrival)
  reds : List RedEntry
  density : List (Nat × List DensBp)
  progs : List ProgEntry
  code : List W32
  coefSets : List (Nat × List CoefEntry)
  coefCurves : List (Nat × List CoefBp)
  factCoefs : List (Nat × FactCoef)
  damping : List (Nat × List DampBp)
  prefixes : List (Nat × PrefixTable)
  moverParams : List MoverParam
  /-- physical tiles the tile admission map admits (R359, R360) -/
  tileAdmit : BitVec 48
  /-- the logical-to-physical assignment the map asks for at its advance -/
  tileRetire : BitVec 48
  /-- peer ports the port admission map admits (R261) -/
  portAdmit : BitVec 8
  /-- the port whose degraded schedule the schedule is (R260) -/
  degPort : Option Nat
  deriving DecidableEq, Repr

/-- Register values the image loads (R140, R189, R235, R265, R383, R384). -/
structure RegInit where
  verdictTimeout : Option (BitVec 24)
  vcWt : Option W32
  vcWtCk : Option W32
  tol : Option W32
  bootWait : Option W16
  slew : Option (BitVec 6)
  installLag : Option (BitVec 5)
  deriving DecidableEq, Repr

/-- The typed content of a run image (R326). -/
structure RunImage where
  decl : Decl
  live : LiveTables
  catalogue : List CatEntry
  chunks : List ChunkEntry
  domains : List DomEntry
  gathers : List GatherEntry
  xfers : List XferEntry
  regionC : List Byte
  stateDir : List StateDir
  regions : List RegionEntry
  jobs : List ArrayJob
  rdma : RdmaDecl
  regs : RegInit
  deriving DecidableEq, Repr

/-- One .sxi file: its header, manifest and signature bytes, the bytes of each manifest entry's section, and the tables for which
no chapter gives a bit layout; the others are read from the section bytes (R324, R325, R402, Machine/Layouts.lean;
notes/assumptions/6.md). -/
structure SxiFile where
  header : List Byte
  manifest : List Byte
  signature : List Byte
  sections : List (List Byte)
  content : RunImage
  deriving DecidableEq, Repr

end Sys2Proof.Machine
end

