-- ==== Sys2Proof/Syntax.lean ====
section
/-!
DEFINITION. The commands of Jalos-2: one constructor of Instr for each row of spec/opcode_table.json, with the
operands that the row's rule says arrive from outside (spec/95_what_each_step_holds.md lists what each row
holds). Operands that only tell the model which of several units a row means are plain numbers.
-/

namespace Sys2Proof

open Machine

/-- The two management ports (R336, R338). -/
inductive Mgmt where
  /-- the management window -/
  | mw
  /-- the serial target port -/
  | sm
  deriving DecidableEq, Repr

/-- A memory port (R291). -/
inductive MemPort where
  | hm (n : BitVec 3)
  | sp (n : BitVec 4)
  deriving DecidableEq, Repr

/-- A memory request as its response or timeout names it (R291, R295): port, tag, the requesting unit (R348), for
the Mover its channel and the bytes the channel had written when it drained, address and direction. -/
structure MemReq where
  port : MemPort
  tag : BitVec 9
  unit : BitVec 8
  chan : BitVec 6
  moved : W32
  addr : Addr
  write : Bool
  deriving DecidableEq, Repr

/-- Which factor of a block (R168). -/
inductive Side where
  | L
  | R
  deriving DecidableEq, Repr

/-- A unit that reports its slot incomplete at cycle 1,535 (R15), and what held it: an Olubiow port, or a state
port (R31). -/
structure Incomplete where
  unit : BitVec 8
  onPort : Option (BitVec 3)
  onSp : Option (BitVec 4)
  deriving DecidableEq, Repr

/-- The results of the Twin's short self-test (R372), true = pass. -/
structure SelfTest where
  aPass : Bool
  bPass : Bool
  deriving DecidableEq, Repr

/-- An Olubiow frame as received (R245): header, payload and trailer, and whether its header started a block (R248). -/
structure Frame where
  hdr : BitVec 128
  payload : List Byte
  trailer : BitVec 64
  atBlock : Bool
  deriving DecidableEq, Repr

/-- A lane marker slot as received (R242, R243): its 340 bits, whether it starts one marker spacing after the
one before, the bits of the lane since that one, and whether it came within 20 ns of the other lanes' markers. -/
structure Marker where
  bits : BitVec 340
  onTime : Bool
  interval : List Bool
  inSkew : Bool
  deriving DecidableEq, Repr

/-- The header of a buddy copy or an exported snapshot (R230, R233). -/
structure CopyHdr where
  src : W16
  step : StepNo
  lean : Bool
  dW : W64
  dM1 : W64
  dM2 : W64
  ext : Bool
  deriving DecidableEq, Repr

/-- What the Ethernet MAC says of a received RoCE frame (R266–R269, R274). -/
structure EthIn where
  len : Nat
  fcsOk : Bool
  /-- the first 78 bytes parse as a RoCE v2 header (R269) -/
  parses : Bool
  /-- the frame uses only supported features (R266) -/
  supported : Bool
  dmac : BitVec 48
  icrcOk : Bool
  ecnCe : Bool
  /-- `JE_CC.CNP_GAP` has passed since the queue's last CNP (R276) -/
  gapPassed : Bool
  pcp : BitVec 3
  /-- KiB of the port's receive buffer that the priority uses once this frame is in (R274) -/
  fillKiB : Nat
  deriving DecidableEq, Repr

/-- The Ethernet port a RoCE frame comes in on, and what its MAC says of it. -/
structure EthRx where
  eport : BitVec 1
  mac : EthIn
  deriving DecidableEq, Repr

/-- The Ethernet port whose XOFF is due again, and the KiB of its receive buffer that each priority uses (R274). -/
structure PfcTick where
  eport : BitVec 1
  fillKiB : List Nat
  deriving DecidableEq, Repr

/-- An expander, and whether its XE_ERR_READY is high as the command's reports go out (R319, R321). -/
structure XeAt where
  xe : BitVec 4
  errReady : Bool
  deriving DecidableEq, Repr

/-- The RoCE v2 request operations Jalos supports (R266). -/
inductive RoceOp where
  | sendFirst
  | sendMiddle
  | sendLast
  | sendLastImm
  | sendOnly
  | sendOnlyImm
  | writeFirst
  | writeMiddle
  | writeLast
  | writeLastImm
  | writeOnly
  | writeOnlyImm
  | readReq
  deriving DecidableEq, Repr

/-- A received RoCE request packet. -/
structure RocePacket where
  eth : EthIn
  qpn : BitVec 24
  op : RoceOp
  psn : BitVec 24
  ackReq : Bool
  dmaLen : W32
  imm : W32
  payload : List Byte
  /-- remote address and key, which a READ request and the first packet of a WRITE carry (R277) -/
  va : W64
  rkey : W32
  deriving DecidableEq, Repr

/-- The NAK codes (R275, R277). -/
inductive NakCode where
  | psnSequence
  | remoteAccess
  deriving DecidableEq, Repr

/-- What one Twin instance hears from the other on XA and XB (R371). -/
inductive TwinMsg where
  /-- the CRC of the chunk written for sending with this chunk index -/
  | chunkCrc (chunk : Nat) (crc : W32)
  /-- the CRC of a Gazelle cell of this reduction -/
  | cellCrc (rid : Nat) (crc : W32)
  /-- the digests at a commit pulse -/
  | digests (dW dM1 dM2 : W64)
  /-- the twin records member failure -/
  | memberFailed
  deriving DecidableEq, Repr

/-- The units without a row of their own whose failure is a member failure (R353). -/
inductive FailedUnit where
  | array
  | adderLane
  | gazelle
  deriving DecidableEq, Repr

/-- What a tile failure finds lost (R354, R357, R377). -/
structure TileLoss where
  phys : Nat
  cause : BitVec 3
  deriving DecidableEq, Repr

/-- What boot observes of the surroundings (R322, R327, R331, R332). -/
structure BootObs where
  /-- milliseconds from reset release to the end of the checks -/
  ms : W16
  /-- strap NVM_MODE -/
  nvmMode : Bool
  /-- the flash passed its SFDP or profile read (R322) -/
  nvmOk : Bool
  /-- the 26 fuse words (R390) -/
  fuses : List W64
  /-- physical tiles present -/
  tiles : Nat
  /-- the crossover strap shows two instances joined (R7, R332) -/
  twinPart : Bool
  /-- JCLK counted against REFCLK -/
  jclkKHz : Nat
  /-- status of the read of the last 512-byte line below the declared size -/
  stateStatus : BitVec 2
  /-- first telemetry sample -/
  temp : W16
  volt : W16
  deriving DecidableEq, Repr

/-- One command: one row of spec/opcode_table.json. -/
inductive Instr where
  | slotStart (st : SelfTest)
  | slotCompletionCheck (reports : List Incomplete)
  | gateTimeout (phase : BitVec 4) (unit : BitVec 8)
  | doorbellRing (port : Mgmt) (value : W32)
  | modeReqWrite (port : Mgmt) (value : W32)
  | boundaryPeriod
  | verdictEntry
  | verdictTimeout
  | verdictLostTimeout
  | commitPulse
  | skipDecision
  | boundarySwitch
  | quiescedSet
  | tileReceive (tq : BitVec 2) (desc : Option (BitVec 512)) (payload : List Byte) (last : Bool)
  | heldDescriptorRelease (tq : BitVec 2) (payload : List Byte) (last : Bool)
  | producerReset (tq : BitVec 2)
  | producerUp (tq : BitVec 2)
  | maskBuild (tensor row : Nat)
  | chunkReceive (port : BitVec 3) (vc : BitVec 2) (hdr : BitVec 512) (payload : List Byte)
  | gatherFlagWrite (gather : Nat)
  | shiftFlagWrite (transfer : Nat)
  | gazelleCell (port : BitVec 3) (hdr : BitVec 128) (payload : List Byte) (trailer : BitVec 128)
  | gazelleCapWindow
  | arrayTileDrain (array : BitVec 1) (acc : BitVec 1)
  | factorMerge (tensor block : Nat)
  | markhorRefreshStart
  | markhorIteration
  | markhorHold (port : Mgmt) (value : W32)
  | chunkPassStart (tile : Nat)
  | blockSectionStart (tile : Nat)
  | prePassStart (tile : Nat)
  | passComplete (tile : Nat)
  | chunkConsumed (chunk : Nat)
  | nop (tile : Nat) (w : W32)
  | mov (tile : Nat) (w : W32)
  | add (tile : Nat) (w : W32)
  | sub (tile : Nat) (w : W32)
  | mul (tile : Nat) (w : W32)
  | div (tile : Nat) (w : W32)
  | min (tile : Nat) (w : W32)
  | max (tile : Nat) (w : W32)
  | fma (tile : Nat) (w : W32)
  | fnma (tile : Nat) (w : W32)
  | sqrt (tile : Nat) (w : W32)
  | abs (tile : Nat) (w : W32)
  | neg (tile : Nat) (w : W32)
  | clt (tile : Nat) (w : W32)
  | sel (tile : Nat) (w : W32)
  | ld (tile : Nat) (w : W32)
  | st (tile : Nat) (w : W32)
  | ldx (tile : Nat) (w : W32)
  | stx (tile : Nat) (w : W32)
  | acc (tile : Nat) (w : W32)
  | accsq (tile : Nat) (w : W32)
  | fold (tile : Nat) (w : W32)
  | commitApprove (port : Mgmt) (value : W32)
  | commitVeto (port : Mgmt) (value : W32)
  | buddyCopyComplete
  | buddyHeaderReceive (hdr : CopyHdr)
  | buddyTrailerReceive (src : W16) (data : List Byte) (crc : W64)
  | scheduleLoad
  | dataFrame (port : BitVec 3) (frame : Frame)
  | ackFrame (port : BitVec 3) (frame : Frame)
  | retryFrame (port : BitVec 3) (frame : Frame)
  | creditFrame (port : BitVec 3) (frame : Frame)
  | identFrame (port : BitVec 3) (frame : Frame)
  | notReadyFrame (port : BitVec 3) (frame : Frame)
  | degradeFrame (port : BitVec 3) (frame : Frame)
  | retryTimeout (port : BitVec 3)
  | ackTimer (port : BitVec 3)
  | creditTimer (port : BitVec 3)
  | markerReceive (port : BitVec 3) (lane : BitVec 3) (marker : Marker)
  | markerTransmit (port : BitVec 3) (gaps : List Nat)
  | codewordDecode (port : BitVec 3) (second : Bool) (low high : List (List Bool))
  | laneLos (port : BitVec 3) (lane : BitVec 3)
  | degradeRepeat (port : BitVec 3)
  | degradeRealignTimeout (port : BitVec 3)
  | trainingAttempt (port : BitVec 3)
  | trainingAlignTimeout (port : BitVec 3)
  | trainingIdentTimeout (port : BitVec 3)
  | adaptDone (port : BitVec 3)
  | bootWaitExpiry
  | qpContextLoad (port : Mgmt) (value : W32)
  | sqDoorbell (port : Mgmt) (value : W32)
  | rqDoorbell (port : Mgmt) (value : W32)
  | roceRequestPacket (eport : BitVec 1) (pkt : RocePacket)
  | roceAck (rx : EthRx) (qpn : BitVec 24) (psn : BitVec 24)
  | roceNak (rx : EthRx) (qpn : BitVec 24) (psn : BitVec 24) (code : NakCode)
  | rnrNak (rx : EthRx) (qpn : BitVec 24) (psn : BitVec 24) (timer : BitVec 5)
  | readResponse (rx : EthRx) (qpn : BitVec 24) (psn : BitVec 24) (payload : List Byte) (last : Bool)
  | cnp (rx : EthRx) (qpn : BitVec 24)
  | pfcFrame (eport : BitVec 1) (enable : BitVec 8) (quanta : List W16)
  | roceAckTimeout (queue : W16)
  | rnrTimerExpiry (queue : W16)
  | pfcXoffRepeat (tick : PfcTick)
  | pageDone (port : Mgmt) (value : W32)
  | ethLinkChange (eport : BitVec 1) (locked : Bool)
  | pfcHoldTimeout (eport : BitVec 1) (prio : BitVec 3)
  | ethConfigLoad
  | moverStart (port : Mgmt) (chan : BitVec 6) (value : W32)
  | moverPause (port : Mgmt) (chan : BitVec 6) (value : W32)
  | moverUnpause (port : Mgmt) (chan : BitVec 6) (value : W32)
  | moverStop (port : Mgmt) (chan : BitVec 6) (value : W32)
  | moverDrained (chan : BitVec 6) (moved : W32)
  | moverComplete (chan : BitVec 6)
  | memResponse (req : MemReq) (status : BitVec 2) (late refresh : Bool)
  | memRequestTimeout (req : MemReq)
  | pacingThreshold (queue : BitVec 4) (fill : BitVec 12)
  | offloadEntryComplete (chan : BitVec 6)
  | kvBlockEncode (tile : Nat)
  | kvBlockWritten (region : BitVec 8) (block : BitVec 24)
  | expanderSlot (xe : XeAt) (region : BitVec 8) (block : BitVec 24) (slot : List Byte)
  | expanderFetchResponse (xe : XeAt) (line : List Byte) (rest : List Byte) (status : BitVec 2)
  | xtConfigWrite
  | xtEpochAdvance
  | xrReport (info : BitVec 64)
  | jporNAssert
  | jporNRelease (nvmMode twinSel : Bool)
  | jwrstNAssert
  | jwrstNRelease
  | inrushDone
  | bootVerifyComplete (obs : BootObs)
  | nopCommand (port : Mgmt)
  | quiesce (port : Mgmt)
  | resume (port : Mgmt)
  | liveSwap (port : Mgmt) (flashOk : Bool)
  | unstage (port : Mgmt)
  | clearDb (port : Mgmt)
  | exportCmd (port : Mgmt)
  | stagingTest (port : Mgmt) (good : Bool)
  | imageWrite (port : Mgmt) (file : SxiFile) (flashOk : Bool)
  | imageCommit (port : Mgmt) (flashOk : Bool)
  | tileRetire (port : Mgmt)
  | tileTest (port : Mgmt) (good : Bool)
  | tileAdmit (port : Mgmt)
  | portRetire (port : Mgmt)
  | portAdmit (port : Mgmt)
  | restoreSend (port : Mgmt)
  | rollback (port : Mgmt)
  | takeover (port : Mgmt)
  | twinSwap (port : Mgmt)
  | commandComplete
  | cmdArgWrite (port : Mgmt) (index : BitVec 3) (value : W32)
  | take (port : Mgmt) (value : W32)
  | renew (port : Mgmt) (value : W32)
  | release (port : Mgmt) (value : W32)
  | leaseExpiry
  | lockLeaseWrite (port : Mgmt) (value : W32)
  | evTailWrite (port : Mgmt) (value : W32) (overwrite : Bool)
  | smTransaction (hdr : W32) (data : W32) (edges : Nat)
  | registerWrite (port : Mgmt) (offset : BitVec 24) (value : W32) (be : BitVec 4) (lost : Bool)
  | rcRead (port : Mgmt) (offset : BitVec 24)
  | latchedWindowRead (port : Mgmt) (offset : BitVec 24)
  | duikerWatchdog (fwAddr : W32)
  | duikerRestartComplete
  | telemetrySample (temp volt : W16)
  | nvmCommandTimeout (opcode : Byte) (addr : W32) (status : Byte)
  | fuseAckTimeout (addr : BitVec 5)
  | tileFailure (loss : TileLoss)
  | tileWatchdog (phys : Nat)
  | twinCheckReceive (msg : TwinMsg)
  | twinSilenceTimeout
  | restoreAckTimeout
  | restoreDataReceive (hdr : CopyHdr) (data : List Byte) (crc : W64)
  | pfcPauseExpiry (eport : BitVec 1) (prio : BitVec 3)
  | unitFailure (failed : FailedUnit)
  deriving DecidableEq, Repr

end Sys2Proof
end

