-- ==== Sys2Proof/Machine/Fp32.lean ====
section
/-!
DEFINITION. FP32 as Jalos implements it (spec/02_number_formats_and_summation.md R40–R43) and the compensated adder
(R66–R68), Welford states (R69, R70) and the pairing tree (R72). Every operation is computed on exact integers
and rounded once.
-/

namespace Sys2Proof.Machine

/-- An unpacked binary value: a NaN, a signed infinity, or (−1)^neg × m × 2^e. -/
inductive Fp where
  | nan
  | inf (neg : Bool)
  | fin (neg : Bool) (m : Nat) (e : Int)
  deriving DecidableEq, Repr

/-- Round m × 2^e to nearest even at a format with f fraction bits and least unit 2^umin; the answer is the code
of the magnitude, which grows with the value and passes into the exponent field by carry. -/
def roundCode (f : Nat) (umin : Int) (m : Nat) (e : Int) : Nat :=
  if m = 0 then 0
  else
    let u := max ((Nat.log2 m : Int) + e - f) umin
    let q :=
      if u ≤ e then m * 2 ^ (e - u).toNat
      else
        let d := (u - e).toNat
        let q0 := m / 2 ^ d
        let rem := m % 2 ^ d
        if 2 * rem > 2 ^ d ∨ (2 * rem = 2 ^ d ∧ q0 % 2 = 1) then q0 + 1 else q0
    (u - umin).toNat * 2 ^ f + q

/-- Split an encoded magnitude with f fraction bits into its integer significand and exponent. -/
def unpackMag (f : Nat) (umin : Int) (code : Nat) : Nat × Int :=
  let ef := code / 2 ^ f
  if ef = 0 then (code, umin) else (code % 2 ^ f + 2 ^ f, umin + (ef : Int) - 1)

/-- The canonical FP32 NaN (R42). -/
def f32NaN : W32 := 0x7FC00000#32

def f32One : W32 := 0x3F800000#32

def f32MaxFinite : W32 := 0x7F7FFFFF#32

def f32IsNaN (x : W32) : Bool := decide (x.toNat % 2 ^ 31 > 0x7F800000)

/-- All-ones exponent: an infinity or a NaN (R82). -/
def f32NonFinite (x : W32) : Bool := decide (x.toNat % 2 ^ 31 ≥ 0x7F800000)

def f32IsZero (x : W32) : Bool := decide (x.toNat % 2 ^ 31 = 0)

def f32Unpack (x : W32) : Fp :=
  let n := x.toNat
  let neg := decide (n ≥ 2 ^ 31)
  let mag := n % 2 ^ 31
  if mag > 0x7F800000 then .nan
  else if mag = 0x7F800000 then .inf neg
  else
    let p := unpackMag 23 (-149) mag
    .fin neg p.1 p.2

def f32Sign (neg : Bool) (mag : Nat) : W32 := BitVec.ofNat 32 (mag + if neg then 2 ^ 31 else 0)

def f32Inf (neg : Bool) : W32 := f32Sign neg 0x7F800000

/-- Round an exact value to FP32 with RNE; overflow gives an infinity (R40). -/
def f32Pack : Fp → W32
  | .nan => f32NaN
  | .inf neg => f32Inf neg
  | .fin neg m e => f32Sign neg (min (roundCode 23 (-149) m e) 0x7F800000)

/-- The exact sum of two finite values; an exact zero is +0 unless both terms are −0. -/
def fpAdd (x y : Fp) : Fp :=
  match x, y with
  | .nan, _ => .nan
  | _, .nan => .nan
  | .inf a, .inf b => if a = b then .inf a else .nan
  | .inf a, _ => .inf a
  | _, .inf b => .inf b
  | .fin a m e, .fin b n g =>
    let l : Int := min e g
    let mm : Nat := m * 2 ^ (Int.toNat (e - l))
    let nn : Nat := n * 2 ^ (Int.toNat (g - l))
    let i : Int := if a then -(mm : Int) else (mm : Int)
    let j : Int := if b then -(nn : Int) else (nn : Int)
    let k := i + j
    if k = 0 then .fin (m = 0 && n = 0 && a && b) 0 0
    else .fin (decide (k < 0)) k.natAbs l

/-- The exact product. -/
def fpMul (x y : Fp) : Fp :=
  match x, y with
  | .nan, _ => .nan
  | _, .nan => .nan
  | .inf a, .inf b => .inf (a != b)
  | .inf a, .fin b n _ => if n = 0 then .nan else .inf (a != b)
  | .fin a m _, .inf b => if m = 0 then .nan else .inf (a != b)
  | .fin a m e, .fin b n g => .fin (a != b) (m * n) (e + g)

def fpNeg : Fp → Fp
  | .nan => .nan
  | .inf a => .inf (!a)
  | .fin a m e => .fin (!a) m e

/-- The quotient, exact or with the lost part folded into a last bit below the rounding point. -/
def fpDiv (x y : Fp) : Fp :=
  match x, y with
  | .nan, _ => .nan
  | _, .nan => .nan
  | .inf _, .inf _ => .nan
  | .inf a, .fin b _ _ => .inf (a != b)
  | .fin a _ _, .inf b => .fin (a != b) 0 0
  | .fin a m e, .fin b n g =>
    if n = 0 then (if m = 0 then .nan else .inf (a != b))
    else if m = 0 then .fin (a != b) 0 0
    else
      let k : Nat := 64
      let q := m * 2 ^ k / n
      let r := m * 2 ^ k % n
      .fin (a != b) (2 * q + if r = 0 then 0 else 1) (e - g - (k : Int) - 1)

/-- The integer square root of n, by trial of bits fuel−1 down to 0 on top of r. -/
def isqrtFrom : Nat → Nat → Nat → Nat
  | 0, _, r => r
  | b + 1, n, r => isqrtFrom b n (if (r + 2 ^ b) * (r + 2 ^ b) ≤ n then r + 2 ^ b else r)

/-- The square root, exact or with a sticky last bit; of a negative non-zero value a NaN. -/
def fpSqrt : Fp → Fp
  | .nan => .nan
  | .inf a => if a then .nan else .inf false
  | .fin a m e =>
    if m = 0 then .fin a 0 0
    else if a then .nan
    else
      let odd := decide (e % 2 ≠ 0)
      let m1 := (if odd then 2 * m else m) * 2 ^ 64
      let e1 := (if odd then e - 1 else e) - 64
      let r := isqrtFrom 46 m1 0
      .fin false (2 * r + if r * r = m1 then 0 else 1) (e1 / 2 - 1)

def f32Add (x y : W32) : W32 := f32Pack (fpAdd (f32Unpack x) (f32Unpack y))

def f32Neg (x : W32) : W32 := x ^^^ 0x80000000#32

def f32Abs (x : W32) : W32 := x &&& 0x7FFFFFFF#32

def f32Sub (x y : W32) : W32 := f32Pack (fpAdd (f32Unpack x) (fpNeg (f32Unpack y)))

def f32Mul (x y : W32) : W32 := f32Pack (fpMul (f32Unpack x) (f32Unpack y))

def f32Div (x y : W32) : W32 := f32Pack (fpDiv (f32Unpack x) (f32Unpack y))

def f32Sqrt (x : W32) : W32 := f32Pack (fpSqrt (f32Unpack x))

/-- x × y + z rounded once (R40). -/
def f32Fma (x y z : W32) : W32 := f32Pack (fpAdd (fpMul (f32Unpack x) (f32Unpack y)) (f32Unpack z))

/-- A signed integer to FP32 with RNE. -/
def f32OfInt (i : Int) : W32 := f32Pack (.fin (decide (i < 0)) i.natAbs 0)

def f32OfNat (n : Nat) : W32 := f32Pack (.fin false n 0)

/-- 2^k as FP32. -/
def f32Pow2 (k : Int) : W32 := f32Pack (.fin false 1 k)

/-- A key that orders FP32 values, −0 below +0 (R42). -/
def f32Key (x : W32) : Int :=
  let n := x.toNat
  if n ≥ 2 ^ 31 then -((n % 2 ^ 31 : Nat) : Int) - 1 else (n : Int)

/-- MIN: NaN if either operand is NaN, −0 below +0 (R42). -/
def f32Min (x y : W32) : W32 :=
  if f32IsNaN x || f32IsNaN y then f32NaN else if f32Key x ≤ f32Key y then x else y

/-- MAX: NaN if either operand is NaN, −0 below +0 (R42). -/
def f32Max (x y : W32) : W32 :=
  if f32IsNaN x || f32IsNaN y then f32NaN else if f32Key x ≥ f32Key y then x else y

/-- x < y as IEEE compares: zeros are equal, false with a NaN (R198 CLT). -/
def f32Lt (x y : W32) : Bool :=
  if f32IsNaN x || f32IsNaN y then false
  else if f32IsZero x && f32IsZero y then false
  else decide (f32Key x < f32Key y)

def f32Le (x y : W32) : Bool :=
  if f32IsNaN x || f32IsNaN y then false
  else if f32IsZero x && f32IsZero y then true
  else decide (f32Key x ≤ f32Key y)

/-- |x| ≥ |y|, compared exactly on the patterns (R66, R96). -/
def f32MagGe (x y : W32) : Bool := decide (x.toNat % 2 ^ 31 ≥ y.toNat % 2 ^ 31)

/-- The canonical NaN for any NaN pattern, else the pattern (R42). -/
def f32Canon (x : W32) : W32 := if f32IsNaN x then f32NaN else x

/-- ⌊|x|⌋ of a finite value, and the exact fraction as a pair (numerator, denominator exponent). -/
def f32FloorAbs (x : W32) : Nat :=
  match f32Unpack x with
  | .fin _ m e => if 0 ≤ e then m * 2 ^ e.toNat else m / 2 ^ (-e).toNat
  | _ => 0

/-- |x| rounded to an integer, ties to even; 2^24 for a non-finite value. -/
def f32RoundAbs (x : W32) : Nat :=
  match f32Unpack x with
  | .fin _ m e =>
    if 0 ≤ e then m * 2 ^ e.toNat
    else
      let d := (-e).toNat
      let q := m / 2 ^ d
      let rem := m % 2 ^ d
      if 2 * rem > 2 ^ d ∨ (2 * rem = 2 ^ d ∧ q % 2 = 1) then q + 1 else q
  | _ => 2 ^ 24

/-- x rounded to a signed integer, ties to even. -/
def f32RoundInt (x : W32) : Int :=
  if x.toNat ≥ 2 ^ 31 then -((f32RoundAbs x : Nat) : Int) else ((f32RoundAbs x : Nat) : Int)

/-- SR to an integer code (R47): q := ⌊t⌋, u := ⌊(t − q) × 65536⌋, one more when u + r ≥ 65536. -/
def codeSr (t : W32) (r : W16) : Nat :=
  match f32Unpack t with
  | .fin _ m e =>
    let q := f32FloorAbs t
    let u :=
      if 0 ≤ e then 0
      else
        let d := (-e).toNat
        (m % 2 ^ d) * 65536 / 2 ^ d
    if u + r.toNat ≥ 65536 then q + 1 else q
  | _ => 2 ^ 24

/-! ### Compensated states -/

/-- A compensated state: running sum and error term (R66). -/
structure CState where
  s : W32
  c : W32
  deriving DecidableEq, Repr

def CState.zero : CState := ⟨0, 0⟩

/-- cadd (R66). -/
def cadd (st : CState) (x : W32) : CState :=
  let t := f32Add st.s x
  if f32NonFinite t then ⟨t, st.c⟩
  else if f32MagGe st.s x then ⟨t, f32Add st.c (f32Add (f32Sub st.s t) x)⟩
  else ⟨t, f32Add st.c (f32Add (f32Sub x t) st.s)⟩

/-- ccombine with a as the left operand (R67). -/
def ccombine (a b : CState) : CState :=
  let r := cadd a b.s
  ⟨r.s, f32Add r.c b.c⟩

/-- The fold of a compensated state (R68). -/
def cfold (st : CState) : W32 := if f32NonFinite st.s then f32Canon st.s else f32Add st.s st.c

/-! ### The pairing tree -/

/-- One level of the tree of R72: neighbours paired from the left, an odd last node passed up. -/
def pairLevel {α : Type} (f : α → α → α) : List α → List α
  | a :: b :: rest => f a b :: pairLevel f rest
  | l => l

/-- Levels of the tree until one node is left (R72). -/
def treeLevels {α : Type} (f : α → α → α) : Nat → List α → List α
  | 0, l => l
  | k + 1, l => if l.length ≤ 1 then l else treeLevels f k (pairLevel f l)

/-- The tree's root; d for an empty list. -/
def treeFold {α : Type} (f : α → α → α) (d : α) (l : List α) : α :=
  (treeLevels f l.length l).headD d

/-! ### Welford states -/

/-- A Welford state: count, mean, sum of squared deviations (R69). -/
structure Welford where
  n : Nat
  mu : W32
  m2 : W32
  deriving DecidableEq, Repr

def Welford.zero : Welford := ⟨0, 0, 0⟩

/-- Adding one sample (R69). -/
def welfordAdd (w : Welford) (x : W32) : Welford :=
  let n := w.n + 1
  let d := f32Sub x w.mu
  let mu := f32Add w.mu (f32Div d (f32OfNat n))
  let d2 := f32Sub x mu
  ⟨n, mu, f32Fma d d2 w.m2⟩

/-- Merging two states, a on the left (R70). -/
def welfordMerge (a b : Welford) : Welford :=
  if b.n = 0 then a
  else if a.n = 0 then b
  else
    let n := a.n + b.n
    let delta := f32Sub b.mu a.mu
    let w := f32Div (f32OfNat b.n) (f32OfNat n)
    let mu := f32Add a.mu (f32Mul delta w)
    let f := f32Mul (f32OfNat a.n) w
    ⟨n, mu, f32Add (f32Add a.m2 b.m2) (f32Mul (f32Mul delta delta) f)⟩

/-- The reported variance, M2 ÷ n or M2 ÷ (n − 1) (R70). -/
def welfordVar (unbiased : Bool) (w : Welford) : W32 :=
  if w.n ≤ 1 then 0
  else f32Div w.m2 (f32OfNat (if unbiased then w.n - 1 else w.n))

end Sys2Proof.Machine
end

