-- ==== Sys2Proof/Machine/Formats.lean ====
section
/-!
DEFINITION. The storage and wire formats (spec/02_number_formats_and_summation.md R44–R63) and the JW8 encoder
(spec/03_intake_selection_quantisation.md R96–R98): BF16, FP8, JW8, JW16, JB8, split-FP32, INT8, sketch codes.
-/

namespace Sys2Proof.Machine

/-! ### Bytes -/

/-- The low n bytes of a number, little-endian (R11). -/
def bytesLE : Nat → Nat → List Byte
  | 0, _ => []
  | k + 1, x => BitVec.ofNat 8 (x % 256) :: bytesLE k (x / 256)

/-- The number a little-endian byte list holds. -/
def natLE : List Byte → Nat
  | [] => 0
  | b :: rest => b.toNat + 256 * natLE rest

/-- The number a big-endian byte list holds. -/
def natBE (l : List Byte) : Nat := l.foldl (fun a b => a * 256 + b.toNat) 0

def w32LE (l : List Byte) : W32 := BitVec.ofNat 32 (natLE (l.take 4))

def w16LE (l : List Byte) : W16 := BitVec.ofNat 16 (natLE (l.take 2))

def bytes32 (x : W32) : List Byte := bytesLE 4 x.toNat

def bytes16 (x : W16) : List Byte := bytesLE 2 x.toNat

def bytes64 (x : W64) : List Byte := bytesLE 8 x.toNat

/-- A list cut into runs of n; the fuel bounds the number of runs. -/
def runsOf {α : Type} (n : Nat) : Nat → List α → List (List α)
  | 0, _ => []
  | k + 1, l => if l.isEmpty then [] else l.take n :: runsOf n k (l.drop n)

def groupsOf {α : Type} (n : Nat) (l : List α) : List (List α) := runsOf n l.length l

/-! ### BF16 -/

/-- FP32 to BF16 by RNE on the pattern (R48). -/
def bf16Rne (x : W32) : W16 :=
  if f32IsNaN x then 0x7FC0
  else
    let n := x.toNat
    BitVec.ofNat 16 (((n + 0x7FFF + (n / 65536) % 2) % 2 ^ 32) / 65536)

/-- FP32 to BF16 by SR on the pattern (R46). -/
def bf16Sr (x : W32) (r : W16) : W16 :=
  if f32IsNaN x then 0x7FC0 else BitVec.ofNat 16 (((x.toNat + r.toNat) % 2 ^ 32) / 65536)

/-- BF16 to FP32, exact; a NaN becomes the canonical NaN (R48). -/
def bf16Up (x : W16) : W32 := f32Canon (BitVec.ofNat 32 (x.toNat * 65536))

def bf16NonFinite (x : W16) : Bool := decide (x.toNat % 2 ^ 15 ≥ 0x7F80)

/-- The flush of subnormals at the array inputs (R49). -/
def bf16Flush (x : W16) : W16 :=
  if x.toNat % 2 ^ 15 < 0x80 then BitVec.ofNat 16 (x.toNat / 2 ^ 15 * 2 ^ 15) else x

/-- The smallest BF16 value that is not below the exact quotient m × 2^e ÷ n (R61, R96). -/
def bf16UpQuot (m : Nat) (e : Int) (n : Nat) : W16 :=
  if m = 0 ∨ n = 0 then 0
  else
    let k : Nat := 40
    let top : Int := (Nat.log2 (m * 2 ^ k / n) : Int) + e - (k : Int)
    let u : Int := max (top - 7) (-133)
    let q :=
      if u ≤ e then (m * 2 ^ (e - u).toNat + n - 1) / n
      else
        let d := n * 2 ^ (u - e).toNat
        (m + d - 1) / d
    BitVec.ofNat 16 (min ((u + 133).toNat * 128 + q) 0x7F80)

/-- The smallest BF16 value that is not below the exact quotient |a| ÷ n, for finite a (R61). -/
def bf16RoundUp (a : W32) (n : Nat) : W16 :=
  match f32Unpack a with
  | .fin _ m e => bf16UpQuot m e n
  | _ => 0x7FC0

/-- The two BF16 parts of a split-FP32 operand (R50), before the flush. -/
def splitHiLo (x : W32) : W16 × W16 :=
  let hi := bf16Rne x
  if bf16NonFinite hi then (hi, 0) else (hi, bf16Rne (f32Sub x (bf16Up hi)))

/-! ### FP8 -/

/-- FP32 to FP8 E4M3 (R52). -/
def e4m3Of (x : W32) : Byte :=
  match f32Unpack x with
  | .nan => 0x7F
  | .inf _ => 0x7F
  | .fin neg m e => BitVec.ofNat 8 (min (roundCode 3 (-9) m e) 0x7E + if neg then 128 else 0)

/-- FP32 to FP8 E5M2 (R52). -/
def e5m2Of (x : W32) : Byte :=
  match f32Unpack x with
  | .nan => 0x7E
  | .inf neg => if neg then 0xFC else 0x7C
  | .fin neg m e => BitVec.ofNat 8 (min (roundCode 2 (-16) m e) 0x7B + if neg then 128 else 0)

/-- FP8 E4M3 to FP32, exact (R53). -/
def e4m3Up (b : Byte) : W32 :=
  let mag := b.toNat % 128
  if mag = 0x7F then f32NaN
  else
    let p := unpackMag 3 (-9) mag
    f32Pack (.fin (decide (b.toNat ≥ 128)) p.1 p.2)

/-- FP8 E5M2 to FP32, exact (R53). -/
def e5m2Up (b : Byte) : W32 :=
  let mag := b.toNat % 128
  let neg := decide (b.toNat ≥ 128)
  if mag > 0x7C then f32NaN
  else if mag = 0x7C then f32Inf neg
  else
    let p := unpackMag 2 (-16) mag
    f32Pack (.fin neg p.1 p.2)

/-- FP8 in the tensor's working-copy format: true = E5M2. -/
def fp8Of (e5m2 : Bool) (x : W32) : Byte := if e5m2 then e5m2Of x else e4m3Of x

def fp8Up (e5m2 : Bool) (b : Byte) : W32 := if e5m2 then e5m2Up b else e4m3Up b

/-! ### JW8 -/

/-- The FP32 value of a non-escape JW8 code with its scale (R56); every code decodes to NaN under a NaN scale (R96). -/
def jw8Value (code : Byte) (s : W16) : W32 :=
  if f32IsNaN (bf16Up s) then f32NaN
  else if code = 0 then 0
  else
    let v := f32Mul (f32OfNat (code.toNat % 128)) (bf16Up s)
    if code.toNat ≥ 128 then f32Neg v else v

/-- The code of an in-range element (R57); r is the SR value, none for RNE. -/
def jw8Code (x : W32) (s : W16) (r : Option W16) : Byte :=
  if s.toNat % 2 ^ 15 = 0 then 0
  else
    let t := f32Div (f32Abs x) (bf16Up s)
    let m := min (match r with | none => f32RoundAbs t | some v => codeSr t v) 127
    if m = 0 then 0 else BitVec.ofNat 8 (m + if x.toNat ≥ 2 ^ 31 then 128 else 0)

/-- |v| ≥ 2^k, exactly (R96). -/
def magGePow (v : W32) (k : Int) : Bool :=
  match f32Unpack v with
  | .fin _ m e => decide (m ≠ 0 ∧ (Nat.log2 m : Int) + e ≥ k)
  | _ => true

/-- The largest magnitude pattern of a list. -/
def maxMag (l : List W32) : W32 := l.foldl (fun a x => if f32MagGe a x then a else f32Abs x) 0

/-- The largest j from 0 to n with count(|v| ≥ 2^(top − j)) ≤ esc (count 0 taken as 0 at j = 0). -/
def clipOctave (vs : List W32) (top : Int) (esc : Nat) : Nat → Nat
  | 0 => 0
  | j + 1 =>
    if (vs.filter fun v => magGePow v (top - ((j + 1 : Nat) : Int))).length ≤ esc then j + 1
    else clipOctave vs top esc j

/-- The first pass over one channel segment (R96). -/
structure SegScale where
  scale : W16
  /-- the escape class is |v| ≥ 2^clip; none: no escapes -/
  clip : Option Int
  bad : Bool
  deriving DecidableEq, Repr

def segScale (vs : List W32) (escB clipOct : Nat) : SegScale :=
  if vs.any f32NonFinite then ⟨0x7FC0, none, true⟩
  else
    let a := maxMag vs
    match f32Unpack a with
    | .fin _ m e =>
      if m = 0 then ⟨0, none, false⟩
      else
        let top : Int := (Nat.log2 m : Int) + e + 1
        let k : Int := top - (clipOctave vs top escB clipOct : Int)
        ⟨bf16UpQuot 1 k 127, some k, false⟩
    | _ => ⟨0x7FC0, none, true⟩

/-- One element on its way into the encoder: its channel, value and SR random value (none: RNE). -/
structure JwElem where
  chan : Nat
  v : W32
  r : Option W16
  deriving DecidableEq, Repr

/-- A run of elements of one channel (a channel segment, R80). -/
def segRuns : List JwElem → List (List JwElem)
  | [] => []
  | e :: rest =>
    match segRuns rest with
    | [] => [[e]]
    | seg :: more =>
      match seg with
      | f :: _ => if f.chan = e.chan then (e :: seg) :: more else [e] :: seg :: more
      | [] => [e] :: more

/-- What an encode of a chunk gives (R96–R98). -/
structure JwOut where
  codes : List Byte
  scales : List W16
  side : List W16
  /-- the value each element decodes to at the next hop -/
  decoded : List W32
  sat : Nat
  /-- the encoding unit's sticky bit is set -/
  bad : Bool
  deriving DecidableEq, Repr

def JwOut.empty : JwOut := ⟨[], [], [], [], 0, false⟩

/-- The second pass over one element (R97). -/
def jwElem (sc : SegScale) (sideCap : Nat) (o : JwOut) (e : JwElem) : JwOut :=
  if sc.bad then ⟨o.codes ++ [0], o.scales, o.side, o.decoded ++ [f32NaN], o.sat, true⟩
  else
    match sc.clip with
    | none => ⟨o.codes ++ [0], o.scales, o.side, o.decoded ++ [0], o.sat, o.bad⟩
    | some k =>
      if magGePow e.v k then
        if o.side.length < sideCap then
          let b := bf16Rne e.v
          ⟨o.codes ++ [0x80], o.scales, o.side ++ [b], o.decoded ++ [bf16Up b], o.sat, o.bad || bf16NonFinite b⟩
        else
          let c : Byte := BitVec.ofNat 8 (127 + if e.v.toNat ≥ 2 ^ 31 then 128 else 0)
          ⟨o.codes ++ [c], o.scales, o.side, o.decoded ++ [jw8Value c sc.scale], o.sat + 1, o.bad⟩
      else
        let c := jw8Code e.v sc.scale e.r
        ⟨o.codes ++ [c], o.scales, o.side, o.decoded ++ [jw8Value c sc.scale], o.sat, o.bad⟩

/-- The JW8 encode of a chunk's values in ascending element order (R96, R97). -/
def jw8Encode (escB clipOct sideCap : Nat) (es : List JwElem) : JwOut :=
  (segRuns es).foldl
    (fun o seg =>
      let sc := segScale (seg.map JwElem.v) escB clipOct
      let p := seg.foldl (jwElem sc sideCap) o
      { p with scales := p.scales ++ [sc.scale] })
    JwOut.empty

/-- The JW16 encode (R59, R98): BF16 codes, low byte first. -/
def jw16Encode (es : List JwElem) : JwOut :=
  let ws := es.map fun e => bf16Rne e.v
  ⟨ws.flatMap bytes16, [], [], ws.map bf16Up, 0, ws.any bf16NonFinite⟩

/-- Decoding JW8 codes, one scale per channel segment, one side entry per escape (R56, R58). -/
def jw8Decode : List (Nat × Byte) → List (Nat × W16) → List W16 → List W32
  | [], _, _ => []
  | (ch, c) :: rest, scales, side =>
    if c = 0x80 then
      match side with
      | b :: more => bf16Up b :: jw8Decode rest scales more
      | [] => f32NaN :: jw8Decode rest scales []
    else
      let s := ((scales.find? fun p => p.1 = ch).map Prod.snd).getD 0
      jw8Value c s :: jw8Decode rest scales side

/-! ### Sketch codes -/

/-- The sketch code of a group from its largest magnitude (R86). -/
def sketchCode (vs : List W32) : Byte :=
  if vs.any f32NonFinite then 255
  else
    let n := (maxMag vs).toNat
    let ex := n / 2 ^ 23
    let f := n / 2 ^ 22 % 2
    if ex < 64 then 0
    else if ex ≤ 190 then BitVec.ofNat 8 (2 * (ex - 64) + f + 1)
    else 255

def byteMax (a b : Byte) : Byte := if a.toNat ≥ b.toNat then a else b

/-! ### JB8 -/

/-- The stored block of 32 first-moment values (R61, R63): 32 codes and a scale; the flag says non-finite. -/
def jb8M1 (ms : List W32) (rs : List (Option W16)) : List Byte × W16 × Bool :=
  if ms.any f32NonFinite then (ms.map fun _ => 0, 0x7FC0, true)
  else
    let a := maxMag ms
    if f32IsZero a then (ms.map fun _ => 0, 0, false)
    else
      let s := bf16RoundUp a 127
      (List.zipWith
        (fun m r =>
          let t := f32Div (f32Abs m) (bf16Up s)
          let c : Nat := min (match r with | none => f32RoundAbs t | some v => codeSr t v) 127
          if m.toNat ≥ 2 ^ 31 then BitVec.ofInt 8 (-(c : Int)) else BitVec.ofNat 8 c)
        ms rs, s, false)

/-- The first-moment value of a code (R61). -/
def jb8M1Value (c : Byte) (s : W16) : W32 :=
  if f32IsNaN (bf16Up s) then f32NaN else f32Mul (f32OfInt c.toInt) (bf16Up s)

/-- The stored block of 32 second-moment values (R62, R63). -/
def jb8M2 (vs : List W32) (rs : List (Option W16)) : List Byte × W16 × Bool :=
  if vs.any fun v => f32NonFinite v || f32Lt v 0 then (vs.map fun _ => 0, 0x7FC0, true)
  else
    let ws := vs.map f32Sqrt
    let a := maxMag ws
    if f32IsZero a then (vs.map fun _ => 0, 0, false)
    else
      let s := bf16RoundUp a 255
      (List.zipWith
        (fun w r =>
          let t := f32Div w (bf16Up s)
          BitVec.ofNat 8 (min (match r with | none => f32RoundAbs t | some v => codeSr t v) 255))
        ws rs, s, false)

/-- The second-moment value of a code (R62). -/
def jb8M2Value (u : Byte) (s : W16) : W32 :=
  if f32IsNaN (bf16Up s) then f32NaN
  else
    let p := f32Mul (f32OfNat u.toNat) (bf16Up s)
    f32Mul p p

/-- The 34 bytes of a JB8 block (R60). -/
def jb8Bytes (codes : List Byte) (s : W16) : List Byte := codes ++ bytes16 s

/-! ### Bit streams -/

/-- Bits of a bitmap, bit i at bit (i mod 8) of byte ⌊i ÷ 8⌋ (R112). -/
def packBits : Nat → List Bool → List Byte
  | 0, _ => []
  | k + 1, l =>
    if l.isEmpty then []
    else
      BitVec.ofNat 8 ((l.take 8).foldr (fun b a => (if b then 1 else 0) + 2 * a) 0) :: packBits k (l.drop 8)

def bitmapBytes (l : List Bool) : List Byte := packBits l.length l

/-- The bits of a byte list in the order of R112. -/
def bitsOf (l : List Byte) : List Bool :=
  l.flatMap fun b => (List.range 8).map fun j => b.getLsbD j

end Sys2Proof.Machine
end

