-- ==== Sys2Proof/Machine/Checks.lean ====
section
/-!
DEFINITION. The checks Jalos computes over bytes: CRC-32C (spec/04_ring_exchange.md R110), CRC-64
(spec/08_parameter_state_and_commit.md R227), the JCG-10 generator (R224–R226), SHA-384 and ECDSA P-384
(spec/13_image_boot_and_management.md R325, R327, which name FIPS 180-4 and FIPS 186-5).
-/

namespace Sys2Proof.Machine

/-! ### Cyclic checks -/

/-- One bit of the reflected CRC-32C. -/
def crc32Bit (c : Nat) : Nat := if c % 2 = 1 then Nat.xor (c / 2) 0x82F63B78 else c / 2

def crc32Byte (c : Nat) (b : Byte) : Nat :=
  let x := Nat.xor c b.toNat
  crc32Bit (crc32Bit (crc32Bit (crc32Bit (crc32Bit (crc32Bit (crc32Bit (crc32Bit x)))))))

/-- CRC-32C of a byte list: reflected, initial value and final XOR all ones (R110). -/
def crc32c (l : List Byte) : W32 :=
  BitVec.ofNat 32 (Nat.xor (l.foldl crc32Byte 0xFFFFFFFF) 0xFFFFFFFF)

def crc64Bit (c : Nat) : Nat :=
  if c / 2 ^ 63 = 1 then Nat.xor (c * 2 % 2 ^ 64) 0x42F0E1EBA9EA3693 else c * 2

def crc64Byte (c : Nat) (b : Byte) : Nat :=
  let x := Nat.xor c (b.toNat * 2 ^ 56)
  crc64Bit (crc64Bit (crc64Bit (crc64Bit (crc64Bit (crc64Bit (crc64Bit (crc64Bit x)))))))

/-- CRC-64 ECMA-182, not reflected, initial value 0, no final XOR (R227). -/
def crc64 (l : List Byte) : W64 := BitVec.ofNat 64 (l.foldl crc64Byte 0)

/-! ### JCG-10 -/

/-- The four words of a JCG-10 state. -/
structure Jcg where
  a : W32
  b : W32
  c : W32
  d : W32
  deriving DecidableEq, Repr

/-- Round i with its key (R225). -/
def jcgRound (k0 k1 : W32) (st : Jcg) (i : Nat) : Jcg :=
  let kk := (if i % 2 = 0 then k0 else k1) + BitVec.ofNat 32 (i * 0x9E3779B9)
  let a := st.a + st.b + kk
  let d := (st.d ^^^ a).rotateLeft 16
  let c := st.c + d
  let b := (st.b ^^^ c).rotateLeft 12
  ⟨b, c, d, a⟩

/-- JCG-10 (R225). -/
def jcg10 (x : Jcg) (seed : W64) : Jcg :=
  let k0 : W32 := seed.extractLsb' 0 32
  let k1 : W32 := seed.extractLsb' 32 32
  let y := (List.range 10).foldl (jcgRound k0 k1) x
  ⟨y.a + x.a, y.b + x.b, y.c + x.c, y.d + x.d⟩

/-- The purpose codes (R226). -/
inductive Purpose where
  | jw8
  | residual
  | moment1
  | moment2
  | weight
  | sample
  deriving DecidableEq, Repr

def Purpose.code : Purpose → Nat
  | .jw8 => 1
  | .residual => 2
  | .moment1 => 3
  | .moment2 => 4
  | .weight => 5
  | .sample => 6

/-- The counter of R224. MEMBER is used for purpose 1 only, LANE is 0 for purpose 6. -/
def jcgCounter (p : Purpose) (tensor elem : Nat) (step : StepNo) (member : Nat) : Jcg :=
  let lane := if p = .sample then 0 else elem % 64
  let m := if p = .jw8 then member else 0
  ⟨BitVec.ofNat 32 elem,
   BitVec.ofNat 32 (elem / 2 ^ 32 % 256 + lane * 2 ^ 8 + p.code * 2 ^ 14 + tensor % 4096 * 2 ^ 20),
   BitVec.ofNat 32 step.toNat,
   BitVec.ofNat 32 (step.toNat / 2 ^ 32 + tensor / 4096 % 64 * 2 ^ 8 + m % 65536 * 2 ^ 14)⟩

/-- The 16-bit random value of a conversion (R45, R224). -/
def srValue (seed : W64) (p : Purpose) (tensor elem : Nat) (step : StepNo) (member : Nat) : W16 :=
  (jcg10 (jcgCounter p tensor elem step member) seed).a.extractLsb' 0 16

/-! ### SHA-384 -/

def sha512K0 : List Nat := [
  0x428A2F98D728AE22, 0x7137449123EF65CD, 0xB5C0FBCFEC4D3B2F, 0xE9B5DBA58189DBBC,
  0x3956C25BF348B538, 0x59F111F1B605D019, 0x923F82A4AF194F9B, 0xAB1C5ED5DA6D8118,
  0xD807AA98A3030242, 0x12835B0145706FBE, 0x243185BE4EE4B28C, 0x550C7DC3D5FFB4E2,
  0x72BE5D74F27B896F, 0x80DEB1FE3B1696B1, 0x9BDC06A725C71235, 0xC19BF174CF692694,
  0xE49B69C19EF14AD2, 0xEFBE4786384F25E3, 0x0FC19DC68B8CD5B5, 0x240CA1CC77AC9C65]

def sha512K1 : List Nat := [
  0x2DE92C6F592B0275, 0x4A7484AA6EA6E483, 0x5CB0A9DCBD41FBD4, 0x76F988DA831153B5,
  0x983E5152EE66DFAB, 0xA831C66D2DB43210, 0xB00327C898FB213F, 0xBF597FC7BEEF0EE4,
  0xC6E00BF33DA88FC2, 0xD5A79147930AA725, 0x06CA6351E003826F, 0x142929670A0E6E70,
  0x27B70A8546D22FFC, 0x2E1B21385C26C926, 0x4D2C6DFC5AC42AED, 0x53380D139D95B3DF,
  0x650A73548BAF63DE, 0x766A0ABB3C77B2A8, 0x81C2C92E47EDAEE6, 0x92722C851482353B]

def sha512K2 : List Nat := [
  0xA2BFE8A14CF10364, 0xA81A664BBC423001, 0xC24B8B70D0F89791, 0xC76C51A30654BE30,
  0xD192E819D6EF5218, 0xD69906245565A910, 0xF40E35855771202A, 0x106AA07032BBD1B8,
  0x19A4C116B8D2D0C8, 0x1E376C085141AB53, 0x2748774CDF8EEB99, 0x34B0BCB5E19B48A8,
  0x391C0CB3C5C95A63, 0x4ED8AA4AE3418ACB, 0x5B9CCA4F7763E373, 0x682E6FF3D6B2B8A3,
  0x748F82EE5DEFB2FC, 0x78A5636F43172F60, 0x84C87814A1F0AB72, 0x8CC702081A6439EC]

def sha512K3 : List Nat := [
  0x90BEFFFA23631E28, 0xA4506CEBDE82BDE9, 0xBEF9A3F7B2C67915, 0xC67178F2E372532B,
  0xCA273ECEEA26619C, 0xD186B8C721C0C207, 0xEADA7DD6CDE0EB1E, 0xF57D4F7FEE6ED178,
  0x06F067AA72176FBA, 0x0A637DC5A2C898A6, 0x113F9804BEF90DAE, 0x1B710B35131C471B,
  0x28DB77F523047D84, 0x32CAAB7B40C72493, 0x3C9EBE0A15C9BEBC, 0x431D67C49C100D4C,
  0x4CC5D4BECB3E42B6, 0x597F299CFC657E2A, 0x5FCB6FAB3AD6FAEC, 0x6C44198C4A475817]

def sha512K : List Nat := sha512K0 ++ sha512K1 ++ sha512K2 ++ sha512K3

def sha384H0 : List Nat := [
  0xCBBB9D5DC1059ED8, 0x629A292A367CD507, 0x9159015A3070DD17, 0x152FECD8F70E5939,
  0x67332667FFC00B31, 0x8EB44A8768581511, 0xDB0C2E0D64F98FA7, 0x47B5481DBEFA4FA4]

def rotr64 (x n : Nat) : Nat := x / 2 ^ n + x % 2 ^ n * 2 ^ (64 - n)

def shaSmall0 (x : Nat) : Nat := Nat.xor (Nat.xor (rotr64 x 1) (rotr64 x 8)) (x / 2 ^ 7)
def shaSmall1 (x : Nat) : Nat := Nat.xor (Nat.xor (rotr64 x 19) (rotr64 x 61)) (x / 2 ^ 6)
def shaBig0 (x : Nat) : Nat := Nat.xor (Nat.xor (rotr64 x 28) (rotr64 x 34)) (rotr64 x 39)
def shaBig1 (x : Nat) : Nat := Nat.xor (Nat.xor (rotr64 x 14) (rotr64 x 18)) (rotr64 x 41)

/-- The message schedule, newest word first: k more words on top of the window. -/
def shaExpand : Nat → List Nat → List Nat
  | 0, w => w
  | k + 1, w =>
    let v := (shaSmall1 (w.getD 1 0) + w.getD 6 0 + shaSmall0 (w.getD 14 0) + w.getD 15 0) % 2 ^ 64
    shaExpand k (v :: w)

/-- The eight working variables. -/
structure ShaVars where
  a : Nat
  b : Nat
  c : Nat
  d : Nat
  e : Nat
  f : Nat
  g : Nat
  h : Nat

def shaRound (v : ShaVars) (kw : Nat × Nat) : ShaVars :=
  let ch := Nat.xor (Nat.land v.e v.f) (Nat.land (2 ^ 64 - 1 - v.e) v.g)
  let t1 := v.h + shaBig1 v.e + ch + kw.1 + kw.2
  let maj := Nat.xor (Nat.xor (Nat.land v.a v.b) (Nat.land v.a v.c)) (Nat.land v.b v.c)
  let t2 := shaBig0 v.a + maj
  ⟨(t1 + t2) % 2 ^ 64, v.a, v.b, v.c, (v.d + t1) % 2 ^ 64, v.e, v.f, v.g⟩

def shaBlock (h : List Nat) (block : List Byte) : List Nat :=
  let m := (groupsOf 8 block).map natBE
  let w := (shaExpand 64 m.reverse).reverse
  let v0 : ShaVars := ⟨h.getD 0 0, h.getD 1 0, h.getD 2 0, h.getD 3 0, h.getD 4 0, h.getD 5 0, h.getD 6 0, h.getD 7 0⟩
  let v := (List.zip sha512K w).foldl shaRound v0
  List.zipWith (fun x y => (x + y) % 2 ^ 64) h [v.a, v.b, v.c, v.d, v.e, v.f, v.g, v.h]

/-- The low n bytes of a number, big-endian. -/
def bytesBE (n x : Nat) : List Byte := (bytesLE n x).reverse

/-- The FIPS 180-4 padding of a message to 128-byte blocks. -/
def shaPad (l : List Byte) : List Byte :=
  let n := l.length
  l ++ [0x80] ++ List.replicate ((239 - n % 128) % 128) 0 ++ bytesBE 16 (8 * n)

/-- SHA-384: 48 bytes. -/
def sha384 (l : List Byte) : List Byte :=
  (((groupsOf 128 (shaPad l)).foldl shaBlock sha384H0).take 6).flatMap (bytesBE 8)

/-! ### ECDSA P-384 -/

def p384P : Nat := 2 ^ 384 - 2 ^ 128 - 2 ^ 96 + 2 ^ 32 - 1

def p384N : Nat :=
  0xFFFFFFFFFFFFFFFFFFFFFFFFFFFFFFFFFFFFFFFFFFFFFFFFC7634D81F4372DDF581A0DB248B0A77AECEC196ACCC52973

def p384B : Nat :=
  0xB3312FA7E23EE7E4988E056BE3F82D19181D9C6EFE8141120314088F5013875AC656398D8A2ED19D2A85C8EDD3EC2AEF

def p384Gx : Nat :=
  0xAA87CA22BE8B05378EB1C71EF320AD746E1D3B628BA79B9859F741E082542A385502F25DBF55296C3A545E3872760AB7

def p384Gy : Nat :=
  0x3617DE4A96262C6F5D9E98BF9292DC29F8F41DBD289A147CE9DA3113B5F0B8C00A60B1CE1D7E819D7A431D7C90EA0E5F

/-- b^e mod m over the low bits of e. -/
def powMod : Nat → Nat → Nat → Nat → Nat
  | 0, _, _, m => 1 % m
  | k + 1, b, e, m =>
    let h := powMod k (b * b % m) (e / 2) m
    if e % 2 = 1 then b * h % m else h

def invMod (a m : Nat) : Nat := powMod 384 (a % m) (m - 2) m

/-- A point in Jacobian coordinates; z = 0 is the point at infinity. -/
structure JPoint where
  x : Nat
  y : Nat
  z : Nat

def modSub (a b : Nat) : Nat := (a + p384P - b % p384P) % p384P

def jDouble (p : JPoint) : JPoint :=
  if p.z = 0 ∨ p.y = 0 then ⟨1, 1, 0⟩
  else
    let z2 := p.z * p.z % p384P
    let m := 3 * modSub p.x z2 * (p.x + z2) % p384P
    let y2 := p.y * p.y % p384P
    let w := 4 * p.x * y2 % p384P
    let x3 := modSub (m * m % p384P) (2 * w)
    let y3 := modSub (m * modSub w x3 % p384P) (8 * y2 * y2 % p384P)
    ⟨x3, y3, 2 * p.y * p.z % p384P⟩

def jAdd (p q : JPoint) : JPoint :=
  if p.z = 0 then q
  else if q.z = 0 then p
  else
    let z1 := p.z * p.z % p384P
    let z2 := q.z * q.z % p384P
    let u1 := p.x * z2 % p384P
    let u2 := q.x * z1 % p384P
    let s1 := p.y * z2 * q.z % p384P
    let s2 := q.y * z1 * p.z % p384P
    if u1 = u2 then (if s1 = s2 then jDouble p else ⟨1, 1, 0⟩)
    else
      let h := modSub u2 u1
      let r := modSub s2 s1
      let h2 := h * h % p384P
      let h3 := h2 * h % p384P
      let v := u1 * h2 % p384P
      let x3 := modSub (modSub (r * r % p384P) h3) (2 * v)
      let y3 := modSub (r * modSub v x3 % p384P) (s1 * h3 % p384P)
      ⟨x3, y3, p.z * q.z * h % p384P⟩

/-- k × p over the low bits of k. -/
def jMul : Nat → Nat → JPoint → JPoint
  | 0, _, _ => ⟨1, 1, 0⟩
  | f + 1, k, p =>
    let h := jMul f (k / 2) (jDouble p)
    if k % 2 = 1 then jAdd p h else h

/-- Does the public key lie on the curve? -/
def p384OnCurve (x y : Nat) : Bool :=
  decide (x < p384P) && decide (y < p384P) &&
    decide (y * y % p384P = (x * x % p384P * x + (p384P - 3) * x + p384B) % p384P)

/-- ECDSA P-384 verification of a 48-byte hash with an uncompressed public key and r ‖ s (R325, R327). -/
def p384Verify (pub sig hash : List Byte) : Bool :=
  let qx := natBE ((pub.drop 1).take 48)
  let qy := natBE ((pub.drop 49).take 48)
  let r := natBE (sig.take 48)
  let s := natBE ((sig.drop 48).take 48)
  let z := natBE (hash.take 48)
  if pub.length ≠ 97 ∨ pub.headD 0 ≠ 4 ∨ sig.length ≠ 96 then false
  else if r = 0 ∨ s = 0 ∨ p384N ≤ r ∨ p384N ≤ s ∨ !(p384OnCurve qx qy) then false
  else
    let w := invMod s p384N
    let pt := jAdd (jMul 384 (z * w % p384N) ⟨p384Gx, p384Gy, 1⟩) (jMul 384 (r * w % p384N) ⟨qx, qy, 1⟩)
    if pt.z = 0 then false
    else
      let zi := invMod pt.z p384P
      decide (pt.x * (zi * zi % p384P) % p384P % p384N = r)

end Sys2Proof.Machine
end

