-- ==== Sys2Proof/Config.lean ====
section
/-!
DEFINITION. What the part fixes and the manual does not give, and the values the manual leaves undefined: constants
without a body, so that no proof can rest on a value of theirs.
-/

namespace Sys2Proof.Config

/-- The Duiker firmware version before the rule that no part reports 0 is applied (spec/13 R352;
notes/assumptions/3.md). DESIGN CHOICE: a constant of the part. -/
opaque firmware : BitVec 16

/-- Byte i of the data of the n-th poisoned expander block: "the data of a poisoned block is undefined" (spec/12 R320;
notes/assumptions/4.md). -/
opaque poisonByte : Nat → Nat → Byte

/-- A residual whose new value no row of R94 gives, the n-th such value (spec/03 R94, spec/04 R121;
notes/assumptions/5.md). -/
opaque residual : Nat → BitVec 32

/-- Contents of the state tier where the manual says a region "may hold anything" or gives no result, the n-th such
byte (spec/08 R403; notes/assumptions/5.md). -/
opaque openByte : Nat → Byte

/-- The WR_ID of a receive completion, from the 16 bytes of the receive-ring entry, whose layout no rule gives
(spec/10 R271, R272; notes/assumptions/26.md). -/
opaque recvWrId : Nat → BitVec 64

/-- The remote address and the key under which the data of a SEND is placed, from the 16 bytes of the receive-ring entry, whose layout
no rule gives (spec/10 R271, R277; notes/assumptions/26.md). -/
opaque recvVa : Nat → BitVec 48

opaque recvKey : Nat → BitVec 32

/-- The image file, if any, that a run of bytes in host memory holds: several sections have no bit layout in the manual, so the
reading of the bytes is a constant of the part (spec/13 R325, R330; notes/assumptions/6.md). -/
opaque sxiParse : List Byte → Option Machine.SxiFile

end Sys2Proof.Config
end

