-- ==== Sys2Proof/Machine/BlocksMgmt.lean ====
section
/-!
DEFINITION. The state of the management and global blocks: events and the Duiker (JS, spec/13 R335–R352), the
global block (JG, spec/01 R35–R37, spec/14 R378), the ramp governor (JP, spec/15 R384, spec/16 R396–R399), the tile
windows (JT, R385), the NVM and fuses (R322–R328, R390), and the outputs a command drives.
-/

namespace Sys2Proof.Machine

/-! ### Events (R347, R348) -/

/-- One latched item: its width in bytes and its value. -/
structure EvItem where
  w : Nat
  v : Nat
  deriving DecidableEq, Repr

/-- An event recorded by a command, before it enters the ring. -/
structure EvRec where
  source : Nat
  code : Nat
  sev : Nat
  items : List EvItem
  deriving DecidableEq, Repr

/-- An event-ring entry (R347). -/
structure EvEntry where
  code : W16
  sev : BitVec 2
  slot : SlotNo
  step : StepNo
  items : List EvItem
  deriving DecidableEq, Repr

/-- The response of one access: code and read data (R336). -/
structure Resp where
  code : BitVec 3
  data : W32
  deriving DecidableEq, Repr

/-! ### JS: the Duiker -/

/-- The command register and its running command (R342). -/
structure CmdBlock where
  /-- `JS_CMD_ARG(0–7)` -/
  args : List W32
  /-- the arguments latched at the write to `JS_CMD` -/
  latched : List W32
  busy : Bool
  result : BitVec 3
  code : Byte
  done : W16
  /-- the result the running command will complete with, once it is known -/
  outcome : Option (BitVec 3)
  /-- the port that issued it: true = SM -/
  port : Bool
  /-- bytes moved by a restore, for EV_RESTORE -/
  bytes : Nat
  deriving DecidableEq, Repr

/-- The service lock (R344). -/
structure LockBlock where
  /-- `JS_LOCK.OWNER` as last written -/
  tag : Byte
  held : Bool
  /-- true = SM -/
  port : Bool
  /-- the OWNER held -/
  owner : Byte
  lease : W16
  /-- ms left in the present lease -/
  remain : W16
  deriving DecidableEq, Repr

/-- The event ring and its counters (R347, R352). -/
structure RingBlock where
  head : BitVec 12
  tail : BitVec 12
  lost : W16
  /-- entries written, by index -/
  ring : List (Nat × EvEntry)
  /-- events recorded by the command that is running -/
  evq : List EvRec
  irqErr : Bool
  irqFatal : Bool
  enErr : Bool
  enFatal : Bool
  deriving DecidableEq, Repr

/-- The boot registers (R352) and what boot has observed. -/
structure BootBlock where
  /-- `JS_BOOT.STATE` -/
  state : BitVec 3
  bank : Bool
  nvmMode : Bool
  cr : Bool
  cause : Byte
  tvMs : W16
  /-- strap TWIN_SEL -/
  twinSel : Bool
  /-- grade in `JS_ID` -/
  grade : BitVec 3
  /-- JPOR_N, JWRST_N low -/
  jporLow : Bool
  jwrstLow : Bool
  /-- the boot that is due after inrush was asked for while inrush ran (R392) -/
  inrush : Bool
  /-- fuse words missed by FUSE_ACK (R390) -/
  fuseMiss : List Nat
  /-- the image is verified (T_v has passed, not SAFE) -/
  verified : Bool
  deriving DecidableEq, Repr

/-- The service block. -/
structure JsBlock where
  boot : BootBlock
  cmd : CmdBlock
  lock : LockBlock
  ring : RingBlock
  cmdEvent : Bool
  rejCount : W16
  rejPort : Bool
  rejCode : BitVec 3
  rejOffset : BitVec 24
  smPartial : Byte
  smExtra : Byte
  smFrame : Byte
  /-- SM transactions completed, modulo 256 (R338) -/
  smDone : Byte
  /-- the status word last shifted out on MISO, if one was -/
  smStatus : W32
  temp : W16
  volt : W16
  /-- an excursion is in progress (R350) -/
  excursion : Bool
  /-- the Duiker is restarting after its watchdog (R335) -/
  restarting : Bool
  /-- the response of the last MW access and of the last SM access -/
  mw : Resp
  sm : Resp
  /-- latched copies of the multi-word windows (R381), by the offset of word 0 -/
  latches : List (Nat × List W32)
  deriving DecidableEq, Repr

/-! ### NVM -/

/-- The flash as Jalos reads it (R323): the 128 bytes of each commit record and the file in each bank. -/
structure NvmBlock where
  cr0 : List Byte
  cr1 : List Byte
  bankA : Option SxiFile
  bankB : Option SxiFile
  deriving DecidableEq, Repr

/-! ### JG: the global block -/

/-- `JG_NONFINITE` (R65): present bits [5:0], and SEEN. -/
structure NonFinite where
  now : BitVec 6
  seen : BitVec 6
  deriving DecidableEq, Repr

/-- `JG_EPOCH` (R37) but for DRAINED, which is computed. -/
structure EpochBlock where
  current : BitVec 2
  previous : BitVec 2
  staged : Bool
  staleSeen : Bool
  advances : W16
  deriving DecidableEq, Repr

/-- `JG_MEMBER` (R378). -/
structure MemberBlock where
  /-- 0 = RUN; 1 = HALTED; 2 = FAILED; 3 = SPARE -/
  state : BitVec 2
  donor : Bool
  cause : BitVec 4
  restoreDiscard : Byte
  restores : W16
  deriving DecidableEq, Repr

/-- Physical tiles (R355, R378). -/
structure TileMapBlock where
  /-- state of physical tiles 0–47: 0 = in service; 1 = SPARE; 2 = FENCED; 3 = RETIRED -/
  phys : List (BitVec 2)
  /-- physical tile of logical tiles 0–39 -/
  map : List (BitVec 6)
  lastPhys : BitVec 6
  lastLog : BitVec 6
  /-- tiles whose last TILE_TEST since they left service returned OK (R360) -/
  tested : BitVec 48
  /-- a logical tile waiting for its remap in the next slot (R355) -/
  remap : List (BitVec 6)
  deriving DecidableEq, Repr

/-- A check value to be compared with the twin's (R371). -/
inductive TwinItem where
  | chunk (index : Nat) (crc : W32)
  | cell (rid : Nat) (crc : W32)
  | digests (dW dM1 dM2 : W64)
  deriving DecidableEq, Repr

/-- The Twin (R370–R374, R378). -/
structure TwinBlock where
  present : Bool
  /-- false = instance A; true = instance B -/
  self : Bool
  driving : Bool
  peerOk : Bool
  diverge : Byte
  failovers : Byte
  /-- values sent and not yet compared -/
  sent : List TwinItem
  /-- values received and not yet compared -/
  heard : List TwinItem
  /-- a divergence was detected: the slot, the item index, both CRCs -/
  diverged : Option (SlotNo × Nat × W32 × W32)
  /-- slots until drive ownership follows the self-test or the twin's failure -/
  moveIn : Option Nat
  /-- self-test results exchanged: A passes, B passes -/
  test : Option SelfTest
  /-- an instance has been fenced: false = A, true = B -/
  fenced : Option Bool
  /-- TWIN_SWAP waits for the next STEP_DONE (R374) -/
  swap : Bool
  swapDue : Bool
  deriving DecidableEq, Repr

/-- The global block. -/
structure JgBlock where
  nf : NonFinite
  epoch : EpochBlock
  member : MemberBlock
  tiles : TileMapBlock
  twin : TwinBlock
  deriving DecidableEq, Repr

/-! ### JP and JT -/

/-- The ramp governor (R384, R396). -/
structure JpBlock where
  budget : BitVec 6
  inrushDone : Bool
  /-- levels of groups 1–15 -/
  levels : List Nat
  /-- targets of groups 1–15 -/
  targets : List Nat
  /-- slot in which each target was set -/
  setAt : List Nat
  ballast : Bool
  wakes : W16
  heldSlots : W16
  ballastSlots : W32
  /-- groups whose level held an entry in this slot -/
  holding : List Nat
  deriving DecidableEq, Repr

/-- What a tile window shows of its last or running job (R385). -/
structure TileWin where
  busy : Bool
  kind : BitVec 2
  tensor : BitVec 18
  ecc : W16
  deriving DecidableEq, Repr

/-- The tile windows. -/
structure JtBlock where
  schedIdx : BitVec 18
  wins : List TileWin
  deriving DecidableEq, Repr

/-! ### Outputs -/

/-- What a RoCE packet sent holds (R266, R275–R277). -/
inductive RoceOut where
  | request (op : RoceOp) (psn : BitVec 24) (raddr : W64) (rkey : W32) (dmaLen : Nat) (imm : W32) (ackReq : Bool)
      (payload : List Byte)
  | ack (psn : BitVec 24)
  | nak (psn : BitVec 24) (code : NakCode)
  | rnrNak (psn : BitVec 24) (timer : W16)
  | readResp (psn : BitVec 24) (payload : List Byte) (last : Bool)
  | cnp
  deriving DecidableEq, Repr

/-- What one command drives to the outside. -/
inductive Output where
  /-- a frame on a peer port (R245) -/
  | frame (port : Nat) (hdr : BitVec 128) (payload : List Byte) (trailer : BitVec 64)
  /-- the transmit words of a lane, Pp_Ll_TXD, in order (R237) -/
  | txd (port lane : Nat) (words : List (BitVec 160))
  /-- a request on a memory port: x_REQ_WRITE, x_REQ_ADDR, x_REQ_BEATS, x_REQ_TAG (R291) -/
  | memReq (port : MemPort) (write : Bool) (addr : Addr) (beats : BitVec 6) (tag : BitVec 9)
  /-- a beat of write data: x_WD_DATA, x_WD_STRB, x_WD_LAST (R291) -/
  | memData (port : MemPort) (data : BitVec 512) (strb : W64) (last : Bool)
  /-- a RoCE packet of a queue on an Ethernet port -/
  | roce (eport : Nat) (queue : Nat) (pkt : RoceOut)
  /-- PFC: XOFF or XON of a priority (R274) -/
  | pfc (eport prio : Nat) (xoff : Bool)
  /-- an XT configuration write (R321) -/
  | xt (addr : BitVec 12) (data : W32)
  /-- a message to the twin over XA and XB (R371) -/
  | twin (msg : TwinMsg)
  /-- an expander's block, and whether it is poisoned (R319, R320) -/
  | expanded (xe : Nat) (raw : List Byte) (poison : Bool)
  /-- an expander's completion fetch: XE_CF_ADDR, XE_CF_BEATS, beats minus one (R317, R319) -/
  | fetch (xe : Nat) (addr : Addr) (beats : BitVec 6)
  /-- a state copy on VC3 through a peer port: header, data, trailer CRC (R229, R230, R365) -/
  | copy (port : Nat) (hdr : CopyHdr) (data : List Byte) (crc : W64)
  /-- an expander's error report (R321) -/
  | xeErr (info : W64)
  deriving DecidableEq, Repr

/-- Output pins whose level no register gives (R29, R237, R321, R389). The other pins follow from registers:
COMMIT_PARITY, MODE_GEN, TWIN_DRIVE, JIRQ, TQn_READY (Machine/Flags.lean). -/
structure PinBlock where
  stepDone : Bool
  xtEpoch : BitVec 2
  /-- Pp_ADAPT_REQ, bit p -/
  adaptReq : Byte
  deriving DecidableEq, Repr

end Sys2Proof.Machine
end

