-- ==== Sys2Proof/Machine/BlocksLink.lean ====
section
/-!
DEFINITION. The state of the peer links (JL, spec/09_olubiow_peer_links.md) and of the Ethernet and RDMA block (JE,
spec/10_scale_out_rdma.md).
-/

namespace Sys2Proof.Machine

/-! ### Peer links -/

/-- One receiving lane (R243, R244, R259). -/
structure Lane where
  los : Bool
  locked : Bool
  bad : Bool
  /-- markers in a row that count towards lock -/
  good : Nat
  /-- LANE carried by those markers -/
  id : BitVec 3
  /-- consecutive expected markers that failed (R244) -/
  miss : Nat
  /-- consecutive intervals in which the BIP count rose (R259) -/
  bipRun : Nat
  /-- `JL_BIP` count -/
  bip : Byte
  /-- the last marker came within 20 ns of the other lanes' (R243) -/
  inSkew : Bool
  deriving DecidableEq, Repr

/-- A DATA frame's content on its way out (R246). -/
structure TxFrag where
  vc : Nat
  first : Bool
  last : Bool
  payload : List Byte
  /-- table epoch of the chunk or cell the fragment belongs to (R24) -/
  tepoch : BitVec 2
  /-- the frame is aborted: it ends with EOF 0xFE (R252) -/
  aborted : Bool
  deriving DecidableEq, Repr

/-- A DATA frame kept in the replay buffer (R251). -/
structure SentFrag where
  fseq : W16
  frag : TxFrag
  deriving DecidableEq, Repr

/-- A chunk or cell being reassembled on a VC. -/
structure RxAsm where
  isOpen : Bool
  bytes : List Byte
  /-- its table epoch, which the fragments after its FIRST one share, discarded or not (R261) -/
  tepoch : BitVec 2
  deriving DecidableEq, Repr

/-- A frame delineated out of decoded blocks, and whether it overlaps bytes the decoder marked errored (R240, R245). -/
structure CutFrame where
  frame : Frame
  errored : Bool
  deriving DecidableEq, Repr

/-- The receiver's delineation of the frame stream (R245, R248). -/
structure Cutter where
  /-- resync: words are discarded until a block starts with a good header -/
  hunt : Bool
  /-- bytes of the frame being received, whether any of them is marked errored, and whether it started a block -/
  part : List Byte
  errored : Bool
  atBlock : Bool
  deriving DecidableEq, Repr

/-- A frame on its way into the transmitter's blocks (R245): the 8-byte words still to send, whether the first of them must start a
block (R248), and whether the frame is in progress. -/
structure WireFrame where
  words : List (List Byte)
  atBlock : Bool
  started : Bool
  deriving DecidableEq, Repr

/-- The receive side of a port. -/
structure PortRx where
  /-- next FSEQ expected -/
  expect : W16
  /-- a frame has been delivered since link-up -/
  any : Bool
  retryOut : Bool
  /-- the last slot in which a retry was outstanding (R31) -/
  retryAt : Option SlotNo
  /-- RETRY frames sent in a row for the expected FSEQ (R250) -/
  retryCount : Nat
  resync : Bool
  asm : List RxAsm
  /-- items delivered and not yet taken by the ring engine or the Gazelle path -/
  items : List (Nat × List Byte)
  /-- frames delineated out of decoded blocks, oldest first, that no frame command has taken yet (R245) -/
  cut : List CutFrame
  cutter : Cutter
  /-- cumulative credit counts granted, VC0–VC3 (R254) -/
  granted : List W16
  ackDue : Bool
  /-- descrambler state (R241) -/
  scr : BitVec 58
  /-- bytes of the block being decoded, codeword A's first, and whether A's are marked errored (R240) -/
  decoded : List Byte
  decodedBad : Bool
  deriving DecidableEq, Repr

/-- The transmit side of a port. -/
structure PortTx where
  next : W16
  replay : List SentFrag
  /-- frames waiting for credit or replay space, per VC -/
  queues : List (List TxFrag)
  /-- cumulative counts received and consumed, VC0–VC3 (R254) -/
  recv : List W16
  used : List W16
  /-- FSEQ of the last RETRY received and how many times in a row (R250) -/
  reqSeq : W16
  reqCount : Nat
  /-- the deficit-weighted arbiter (R133): bytes that VC1 to VC3 may still send in their turn, and the VC whose turn it is -/
  deficit : List Nat
  turn : Nat
  /-- frames driven and not yet in a block, in order (R245) -/
  wire : List WireFrame
  /-- per lane, the bits that do not fill a 160-bit word yet (R237) -/
  rest : List (List Bool)
  deriving DecidableEq, Repr

/-- One peer port. -/
structure PeerPort where
  /-- 0 DOWN, 1 ADAPT, 2 ALIGNED, 3 IDENT, 4 UP, 5 UP on 4 lanes, 6 FENCED, 7 FAILED -/
  state : BitVec 3
  half : Bool
  cause : BitVec 3
  fecCorr : W16
  fecUncorr : W16
  cntSize : Byte
  cntHcrc : Byte
  cntFcrc : Byte
  cntSeq : Byte
  retrySent : W16
  replayed : W16
  partner : W16
  partnerPort : BitVec 3
  partnerValid : Bool
  noAdmit : Byte
  lastFrame : BitVec 128
  lanes : List Lane
  rx : PortRx
  tx : PortTx
  /-- a degrade procedure waits for realignment (R259) -/
  realign : Bool
  /-- a degraded port that a resume lets relock on all 8 lanes (R260) -/
  widen : Bool
  /-- training attempt: 0 none, 1 waiting for alignment, 2 waiting for IDENT -/
  attempt : Nat
  /-- failed attempts in a row, and their last failure: 1 alignment, 2 no reply, 3 NOT_READY -/
  failed : Nat
  lastFail : Nat
  /-- EV_LINK_TRAIN recorded for this run of failures -/
  trainSeen : Bool
  deriving DecidableEq, Repr

/-- The peer-link block. -/
structure JlBlock where
  retryLimit : BitVec 4
  retryTo : Byte
  bootWait : W16
  ports : List PeerPort
  deriving DecidableEq, Repr

/-! ### Ethernet and RDMA -/

/-- A queue context (R271). -/
structure QpCtx where
  eport : BitVec 1
  ipv6 : Bool
  relaxed : Bool
  odpRnr : Bool
  ccEn : Bool
  prio : BitVec 3
  destQpn : BitVec 24
  sqPsn : BitVec 24
  rqPsn : BitVec 24
  dmac : BitVec 48
  vlan : BitVec 12
  dip : BitVec 128
  dscp : BitVec 6
  mtu : Nat
  retry : Nat
  rnrRetry : Nat
  timeout : Nat
  rnrTimer : W16
  sqBase : Nat
  sqLog2 : Nat
  rqBase : Nat
  rqLog2 : Nat
  cqBase : Nat
  cqLog2 : Nat
  wMax : Nat
  deriving DecidableEq, Repr

/-- A send-ring entry (R272). -/
structure SqEntry where
  opcode : Nat
  signal : Bool
  isFinal : Bool
  wait : Bool
  lspace : Nat
  length : Nat
  laddr : Nat
  raddr : W64
  rkey : W32
  imm : W32
  waitQ : Nat
  waitCount : W32
  wrId : W64
  /-- posted by EXPORT, with its bytes: no ring entry stands behind it (R282) -/
  inline : Option (List Byte)
  /-- this entry completes the export in progress (R282) -/
  exportLast : Bool
  deriving DecidableEq, Repr

/-- An operation in flight (R273): its entry, its PSNs, what is acknowledged and what a READ has returned. -/
structure SqOp where
  entry : SqEntry
  psn : BitVec 24
  packets : Nat
  /-- its first packet has been sent: the operation is in flight, also while it goes back to be sent again (R273, R275) -/
  started : Bool
  /-- packets sent so far -/
  sent : Nat
  /-- packets acknowledged -/
  acked : Nat
  /-- READ bytes received -/
  got : Nat
  deriving DecidableEq, Repr

/-- A region of the memory region table (R277): its number, key, virtual base and length, rights, and for each 2 MiB page its present bit
and host address. -/
structure MemRegion where
  num : Nat
  key : W32
  base : Nat
  length : Nat
  canRead : Bool
  canWrite : Bool
  pages : List (Bool × Nat)
  deriving DecidableEq, Repr

/-- A parked packet (R277). -/
structure Parked where
  eport : Nat
  queue : Nat
  region : Nat
  page : W32
  pkt : RocePacket
  deriving DecidableEq, Repr

/-- One queue with state (R270–R280). -/
structure Queue where
  num : Nat
  /-- 0 = RESET; 1 = RTS; 2 = ERROR -/
  state : BitVec 2
  ctx : QpCtx
  /-- producer indices and the entries taken -/
  sqPi : W16
  sqCi : W16
  rqPi : W16
  rqCi : W16
  /-- completions written (index and phase of the completion ring) -/
  cqCount : Nat
  /-- entries posted by EXPORT -/
  posted : List SqEntry
  ops : List SqOp
  nextPsn : BitVec 24
  expPsn : BitVec 24
  nakFor : Option (BitVec 24)
  tries : Nat
  rnrTries : Nat
  rnrWait : Bool
  /-- congestion window, its carry, and the PSN at the last halving (R276) -/
  window : Nat
  carry : Nat
  halvedAt : Option (BitVec 24)
  completions : W32
  /-- stalled on a parked packet (R277) -/
  stalled : Bool
  /-- bytes received of the message in progress -/
  msgBytes : Nat
  /-- address and key of the WRITE message in progress (R277) -/
  msgVa : Nat
  msgKey : W32
  deriving DecidableEq, Repr

/-- One Ethernet port. -/
structure EthPort where
  /-- 0 = DOWN; 1 = HOLD; 2 = UP -/
  state : BitVec 2
  locked : Bool
  paused : Byte
  xoffSent : Byte
  cntSize : Byte
  cntFcs : Byte
  cntUnsup : Byte
  cntEarly : Byte
  xoff : BitVec 12
  /-- bytes each priority holds in the receive buffer (R274) -/
  fill : List Nat
  /-- packets held by a pause or by link loss, with their priority (R274, R281) -/
  txHeld : List (BitVec 3 × Output)
  deriving DecidableEq, Repr

/-- The export in progress (R282). -/
structure Export where
  queue : Nat
  done : Bool
  deriving DecidableEq, Repr

/-- The Ethernet and RDMA block. -/
structure JeBlock where
  wInit : Byte
  cnpGap : Byte
  pfcHoldMs : Byte
  /-- the PI word of `JE_SQ_DB` -/
  pi : W16
  /-- configuration loaded (R283) -/
  loaded : Bool
  ports : List EthPort
  queues : List Queue
  /-- the memory region table in host memory (R277; notes/assumptions/26.md) -/
  regions : List MemRegion
  parked : List Parked
  errQueue : W16
  errCause : BitVec 3
  errValid : Bool
  errCount : BitVec 12
  exports : List Export
  deriving DecidableEq, Repr

end Sys2Proof.Machine
end

