-- ==== Sys2Proof/Machine/BlocksRing.lean ====
section
/-!
DEFINITION. The state of the ring engine (JX, spec/04_ring_exchange.md) and of the Gazelle path (JZ,
spec/05_gazelle_path.md).
-/

namespace Sys2Proof.Machine

/-- The pools that the image assigns staging buffers to (R131). -/
inductive Pool where
  | rx
  | tx
  | hold
  | fwd
  deriving DecidableEq, Repr

/-- An entry of the staging directory: a buffer in use, its pool, and the chunk it holds by port, VC and header, or for HOLD by its
number (R131). -/
structure StageBuf where
  num : Nat
  pool : Pool
  port : Nat
  vc : Nat
  hdr : BitVec 512
  deriving DecidableEq, Repr

/-- A chunk as received: port, virtual channel, header, payload, and whether it is treated as POISON (R113, R121). -/
structure RxChunk where
  port : Nat
  vc : Nat
  hdr : BitVec 512
  payload : List Byte
  poison : Bool
  deriving DecidableEq, Repr

/-- A chunk's sum held as a carry at an axis end, or in HOLD at the owner (R114, R116, R131). -/
structure Folded where
  chunk : Nat
  /-- the axis whose lap ended here: 0 X, 1 Y, 2 Z -/
  axis : Nat
  /-- a carry: the selected elements in order; in HOLD: every element of the range -/
  vals : List W32
  sketch : List Byte
  bypass : Bool
  bypassN : Nat
  poison : Bool
  tepoch : BitVec 2
  /-- kept as it came, because this member's mask is missing (R91) -/
  raw : Option RxChunk
  deriving DecidableEq, Repr

/-- A run of a gather in progress (R125–R128). -/
structure GatherRun where
  gather : Nat
  run : Nat
  step : StepNo
  /-- this member's own entry has issued -/
  started : Bool
  /-- chunks written to the buffer, poisoned or given up -/
  got : List Nat
  /-- chunks given up at their arrival deadline (R128) -/
  missed : List Nat
  /-- a chunk was poisoned or missing -/
  bad : Bool
  flagged : Bool
  deriving DecidableEq, Repr

/-- A shift or permutation transfer in progress at its receiver (R129, R130). -/
structure XferRun where
  xfer : Nat
  run : Nat
  got : List Nat
  total : Option Nat
  bad : Bool
  flagged : Bool
  deriving DecidableEq, Repr

/-- A sequence counter of a port and VC (R135). -/
structure SeqCnt where
  port : Nat
  vc : Nat
  next : W32
  deriving DecidableEq, Repr

/-- A run counter by index (R125, R129). -/
structure RunCnt where
  index : Nat
  run : Nat
  deriving DecidableEq, Repr

/-- The three weights of `JX_VC_WT` (R140). -/
structure VcWt where
  w1 : BitVec 7
  w2 : BitVec 7
  w3 : BitVec 7
  deriving DecidableEq, Repr

/-- The ring engine. -/
structure JxBlock where
  discKey : Byte
  discSeq : Byte
  discCrc : Byte
  discForm : Byte
  bypOwn : W16
  bypSeen : W16
  ownLast : W16
  ownNow : W16
  upLast : List W16
  upNow : List W16
  slowMember : W16
  slowWait : W16
  /-- the MAX-LOC result to be latched at STEP_DONE: member and wait (R123) -/
  slowNext : Option (W16 × W16)
  wt : VcWt
  wtCk : VcWt
  /-- the checkpoint weights are in force (R134) -/
  copyStep : Bool
  lastHdr : BitVec 512
  seqTx : List SeqCnt
  seqRx : List SeqCnt
  /-- chunks received and waiting for their entry (RX pool) -/
  rx : List RxChunk
  /-- early arrivals and next-epoch chunks that take tests 5–8 again (R37, R118) -/
  early : List RxChunk
  /-- chunks whose incoming gate expired: POISON is sent in their place (R121) -/
  expired : List (Nat × Nat)
  carries : List Folded
  hold : List Folded
  /-- chunks owned and consumed in this step, and every entry that has added its contribution -/
  consumed : List Nat
  added : List (Nat × Nat)
  /-- chunks whose contribution this member withheld in this step (R119) -/
  withheld : List Nat
  /-- domains in LATE (R120) -/
  late : List Nat
  gatherCnt : List RunCnt
  gathers : List GatherRun
  xferCnt : List RunCnt
  xfers : List XferRun
  /-- `staging test` has been asked for while quiesced (R343) -/
  stagingTested : Bool
  /-- the staging directory: buffers in use (R131) -/
  stage : List StageBuf
  deriving DecidableEq, Repr

/-! ### Gazelle -/

/-- One element state of a reduction: a 64-bit word, or s and c of a compensated state. -/
structure GzElem where
  lo : W32
  hi : W32
  deriving DecidableEq, Repr

/-- A Gazelle cell (R143, R144). -/
structure GzCell where
  hdr : BitVec 128
  payload : List Byte
  trailer : BitVec 128
  deriving DecidableEq, Repr

/-- A half's state that has arrived for an axis. -/
structure GzHalf where
  /-- false = left (+ direction), true = right -/
  right : Bool
  axis : Nat
  elems : List GzElem
  bad : Bool
  deriving DecidableEq, Repr

/-- One cell of a reduction in progress at this member. -/
structure GzRed where
  rid : Nat
  cell : Nat
  run : W32
  epoch : BitVec 2
  /-- the state this member brings to the present axis, once it is ready -/
  own : Option (List GzElem)
  /-- how many of the axes of extent above 1 are behind -/
  axis : Nat
  halves : List GzHalf
  bad : Bool
  /-- something was left out at the root's deadline (R156) -/
  inc : Bool
  /-- this member's part of the reduce sweep is over -/
  done : Bool
  deriving DecidableEq, Repr

/-- The run count of a reduction id (R146). -/
structure GzRun where
  rid : Nat
  run : W32
  /-- the result of the present run has been received: its gates are satisfied -/
  result : Bool
  /-- the result carried INCOMPLETE: the gate behaves as if it had expired (R156) -/
  incomplete : Bool
  /-- results received, by cell -/
  words : List GzElem
  cells : Nat
  /-- gated entries that have gone on and whose gate this run cannot satisfy a second time (notes/assumptions/54.md) -/
  taken : List SchedEntry
  deriving DecidableEq, Repr

/-- A cell held on a port: for its start entry (R146) or its epoch (R37). -/
structure GzHeld where
  port : Nat
  cell : GzCell
  /-- the cell failed its CRC or form check here (R155) -/
  failed : Bool
  deriving DecidableEq, Repr

/-- The Gazelle path. -/
structure JzBlock where
  discCrc : W16
  discForm : W16
  capHeld : BitVec 24
  capPeak : Byte
  lastHdr : BitVec 128
  lastTrl : BitVec 128
  runs : List GzRun
  reds : List GzRed
  held : List GzHeld
  early : List GzHeld
  /-- VC0 frame bytes sent on each port in the present window (R152) -/
  used : List Nat
  /-- cells waiting for the next window, by port -/
  capQueue : List GzHeld
  /-- ports for which EV_GAZELLE_CAP was recorded in this window -/
  capSeen : List Nat
  /-- first slot of the present window -/
  winAt : Nat
  deriving DecidableEq, Repr

end Sys2Proof.Machine
end

