-- ==== Sys2Proof/Machine/BlocksMem.lean ====
section
/-!
DEFINITION. The state of the Mover and the memory ports (JM, spec/11_mover_and_memory_ports.md), the tile queues
(R286–R290) and the block codec with its expanders (JC, spec/12_block_codec.md).
-/

namespace Sys2Proof.Machine

/-- One Mover channel (R296–R305). -/
structure Chan where
  /-- `JM_CTL` bits [17:3], and PAUSE -/
  pause : Bool
  ctl : W32
  pace : W32
  src : Addr
  dst : Addr
  cnt : W32
  faddr : Addr
  busy : Bool
  paused : Bool
  halt : Bool
  dir : Bool
  status : BitVec 2
  err : BitVec 2
  paced : Bool
  halfSeen : Bool
  overrun : Bool
  completions : W16
  /-- the transfer started last has completed: what an arrival gate tests (R296) -/
  complete : Bool
  /-- STOP is draining -/
  stopping : Bool
  /-- values latched at START, for CIRC (R304) -/
  srcAt : Addr
  dstAt : Addr
  cntAt : W32
  /-- bytes of a scatter-gather list already written, and bytes left at START (R299, R304) -/
  sgDone : Nat
  total : Nat
  /-- next entry of an offload list (R305), and whether one runs -/
  offIdx : Nat
  offRun : Bool
  /-- bytes whose reads are in flight, and the responses still due for them (R303; notes/assumptions/27.md) -/
  fetch : Nat
  reads : Nat
  deriving DecidableEq, Repr

/-- A request of a unit to an HM or SP port (R291, R292): the requester (R348), for the Mover its channel, the byte
address and length, and a write's bytes. -/
structure PortReq where
  port : MemPort
  unit : Byte
  chan : BitVec 6
  write : Bool
  addr : Addr
  len : Nat
  data : List Byte
  deriving DecidableEq, Repr

/-- A request that holds a tag (R292). -/
structure Asked where
  tag : BitVec 9
  req : PortReq
  deriving DecidableEq, Repr

/-- The Mover and memory-port block. -/
structure JmBlock where
  chans : List Chan
  done : W64
  irqEn : W64
  qfill : List (BitVec 12)
  /-- fill of the queues whose level Jalos itself sees, 0–7 of R300, in KiB -/
  ownFill : List (BitVec 12)
  spLateRef : List Byte
  spLate : List Byte
  spErr : List Byte
  hmErr : List Byte
  /-- errors of each HM and each SP port with their steps, for the 1,024-step rules (R353) -/
  hmHist : List (Nat × Nat)
  spHist : List (Nat × Nat)
  /-- tags retired until JWRST_N (R295) -/
  retired : List (MemPort × BitVec 9)
  /-- SP ports with a response that came late with the refresh flag in this slot (R294) -/
  lateRef : List Nat
  /-- requests outstanding, with their tags, and requests that wait for a free tag of their port, in order (R292) -/
  asked : List Asked
  waiting : List PortReq
  deriving DecidableEq, Repr

/-! ### Tile queues -/

/-- A descriptor with its fields (R75). -/
structure Desc where
  raw : BitVec 512
  deriving DecidableEq, Repr

/-- What a tile queue is doing (R286–R289). -/
inductive TqState where
  /-- ready for a descriptor -/
  | idle
  /-- a tile is open: its descriptor and the payload received -/
  | isOpen (desc : BitVec 512) (got : List Byte)
  /-- a tile whose descriptor failed: its payload is discarded -/
  | discard
  /-- a descriptor is held (R288) -/
  | held (desc : BitVec 512)
  /-- payload before any descriptor is being discarded (R289) -/
  | junk
  deriving DecidableEq, Repr

/-- One tile queue. -/
structure Tq where
  pup : Bool
  st : TqState
  deriving DecidableEq, Repr

/-! ### Codec -/

/-- An accepted KV block on its way through its lane (R309). -/
structure KvReq where
  region : Nat
  block : Nat
  epoch : BitVec 2
  raw : List Byte
  /-- the tile queue that still delivers its payload -/
  queue : Option Nat
  /-- its writes are issued and not yet acknowledged -/
  issued : Bool
  deriving DecidableEq, Repr

/-- A RAW block an expander is waiting to complete (R317). -/
structure XeWait where
  xe : Nat
  region : Nat
  block : Nat
  slot : List Byte
  deriving DecidableEq, Repr

/-- The codec block and the expanders. -/
structure JcBlock where
  verify : Bool
  compressed : BitVec 14
  raw : BitVec 14
  verifyFail : BitVec 4
  badCause : BitVec 3
  badValid : Bool
  badXe : BitVec 4
  badRegion : Byte
  badCount : W16
  badBlock : BitVec 24
  /-- encode requests not yet acknowledged, in order of acceptance -/
  reqs : List KvReq
  /-- written counts of the regions (R311) -/
  written : List (Nat × W64)
  /-- the expanders' configuration space as written over XT: region table, and the staged tables (R321) -/
  xeWords : List (Nat × W32)
  /-- the expanders' previous and current tables -/
  xePrev : List (Nat × PrefixTable)
  xeCur : List (Nat × PrefixTable)
  /-- the space has been written whole since JWRST_N -/
  xeLoaded : Bool
  xeWait : List XeWait
  /-- error reports, by expander, that XE_ERR_READY has not let go yet (R319, R321) -/
  xeHeld : List (Nat × W64)
  /-- XT words still to be written before STAGED may be set (R321) -/
  xtDue : List (Nat × W32)
  deriving DecidableEq, Repr

end Sys2Proof.Machine
end

