-- ==== Sys2Proof/Machine/BlocksSeq.lean ====
section
/-!
DEFINITION. The state of the slot sequencer and the verdict (JQ, spec/01_slots_steps_and_planes.md, spec/15 R383) and of
intake (JI, spec/03_intake_selection_quantisation.md, spec/11 R286–R290).
-/

namespace Sys2Proof.Machine

/-- How far one unit's stream of an activation has moved by waits and carries (R17, R18). -/
structure Shift where
  unit : Nat
  slots : Nat
  /-- entries of the stream that have been taken, in the stream's order -/
  pos : Nat
  deriving DecidableEq, Repr

/-- One activation of a phase (R401). -/
structure Activation where
  id : Nat
  phase : Nat
  /-- slots since the phase became active, slipped and frozen slots left out -/
  offset : Nat
  shifts : List Shift
  deriving DecidableEq, Repr

/-- An entry that waits at its gate (R17, R19): its schedule index, the slot in which it became due, whether its
deadline action has been applied (1 = report once and keep waiting) or is due. -/
structure Held where
  act : Nat
  index : Nat
  due : SlotNo
  reported : Bool
  expired : Bool
  /-- its deadline expired with the gate closed before a run of slips: its action is owed to the first slot after the run (R19) -/
  lapsed : Bool
  deriving DecidableEq, Repr

/-- An entry carried over to the next slot (R18), with its gate satisfied. -/
structure Carried where
  act : Nat
  index : Nat
  /-- the TIMEOUT_ACT under which it goes on, or 0 -/
  how : Nat
  deriving DecidableEq, Repr

/-- The run of slips in progress (R32): its cause (1 = link retry, 2 = refresh, 3 = fault), first slot, length, and
whether it carries the tile-remap detail (R356). -/
structure SlipRun where
  cause : Nat
  first : SlotNo
  length : Nat
  remap : Bool
  deriving DecidableEq, Repr

/-- A decision received and not yet acted on (R25): clean, the OR result and the AND result. -/
structure Decision where
  clean : Bool
  orWord : W64
  andWord : W64
  deriving DecidableEq, Repr

/-- The verdict of the step in progress (R24–R26, R214). -/
structure VerdictBlock where
  incomplete : Bool
  fault : Bool
  veto : Bool
  /-- the verdict-send entry has issued, so the contribution may be formed -/
  sendIssued : Bool
  /-- the verdict word's NONFINITE bit has been formed, and its value (R65) -/
  formed : Bool
  nf : Bool
  /-- `JU_COMMIT_GATE.PENDING` -/
  pending : Bool
  /-- step that is waiting, bits [23:0] -/
  gateStep : BitVec 24
  /-- this member's contribution has been sent, and in which slot -/
  sent : Bool
  sentAt : SlotNo
  orSent : W64
  andSent : W64
  /-- slot of VERDICT entry, for the root's timer -/
  enteredAt : SlotNo
  decision : Option Decision
  deriving DecidableEq, Repr

/-- The slot sequencer. -/
structure JqBlock where
  slot : SlotNo
  step : StepNo
  phases : Byte
  gen : Bool
  variantReq : Bool
  slipping : Bool
  running : Bool
  quiesced : Bool
  slips : List W32
  slipLimit : W16
  vTimeout : BitVec 24
  /-- pending doorbell counts: doorbell number and count -/
  db : Mem
  acts : List Activation
  nextAct : Nat
  held : List Held
  carried : List Carried
  /-- the run of slips in progress (R32) -/
  run : Option SlipRun
  /-- consecutive slipped slots of any cause -/
  slipCount : Nat
  verdict : VerdictBlock
  /-- QUIESCE was asked for (R38) -/
  quiesceReq : Bool
  /-- the step has ended and no more entries issue (R38) -/
  draining : Bool
  /-- RESUME waits for the digest comparison (R39) -/
  resuming : Bool
  /-- slots since SERVE became active or the last BOUNDARY (R21) -/
  serveSlots : Nat
  /-- a boundary vote has been sent (R30), and its result, if received -/
  boundarySent : Bool
  boundaryResult : Option W64
  /-- the next slot is slipped -/
  forceSlip : Bool
  /-- a run of slips that has ended; EV_SLIP is recorded at the next cycle 0 (R32) -/
  slipEnd : Option SlipRun
  /-- a logical tile was remapped in this slot (R356) -/
  remapSlot : Bool
  /-- JQ_STATUS.GATES_WAITING -/
  gatesWaiting : W16
  /-- the restart step of the masks (R90) -/
  restart : StepNo
  /-- cycle 0 of the present slot has begun with a decision's or vote's effect; SLOT_START does the rest of it -/
  begun : Bool
  /-- LAP1 has been active in this attempt -/
  lap1Done : Bool
  deriving DecidableEq, Repr

/-! ### Intake -/

/-- A gradient group received: its pre-selection values g′ (R83). -/
structure GradGroup where
  tensor : Nat
  group : Nat
  vals : List W32
  deriving DecidableEq, Repr

/-- BF16 values of a kept sample row (R171), as they arrived: tensor, factor, block, stratum, and the first column
within the factor's range. -/
structure KeptRow where
  tensor : Nat
  side : Side
  block : Nat
  stratum : Nat
  col : Nat
  vals : List W16
  deriving DecidableEq, Repr

/-- A mask built by its owner, with the step it is for (R88). -/
structure MaskBuilt where
  tensor : Nat
  row : Nat
  step : StepNo
  bits : List Bool
  deriving DecidableEq, Repr

/-- A reported sample statistic: its mean is the state's (R69, R70). -/
structure SampleStat where
  tensor : Nat
  state : Welford
  var : W32
  deriving DecidableEq, Repr

/-- Intake. -/
structure JiBlock where
  tqEn : BitVec 4
  dupFault : Bool
  discTag : Byte
  discKind : Byte
  discDup : Byte
  discPartial : Byte
  nfFirst : BitVec 18
  nfValid : Bool
  nfCount : BitVec 13
  maskLost : W16
  resZeroed : W16
  satTotal : W32
  lastDesc : BitVec 256
  tqs : List Tq
  /-- groups received in this attempt, with g′ -/
  grads : List GradGroup
  /-- rows of the catalogue's tensors for which a sample row was kept in this step -/
  kept : List KeptRow
  /-- tensors for which EV_SAT was recorded in this step -/
  satSeen : List Nat
  /-- mask rows whose mask was found missing in this step (R91) -/
  maskMiss : List (Nat × Nat)
  /-- the density curves that govern steps t − 2, t − 1, t and t + 1 (R85) -/
  dens : List (List (Nat × List DensBp))
  /-- combined sketch codes of the chunks this owner has consumed, by chunk (R87, R88) -/
  sketches : List (Nat × List Byte)
  /-- chunks handled under R92 in this step -/
  lost : List Nat
  /-- masks this owner has built -/
  built : List MaskBuilt
  /-- mask slots, by their address, whose state-tier check has failed since they were written (R89, R91) -/
  maskBad : List Nat
  /-- activation-sample statistics of the step, by tensor: the Welford state and the reported variance (R69, R70) -/
  stats : List SampleStat
  deriving DecidableEq, Repr

end Sys2Proof.Machine
end

