-- ==== Sys2Proof/Machine/BlocksTrain.lean ====
section
/-!
DEFINITION. The state of the curvature units (JK, spec/06_curvature_and_matrix_roots.md), of the logical tiles that run update
programs (spec/07_update_programs.md) and of parameter state, coefficients and copies (JU,
spec/08_parameter_state_and_commit.md).
-/

namespace Sys2Proof.Machine

/-! ### Curvature -/

/-- A merge due after the commit pulse of a step, with the coefficients current just after that pulse (R173), and its progress
record: the output tiles of L and of R that are written (R175). -/
structure Merge where
  tensor : Nat
  block : Nat
  step : StepNo
  alpha : W32
  gammaL : W32
  gammaR : W32
  lDone : Nat
  rDone : Nat
  deriving DecidableEq, Repr

/-- A refresh queued (R177), with ε and φ of the curve current just after the pulse that made it due (R178). -/
structure Refresh where
  due : StepNo
  tensor : Nat
  block : Nat
  side : Side
  eps : W32
  phi : W32
  deriving DecidableEq, Repr

/-- The refresh in progress: iterations completed, its X and M, both b × b row-major, and whether an iteration is under way
(R178–R180, R186). -/
structure Markhor where
  ref : Refresh
  slot : Nat
  iter : Nat
  x : List W32
  m : List W32
  running : Bool
  deriving DecidableEq, Repr

/-- A finished refresh that awaits installation (R181, R183): its pool slot, or none when it ended stale. -/
structure Finished where
  ref : Refresh
  slot : Option Nat
  deriving DecidableEq, Repr

/-- The fields of a root-directory entry (R184). -/
structure RootEntry where
  lSlot : Nat
  rSlot : Nat
  lValid : Bool
  rValid : Bool
  step : StepNo
  staleN : Byte
  deriving DecidableEq, Repr

/-- A pool slot in use and the root it holds (R181). -/
structure PoolSlot where
  slot : Nat
  vals : List W16
  deriving DecidableEq, Repr

/-- Who takes a drained tile from an array's output queue (R161). -/
inductive Taker where
  /-- a state-port writer, which stores it at a state-tier address -/
  | statePort (addr : Nat)
  /-- the vector unit of the block's tile, which merges it into output tile `index` of a factor (R173) -/
  | vectorUnit (m : Merge) (side : Side) (index : Nat)
  deriving DecidableEq, Repr

/-- One accumulator set of an array: for each element of its output tile, row-major, the accumulators of the partitions and the INT8
correction of R54 (R160, R163, R165); a set with no taker is free. -/
structure AccSet where
  int8 : Bool
  cells : List (List W32 × W32)
  dst : Option Taker
  deriving DecidableEq, Repr

/-- A Kronecker array: ACC0 and ACC1, the set that its next output tile uses (R160), and the drained tiles in its output queue. -/
structure ArrayUnit where
  acc0 : AccSet
  acc1 : AccSet
  next : BitVec 1
  queue : List (Taker × List W32)
  deriving DecidableEq, Repr

/-- The curvature block. -/
structure JkBlock where
  installLag : BitVec 5
  hold : Bool
  tol : W32
  stale : Byte
  late : Byte
  clamp : W16
  missing : Byte
  nfTiles : Byte
  tensor : BitVec 18
  side : Bool
  iter : BitVec 5
  block : W16
  resid : W32
  arrays : List ArrayUnit
  merges : List Merge
  queue : List Refresh
  /-- the refresh in progress -/
  current : Option Markhor
  finished : List Finished
  pool : List PoolSlot
  deriving DecidableEq, Repr

/-! ### Tiles -/

/-- The running CRC of one stored stream of a pass run (R227): the stream id and the CRC-64 so far. -/
structure RunCrc where
  stream : Nat
  crc : Nat
  deriving DecidableEq, Repr

/-- An invocation (R191, R192). -/
structure Inv where
  /-- 1 = element program; 2 = pass 0 of a block program; 3 = block section -/
  kind : Nat
  tensor : Nat
  /-- chunk-map index (kinds 1 and 2) or block (kind 3) -/
  index : Nat
  epoch : BitVec 2
  /-- index of the pass, and of its part: 0 prologue, 1 body, 2 epilogue -/
  pass : Nat
  part : Nat
  /-- next word within the part -/
  pos : Nat
  iter : Nat
  crcs : List RunCrc
  /-- CRCs of the invocation's finished pass runs -/
  closed : List RunCrc
  /-- the pass waits for its PRE product (R196) -/
  preDue : Bool
  /-- the last word of the last part has issued -/
  finished : Bool
  deriving DecidableEq, Repr

/-- A tile's vector registers and compensated registers (R193). -/
structure TileRegs where
  v : List (List W32)
  a : List (List CState)
  deriving DecidableEq, Repr

/-- A logical tile's update machinery. -/
structure TileSt where
  regs : TileRegs
  inv : Option Inv
  /-- a block section that has yielded to a chunk pass (R206) -/
  saved : Option (Inv × TileRegs)
  /-- the two copies of region S, by byte offset from 0x44_0000 (R203) -/
  regS : Mem
  regSBlock : Mem
  deriving DecidableEq, Repr

/-- The block work area that a block in progress holds: its block gradient buffer, then its block product buffer, from a state-tier
address (R194). -/
structure WorkArea where
  tensor : Nat
  block : Nat
  base : Nat
  deriving DecidableEq, Repr

/-- The norm slot of a pass run for one register (R200). -/
structure NormSlot where
  tensor : Nat
  isBlock : Bool
  index : Nat
  pass : Nat
  reg : Nat
  lanes : List CState
  deriving DecidableEq, Repr

/-! ### Parameter state, coefficients, copies -/

/-- A latched coefficient set (R216, R218). -/
structure CoefFile where
  kset : Nat
  vals : List W32
  deriving DecidableEq, Repr

/-- The working-copy scan of a tensor in this step (R222). -/
structure WcScan where
  tensor : Nat
  code : Byte
  /-- the AUX of the chunks scanned -/
  aux : W32
  /-- every CARRY_MASK gather of the tensor has completed -/
  complete : Bool
  deriving DecidableEq, Repr

/-- The copy this member holds for another that names it as its buddy (R230): 1 = WRITING; 2 = VALID; 3 = FAILED. -/
structure HeldCopy where
  hdr : CopyHdr
  data : List Byte
  st : BitVec 2
  deriving DecidableEq, Repr

/-- The checkpoint being sent to the buddy (R229, R231). -/
structure OwnCopy where
  step : StepNo
  /-- residual capture complete (BUDDY_EXT) -/
  captured : Bool
  failed : Bool
  /-- BUDDY_EXT: the residuals as the step left them, which intake's reads return -/
  resid : List Byte
  deriving DecidableEq, Repr

/-- The first program fault latched (R204). -/
structure ProgFault where
  cause : BitVec 3
  valid : Bool
  tile : BitVec 6
  tepoch : BitVec 2
  pc : BitVec 13
  addr : BitVec 23
  deriving DecidableEq, Repr

/-- Three digests (R227). -/
structure Digests where
  w : W64
  m1 : W64
  m2 : W64
  deriving DecidableEq, Repr

/-- The replica comparison (R228, R235). -/
structure Replica where
  mismatch : Bool
  isMin : Bool
  isMax : Bool
  act : Bool
  compares : W16
  /-- the step whose words ids 9 and 10 carry, this member's own words of that step, and the results received -/
  cmp : Option StepNo
  own : Digests
  minRes : Option Digests
  maxRes : Option Digests
  deriving DecidableEq, Repr

/-- The update and coefficient block. -/
structure JuBlock where
  gateEn : Bool
  clip : W32
  rep : Replica
  period : W16
  digestPeriod : Byte
  updChunks : W16
  updBlocks : W16
  seed : W64
  /-- `JU_BUDDY_STAT.OUT` and `IN` -/
  outSt : BitVec 2
  inSt : BitVec 2
  fails : W16
  inStep : W32
  progFault : ProgFault
  /-- digests of the committed step, and its number -/
  digest : Digests
  digestStep : StepNo
  /-- digest accumulators of the step in progress -/
  acc : Digests
  kfile : List CoefFile
  scans : List WcScan
  /-- exponents e of the working copies in the active bank, by tensor (R221) -/
  wcExp : List (Nat × Int)
  /-- the copies held, one for each member that sent one -/
  heldCopies : List HeldCopy
  ownCopy : Option OwnCopy
  norms : List NormSlot
  areas : List WorkArea
  /-- chunk passes and block sections over in this step: pass 0 runs by chunk, with the chunk's table epoch; sections, completed or
  faulted, by tensor and block -/
  passed : List (Nat × BitVec 2)
  sections : List (Nat × Nat)
  /-- chunks whose update is ready to start, in the order they became ready (R206) -/
  ready : List Nat
  deriving DecidableEq, Repr

end Sys2Proof.Machine
end

