-- ==== Sys2Proof/Machine/State.lean ====
section
/-!
DEFINITION. The state of Jalos-2 as plain data, its reset values, and the reasons a step can stop. Every field is listed
in INVENTORY.md with the rule of spec/ that gives it.
-/

namespace Sys2Proof.Machine

/-- The header items of the running image that stay in force (spec/13 R324). -/
structure ImageHdr where
  systemId : W64
  topoDigest : W64
  schedDigest : W64
  deriving DecidableEq, Repr

/-- The three copies of the tables that can change while running (spec/01 R35). -/
structure LiveSet where
  prev : LiveTables
  cur : LiveTables
  staged : Option LiveTables
  deriving DecidableEq, Repr

/-- The whole machine. -/
structure State where
  /-- commands waiting, first in, first out -/
  pending : List Instr
  jg : JgBlock
  jq : JqBlock
  ji : JiBlock
  jx : JxBlock
  jz : JzBlock
  jk : JkBlock
  ju : JuBlock
  jl : JlBlock
  je : JeBlock
  jm : JmBlock
  jc : JcBlock
  js : JsBlock
  jp : JpBlock
  jt : JtBlock
  tiles : List TileSt
  nvm : NvmBlock
  /-- the 26 fuse words (R390) -/
  fuses : List W64
  imageHdr : ImageHdr
  /-- the unswappable tables of the running image, if one is verified -/
  image : Option RunImage
  live : LiveSet
  hostMem : Mem
  stateMem : Mem
  scratch : Mem
  staging : Mem
  /-- the Ethernet buffers as the Mover addresses them (R297) -/
  ethBuf : Mem
  pins : PinBlock
  /-- what the last command drove to the outside -/
  out : List Output
  /-- free values drawn so far: the model's own field (notes/assumptions/5.md) -/
  freeCnt : Nat
  deriving DecidableEq, Repr

/-- Why a step stops with a fault. -/
inductive Fault where
  /-- Raised by a command whose operand names a tile, lane, queue or port that Jalos does not have (spec/00 R5, spec/09
  R237): the command stands for no event of the hardware. Safe. -/
  | noSuchUnit
  deriving DecidableEq, Repr

/-- Why a command has no meaning. -/
inductive Refusal where
  /-- Raised by an arm of exec whose command has no meaning yet. Safe. -/
  | notModelled (mnemonic : String)
  deriving DecidableEq, Repr

/-! ### Reset values -/

def LiveTables.empty : LiveTables :=
  ⟨[], [], [], [], [], [], [], [], [], [], [], [], [], [], 0, 0, 0, none⟩

def Decl.empty : Decl :=
  { grade := 2, twin := false, twinB := false, jclkKHz := 1500000, stateBytes := 0, stateDemand := 0, tempLo := 0, tempHi := 0,
    voltLo := 0, voltHi := 0, torus := ⟨1, 1, 1⟩, member := 0, coord := ⟨0, 0, 0⟩, members := [], peers := [],
    commitDomain := 0, verdictRoot := 0, bank1Off := 0, hbank1Off := 0, biasOrigin := 0, lean := false, seed := 0,
    startStep := 0, boundaryPeriod := 1024, replicaDomain := none, replicaRoot := 0, buddy := 0, buddyExt := false,
    satBase := 0, normBase := 0, scaleBase := 0, rootBase := 0, factBase := 0, sampleBase := 0, workAreas := [], serviceLo := 0, serviceHi := 0,
    offload := none, spare := [], normDst := [], normFlag := [], stagePools := [] }

def RunImage.empty : RunImage :=
  { decl := Decl.empty, live := LiveTables.empty, catalogue := [], chunks := [], domains := [], gathers := [],
    xfers := [], regionC := [], stateDir := [], regions := [], jobs := [], rdma := ⟨[], 0⟩,
    regs := ⟨none, none, none, none, none, none, none⟩ }

def EvBlockReset : RingBlock :=
  { head := 0, tail := 0, lost := 0, ring := [], evq := [], irqErr := false, irqFatal := false, enErr := true,
    enFatal := true }

def CmdBlock.reset : CmdBlock :=
  { args := List.replicate 8 0, latched := List.replicate 8 0, busy := false, result := 0, code := 0, done := 0,
    outcome := none, port := false, bytes := 0 }

def LockBlock.reset : LockBlock :=
  { tag := 0, held := false, port := false, owner := 0, lease := 0x03E8, remain := 0 }

def BootBlock.reset : BootBlock :=
  { state := 0, bank := false, nvmMode := false, cr := false, cause := 0, tvMs := 0xFFFF, twinSel := false, grade := 2,
    jporLow := true, jwrstLow := false, inrush := false, fuseMiss := [], verified := false }

def JsBlock.reset : JsBlock :=
  { boot := BootBlock.reset, cmd := CmdBlock.reset, lock := LockBlock.reset, ring := EvBlockReset, cmdEvent := false,
    rejCount := 0, rejPort := false, rejCode := 0, rejOffset := 0, smPartial := 0, smExtra := 0, smFrame := 0,
    smDone := 0, smStatus := 0, temp := 0, volt := 0, excursion := false, restarting := false, mw := ⟨0, 0⟩,
    sm := ⟨0, 0⟩, latches := [] }

/-- The factory map of a grade with n physical tiles: logical tile i on physical tile i, the rest SPARE
(notes/assumptions/2.md); tiles the grade does not have show as FENCED. -/
def TileMapBlock.factory (n : Nat) : TileMapBlock :=
  { phys := (List.range 48).map fun i => if i < 40 then 0 else if i < n then 1 else 2,
    map := (List.range 40).map fun i => BitVec.ofNat 6 i, lastPhys := 0, lastLog := 0, tested := 0, remap := [] }

def TwinBlock.reset : TwinBlock :=
  { present := false, self := false, driving := false, peerOk := false, diverge := 0, failovers := 0, sent := [],
    heard := [], diverged := none, moveIn := none, test := none, fenced := none, swap := false, swapDue := false }

def JgBlock.reset : JgBlock :=
  { nf := ⟨0, 0⟩, epoch := ⟨0, 3, false, false, 0⟩, member := ⟨0, false, 0, 0, 0⟩, tiles := TileMapBlock.factory 48,
    twin := TwinBlock.reset }

def VerdictBlock.reset : VerdictBlock :=
  { incomplete := false, fault := false, veto := false, sendIssued := false, formed := false, nf := false, pending := false, gateStep := 0,
    sent := false, sentAt := 0, orSent := 0, andSent := 0, enteredAt := 0, decision := none }

def JqBlock.reset : JqBlock :=
  { slot := 0, step := 0, phases := 0, gen := false, variantReq := false, slipping := false, running := false,
    quiesced := true, slips := [0, 0, 0], slipLimit := 0x0100, vTimeout := 0x000800, db := [], acts := [], nextAct := 0,
    held := [], carried := [], run := none, slipCount := 0, verdict := VerdictBlock.reset, quiesceReq := false,
    draining := false, resuming := false, serveSlots := 0, boundarySent := false, boundaryResult := none,
    forceSlip := false, slipEnd := none, remapSlot := false, gatesWaiting := 0, restart := 0, begun := false, lap1Done := false }

def JiBlock.reset : JiBlock :=
  { tqEn := 0b1111, dupFault := false, discTag := 0, discKind := 0, discDup := 0, discPartial := 0, nfFirst := 0,
    nfValid := false, nfCount := 0, maskLost := 0, resZeroed := 0, satTotal := 0, lastDesc := 0,
    tqs := List.replicate 4 ⟨true, .idle⟩, grads := [], kept := [], satSeen := [], maskMiss := [], dens := List.replicate 4 [], sketches := [], lost := [],
    built := [], maskBad := [], stats := [] }

def JxBlock.reset : JxBlock :=
  { discKey := 0, discSeq := 0, discCrc := 0, discForm := 0, bypOwn := 0, bypSeen := 0, ownLast := 0, ownNow := 0,
    upLast := List.replicate 6 0, upNow := List.replicate 6 0, slowMember := 0, slowWait := 0, slowNext := none,
    wt := ⟨0x28, 0x14, 0x04⟩, wtCk := ⟨0x18, 0x08, 0x20⟩, copyStep := false, lastHdr := 0, seqTx := [], seqRx := [],
    rx := [], early := [], expired := [], carries := [], hold := [], consumed := [], added := [], withheld := [],
    late := [], gatherCnt := [], gathers := [], xferCnt := [], xfers := [], stagingTested := false, stage := [] }

def JzBlock.reset : JzBlock :=
  { discCrc := 0, discForm := 0, capHeld := 0, capPeak := 0, lastHdr := 0, lastTrl := 0, runs := [], reds := [],
    held := [], early := [], used := List.replicate 8 0, capQueue := [], capSeen := [], winAt := 0 }

def AccSet.empty : AccSet := ⟨false, [], none⟩

def ArrayUnit.empty : ArrayUnit := ⟨AccSet.empty, AccSet.empty, 0, []⟩

def JkBlock.reset : JkBlock :=
  { installLag := 4, hold := false, tol := 0x3A800000, stale := 0, late := 0, clamp := 0, missing := 0, nfTiles := 0,
    tensor := 0, side := false, iter := 0, block := 0, resid := 0,
    arrays := [ArrayUnit.empty, ArrayUnit.empty], merges := [], queue := [], current := none, finished := [], pool := [] }

def ProgFault.reset : ProgFault := ⟨0, false, 0, 0, 0, 0⟩

def Replica.reset : Replica := ⟨false, false, false, true, 0, none, ⟨0, 0, 0⟩, none, none⟩

def JuBlock.reset : JuBlock :=
  { gateEn := false, clip := 0x3F800000, rep := Replica.reset, period := 0x0020, digestPeriod := 0x10, updChunks := 0,
    updBlocks := 0, seed := 0, outSt := 0, inSt := 0, fails := 0, inStep := 0, progFault := ProgFault.reset,
    digest := ⟨0, 0, 0⟩, digestStep := 0, acc := ⟨0, 0, 0⟩, kfile := [], scans := [], wcExp := [], heldCopies := [], ownCopy := none,
    norms := [], areas := [], passed := [], sections := [], ready := [] }

def Lane.reset : Lane := ⟨false, false, false, 0, 0, 0, 0, 0, false⟩

def PortRx.reset : PortRx :=
  { expect := 0, any := false, retryOut := false, retryAt := none, retryCount := 0, resync := false, asm := List.replicate 4 ⟨false, [], 0⟩, items := [],
    cut := [], cutter := ⟨false, [], false, false⟩, granted := List.replicate 4 0, ackDue := false, scr := BitVec.allOnes 58,
    decoded := [], decodedBad := false }

def PortTx.reset : PortTx :=
  { next := 0, replay := [], queues := List.replicate 4 [], recv := List.replicate 4 0, used := List.replicate 4 0,
    reqSeq := 0, reqCount := 0, deficit := List.replicate 4 0, turn := 1, wire := [], rest := List.replicate 8 [] }

def PeerPort.reset : PeerPort :=
  { state := 0, half := false, cause := 0, fecCorr := 0, fecUncorr := 0, cntSize := 0, cntHcrc := 0, cntFcrc := 0,
    cntSeq := 0, retrySent := 0, replayed := 0, partner := 0, partnerPort := 0, partnerValid := false, noAdmit := 0,
    lastFrame := 0, lanes := List.replicate 8 Lane.reset, rx := PortRx.reset, tx := PortTx.reset, realign := false, widen := false,
    attempt := 0, failed := 0, lastFail := 0, trainSeen := false }

def JlBlock.reset : JlBlock := ⟨8, 0x40, 0x03E8, List.replicate 8 PeerPort.reset⟩

def EthPort.reset : EthPort :=
  { state := 0, locked := false, paused := 0, xoffSent := 0, cntSize := 0, cntFcs := 0, cntUnsup := 0, cntEarly := 0,
    xoff := 0x300, fill := List.replicate 8 0, txHeld := [] }

def JeBlock.reset : JeBlock :=
  { wInit := 0x10, cnpGap := 0x04, pfcHoldMs := 0x64, pi := 0, loaded := false, ports := List.replicate 2 EthPort.reset,
    queues := [], regions := [], parked := [], errQueue := 0, errCause := 0, errValid := false, errCount := 0, exports := [] }

def Chan.reset : Chan :=
  { pause := false, ctl := 0, pace := 0, src := 0, dst := 0, cnt := 0, faddr := 0, busy := false, paused := false,
    halt := false, dir := false, status := 0, err := 0, paced := false, halfSeen := false, overrun := false,
    completions := 0, complete := false, stopping := false, srcAt := 0, dstAt := 0, cntAt := 0, sgDone := 0, total := 0, offIdx := 0, offRun := false, fetch := 0, reads := 0 }

def JmBlock.reset : JmBlock :=
  { chans := List.replicate 64 Chan.reset, done := 0, irqEn := 0, qfill := List.replicate 8 0,
    ownFill := List.replicate 8 0, spLateRef := List.replicate 16 0, spLate := List.replicate 16 0,
    spErr := List.replicate 16 0, hmErr := List.replicate 8 0, hmHist := [], spHist := [], retired := [], lateRef := [],
    asked := [], waiting := [] }

def JcBlock.reset : JcBlock :=
  { verify := false, compressed := 0, raw := 0, verifyFail := 0, badCause := 0, badValid := false, badXe := 0,
    badRegion := 0, badCount := 0, badBlock := 0, reqs := [], written := [], xeWords := [], xePrev := [], xeCur := [],
    xeLoaded := false, xeWait := [], xeHeld := [], xtDue := [] }

def JpBlock.reset : JpBlock :=
  { budget := 0x08, inrushDone := false, levels := List.replicate 15 0, targets := List.replicate 15 0,
    setAt := List.replicate 15 0, ballast := false, wakes := 0, heldSlots := 0, ballastSlots := 0, holding := [] }

def JtBlock.reset : JtBlock := ⟨0, List.replicate 40 ⟨false, 0, 0, 0⟩⟩

def TileRegs.zero : TileRegs :=
  ⟨List.replicate 16 (List.replicate 64 0), List.replicate 8 (List.replicate 64 CState.zero)⟩

def TileSt.reset : TileSt := ⟨TileRegs.zero, none, none, [], []⟩

def PinBlock.reset : PinBlock := ⟨false, 0, 0⟩

/-- The machine with JPOR_N low: every register at its reset value, every output as spec/16 R389 holds it. -/
def State.reset : State :=
  { pending := [], jg := JgBlock.reset, jq := JqBlock.reset, ji := JiBlock.reset, jx := JxBlock.reset,
    jz := JzBlock.reset, jk := JkBlock.reset, ju := JuBlock.reset, jl := JlBlock.reset, je := JeBlock.reset,
    jm := JmBlock.reset, jc := JcBlock.reset, js := JsBlock.reset, jp := JpBlock.reset, jt := JtBlock.reset,
    tiles := List.replicate 40 TileSt.reset, nvm := ⟨[], [], none, none⟩, fuses := List.replicate 26 0,
    imageHdr := ⟨0, 0, 0⟩, image := none, live := ⟨LiveTables.empty, LiveTables.empty, none⟩, hostMem := [],
    stateMem := [], scratch := [], staging := [], ethBuf := [], pins := PinBlock.reset, out := [], freeCnt := 0 }

end Sys2Proof.Machine
end

