-- ==== Sys2Proof/Machine/Ops.lean ====
section
/-!
DEFINITION. The named operations over memory, tables and registers, and the recording of events in the ring
(spec/13_image_boot_and_management.md R347–R349, spec/15_register_reference.md R386).
-/

namespace Sys2Proof.Machine

/-! ### Bits and lists -/

/-- w bits of a number from bit lo. -/
def bitsAt (x lo w : Nat) : Nat := x / 2 ^ lo % 2 ^ w

def bitAt (x i : Nat) : Bool := decide (x / 2 ^ i % 2 = 1)

def b2n (b : Bool) : Nat := if b then 1 else 0

/-- The list with its entry n replaced by f of it. -/
def modifyNth {α : Type} (f : α → α) : Nat → List α → List α
  | _, [] => []
  | 0, a :: l => f a :: l
  | n + 1, a :: l => a :: modifyNth f n l

/-- Insert or replace in a list sorted by key. -/
def tabSet {α : Type} (k : Nat) (v : α) : List (Nat × α) → List (Nat × α)
  | [] => [(k, v)]
  | (k', v') :: rest =>
    if k < k' then (k, v) :: (k', v') :: rest
    else if k = k' then (k, v) :: rest
    else (k', v') :: tabSet k v rest

def tabGet {α : Type} (k : Nat) (l : List (Nat × α)) : Option α := (l.find? fun p => p.1 == k).map Prod.snd

/-- Insert by a strict order, keeping equals in arrival order. -/
def insertBy {α : Type} (lt : α → α → Bool) (x : α) : List α → List α
  | [] => [x]
  | y :: rest => if lt x y then x :: y :: rest else y :: insertBy lt x rest

def sortBy {α : Type} (lt : α → α → Bool) (l : List α) : List α := l.foldl (fun acc x => insertBy lt x acc) []

/-- A counter that sticks at all ones. -/
def stick {w : Nat} (x : BitVec w) (n : Nat) : BitVec w :=
  if x.toNat + n ≥ 2 ^ w then BitVec.allOnes w else BitVec.ofNat w (x.toNat + n)

/-! ### Memory: address and byte pairs, addresses rising, zero bytes left out -/

def memGet : Mem → Nat → Byte
  | [], _ => 0
  | (k, v) :: rest, a => if a < k then 0 else if a = k then v else memGet rest a

def memSet : Mem → Nat → Byte → Mem
  | [], a, b => if b = 0 then [] else [(a, b)]
  | (k, v) :: rest, a, b =>
    if a < k then (if b = 0 then (k, v) :: rest else (a, b) :: (k, v) :: rest)
    else if a = k then (if b = 0 then rest else (a, b) :: rest)
    else (k, v) :: memSet rest a b

/-- The n bytes from address a. -/
def memRead (m : Mem) (a : Nat) : Nat → List Byte
  | 0 => []
  | n + 1 => memGet m a :: memRead m (a + 1) n

def memWrite (m : Mem) (a : Nat) : List Byte → Mem
  | [] => m
  | b :: rest => memWrite (memSet m a b) (a + 1) rest

/-- Zero the n bytes from address a. -/
def memClear (m : Mem) (a n : Nat) : Mem := m.filter fun p => p.1 < a || a + n ≤ p.1

/-- Every address of a memory lies above a. -/
def memAbove (a : Nat) : Mem → Bool
  | [] => true
  | p :: _ => decide (a < p.1)

/-- The canonical form: addresses strictly rising and no zero byte listed. -/
def Memory.wf : Mem → Bool
  | [] => true
  | p :: rest => p.2 != 0 && memAbove p.1 rest && Memory.wf rest

def memNat (m : Mem) (a n : Nat) : Nat := natLE (memRead m a n)

/-! ### Outputs, image, banks -/

def State.emit (s : State) (o : Output) : State := { s with out := s.out ++ [o] }

/-- The running image, or the empty one. -/
def State.img (s : State) : RunImage := s.image.getD RunImage.empty

def State.decl (s : State) : Decl := s.img.decl

/-- The active bank, bit 0 of the step counter (R211). -/
def State.bank (s : State) : Nat := s.jq.step.toNat % 2

/-- The state-tier address of a banked item (R211). -/
def State.stateAddr (s : State) (base bank : Nat) : Nat := base + bank * s.decl.bank1Off

/-- The host address of a banked item (R211). -/
def State.hostAddr (s : State) (base bank : Nat) : Nat := base + bank * s.decl.hbank1Off

/-- The copy of the live tables that an epoch names: current, or previous (R35). -/
def State.tables (s : State) (epoch : BitVec 2) : LiveTables :=
  if epoch = s.jg.epoch.previous then s.live.prev else s.live.cur

/-- The copy of the live tables that an item's epoch names (R35): current, previous, or, for an item held under R37, the staged copy
that becomes current with this member's next pulse. -/
def State.copyOf (s : State) (epoch : BitVec 2) : LiveTables :=
  if epoch = s.jg.epoch.current + 1 then s.live.staged.getD s.live.cur else s.tables epoch

def State.cat (s : State) (tensor : Nat) : Option CatEntry := s.img.catalogue[tensor]?

def State.chunk (s : State) (i : Nat) : Option ChunkEntry := s.img.chunks[i]?

def State.dom (s : State) (d : Nat) : Option DomEntry :=
  s.img.domains.find? fun e => e.num == d && e.axes != 0

/-- Elements of a tensor. -/
def CatEntry.elems (c : CatEntry) : Nat := c.rows * c.cols

def CatEntry.groups (c : CatEntry) : Nat := c.elems / 32

/-- The tensor of a chunk-map entry (R106). -/
def State.chunkTensor (s : State) (i : Nat) : Nat :=
  (s.img.catalogue.findIdx? fun c => decide (c.chunkMap ≤ i) && decide (i < c.chunkMap + c.chunkCount)).getD 0

/-- The far port of a peer port: P0 to P5 face P1, P0, P3, P2, P5, P4 of their neighbours; the image names those of P6 and P7
(R236). -/
def PeerDecl.far (d : PeerDecl) : Nat :=
  if d.port < 6 then (if d.port % 2 = 0 then d.port + 1 else d.port - 1) else d.farPort

/-! ### Updates of one block -/

def State.setPort (s : State) (p : Nat) (f : PeerPort → PeerPort) : State :=
  { s with jl := { s.jl with ports := modifyNth f p s.jl.ports } }

def State.port (s : State) (p : Nat) : PeerPort := s.jl.ports.getD p PeerPort.reset

def State.setTile (s : State) (t : Nat) (f : TileSt → TileSt) : State :=
  { s with tiles := modifyNth f t s.tiles }

def State.tile (s : State) (t : Nat) : TileSt := s.tiles.getD t TileSt.reset

def State.setWin (s : State) (t : Nat) (f : TileWin → TileWin) : State :=
  { s with jt := { s.jt with wins := modifyNth f t s.jt.wins } }

def State.setChan (s : State) (n : Nat) (f : Chan → Chan) : State :=
  { s with jm := { s.jm with chans := modifyNth f n s.jm.chans } }

def State.chan (s : State) (n : Nat) : Chan := s.jm.chans.getD n Chan.reset

def State.setEth (s : State) (n : Nat) (f : EthPort → EthPort) : State :=
  { s with je := { s.je with ports := modifyNth f n s.je.ports } }

def State.eth (s : State) (n : Nat) : EthPort := s.je.ports.getD n EthPort.reset

def State.queue (s : State) (q : Nat) : Option Queue := s.je.queues.find? fun x => x.num == q

/-- Replace or add a queue, the list kept in ascending number. -/
def State.setQueue (s : State) (q : Queue) : State :=
  let rest := s.je.queues.filter fun x => x.num != q.num
  { s with je := { s.je with queues := insertBy (fun a b => decide (a.num < b.num)) q rest } }

/-! ### Events (R347, R348, R386) -/

def i1 (n : Nat) : EvItem := ⟨1, n⟩
def i2 (n : Nat) : EvItem := ⟨2, n⟩
def i4 (n : Nat) : EvItem := ⟨4, n⟩
def i8 (n : Nat) : EvItem := ⟨8, n⟩
def i16 (n : Nat) : EvItem := ⟨16, n⟩

/-- Record an event: it enters the ring when the command ends (R347). -/
def State.event (s : State) (source code sev : Nat) (items : List EvItem) : State :=
  { s with js := { s.js with ring := { s.js.ring with evq := s.js.ring.evq ++ [⟨source, code, sev, items⟩] } } }

/-- The ring's order within a cycle: ascending source, then ascending code. -/
def evBefore (a b : EvRec) : Bool :=
  decide (a.source < b.source) || (decide (a.source = b.source) && decide (a.code < b.code))

/-- Write one entry at HEAD; overwrite the oldest when the ring is full (R347). -/
def ringPut (slot : SlotNo) (step : StepNo) (r : RingBlock) (e : EvRec) : RingBlock :=
  let entry : EvEntry := ⟨BitVec.ofNat 16 e.code, BitVec.ofNat 2 e.sev, slot, step, e.items⟩
  let head := r.head + 1
  let full := head == r.tail
  { r with ring := tabSet r.head.toNat entry r.ring, head := head, tail := if full then r.tail + 1 else r.tail,
           lost := if full then stick r.lost 1 else r.lost, irqErr := r.irqErr || e.sev == 1,
           irqFatal := r.irqFatal || e.sev == 2 }

/-- End of a command: its events enter the ring in order. -/
def State.finish (s : State) : State :=
  let r := s.js.ring
  let evs := sortBy evBefore r.evq
  { s with js := { s.js with ring := evs.foldl (ringPut s.jq.slot s.jq.step) { r with evq := [] } } }

/-- Start of a command: nothing driven yet. -/
def State.begin_ (s : State) : State := { s with out := [] }

/-- The bytes 16–63 of an entry: each item aligned to its width, 8 for a 16-byte item (R347). -/
def packItems (acc : List Byte) (it : EvItem) : List Byte :=
  let al := min it.w 8
  let pad := (al - acc.length % al) % al
  acc ++ List.replicate pad 0 ++ bytesLE it.w it.v

/-- The 64 bytes of an event-ring entry (R347). -/
def EvEntry.bytes (e : EvEntry) : List Byte :=
  let body := (e.items.foldl packItems []).take 48
  bytesLE 2 e.code.toNat ++ [BitVec.ofNat 8 e.sev.toNat, 0] ++ bytesLE 6 e.slot.toNat ++ bytesLE 5 e.step.toNat ++ [0]
    ++ body ++ List.replicate (48 - body.length) 0

/-! ### Memory ports (R291–R293) -/

/-- The port of an address: the 4 KiB granules go round the ports (R293). -/
def portOf (sp : Bool) (a : Nat) : MemPort :=
  if sp then .sp (BitVec.ofNat 4 (a / 4096)) else .hm (BitVec.ofNat 3 (a / 4096))

def isSp : MemPort → Bool
  | .hm _ => false
  | .sp _ => true

/-- Tags of a port, which are also the requests it may have outstanding (R291, R292). -/
def portTags : MemPort → Nat
  | .hm _ => 256
  | .sp _ => 512

/-- A run of n bytes from a, cut at the multiples of g; the fuel bounds the pieces. -/
def spans (g : Nat) : Nat → Nat → Nat → List (Nat × Nat)
  | 0, _, _ => []
  | k + 1, a, n =>
    if n = 0 then []
    else
      let m := min n (g - a % g)
      (a, m) :: spans g k (a + m) (n - m)

/-- Beats of a request: the 64-byte beats that hold its bytes (R291). -/
def PortReq.beats (r : PortReq) : Nat := (r.addr.toNat % 64 + r.len + 63) / 64

/-- Write-data beat k of a request: the data, and the strobes of the bytes it writes (R291). -/
def PortReq.beat (r : PortReq) (k : Nat) : BitVec 512 × W64 :=
  let off := r.addr.toNat % 64
  let lead := if k = 0 then off else 0
  let b := (r.data.drop (64 * k - off)).take (64 - lead)
  (BitVec.ofNat 512 (natLE b * 2 ^ (8 * lead)), BitVec.ofNat 64 ((2 ^ b.length - 1) * 2 ^ lead))

/-- The lowest tag from t on that is neither outstanding nor retired (R292, R295; notes/assumptions/56.md). -/
def State.freeTag (s : State) (p : MemPort) : Nat → Nat → Option (BitVec 9)
  | 0, _ => none
  | k + 1, t =>
    let tag := BitVec.ofNat 9 t
    if s.jm.asked.any (fun a => a.req.port == p && a.tag == tag) || s.jm.retired.any (fun r => r == (p, tag)) then
      s.freeTag p k (t + 1)
    else some tag

/-- The request goes out under a tag, and a write's beats follow it without a gap (R291, R292). -/
def State.driveReq (s : State) (r : PortReq) (tag : BitVec 9) : State :=
  let s := { s with jm := { s.jm with asked := s.jm.asked ++ [Asked.mk tag r] } }
  let n := r.beats
  let s := s.emit (.memReq r.port r.write (BitVec.ofNat 48 (r.addr.toNat / 64 * 64)) (BitVec.ofNat 6 (n - 1)) tag)
  if r.write then
    (List.range n).foldl (fun s k => s.emit (.memData r.port (r.beat k).1 (r.beat k).2 (k + 1 == n))) s
  else s

/-- A request is made: it goes out at once, or waits behind the others of its port for a free tag (R292). -/
def State.request (s : State) (r : PortReq) : State :=
  let hold := { s with jm := { s.jm with waiting := s.jm.waiting ++ [r] } }
  if s.jm.waiting.any fun q => q.port == r.port then hold
  else
    match s.freeTag r.port (portTags r.port) 0 with
    | some tag => s.driveReq r tag
    | none => hold

/-- Drop the first request that waits for a port. -/
def dropQueued (p : MemPort) : List PortReq → List PortReq
  | [] => []
  | q :: rest => if q.port = p then rest else q :: dropQueued p rest

/-- The final response of a tag frees it, and the oldest request that waits for the port takes a free tag (R292). -/
def State.freePort (s : State) (p : MemPort) (tag : BitVec 9) : State :=
  let s := { s with jm := { s.jm with asked := s.jm.asked.filter fun a => !(a.req.port == p && a.tag == tag) } }
  match s.jm.waiting.find? fun q => q.port == p with
  | none => s
  | some q =>
    match s.freeTag p (portTags p) 0 with
    | none => s
    | some t => ({ s with jm := { s.jm with waiting := dropQueued p s.jm.waiting } }).driveReq q t

/-- The pieces of an access: within 4 KiB at a host port; at a state port lines of 512 bytes (R292, R293). -/
def portPieces (sp : Bool) (a n : Nat) : List (Nat × Nat) :=
  let g := if sp then 512 else 4096
  spans g (n / g + 2) a n

/-- A unit reads n bytes from a: every state-port read takes its whole aligned line (R293). -/
def State.portRead (s : State) (unit chan : Nat) (sp : Bool) (a n : Nat) : State :=
  (portPieces sp a n).foldl (fun s p =>
    let base := if sp then p.1 / 512 * 512 else p.1
    s.request { port := portOf sp p.1, unit := BitVec.ofNat 8 unit, chan := BitVec.ofNat 6 chan, write := false,
                addr := BitVec.ofNat 48 base, len := if sp then 512 else p.2, data := [] }) s

/-- The write requests of a run of bytes. -/
def State.portWrite (s : State) (unit chan : Nat) (sp : Bool) (a : Nat) (b : List Byte) : State :=
  (portPieces sp a b.length).foldl (fun s p =>
    s.request { port := portOf sp p.1, unit := BitVec.ofNat 8 unit, chan := BitVec.ofNat 6 chan, write := true,
                addr := BitVec.ofNat 48 p.1, len := p.2, data := (b.drop (p.1 - a)).take p.2 }) s

/-- A unit writes host memory. -/
def State.hostWrite (s : State) (unit a : Nat) (b : List Byte) : State :=
  { s.portWrite unit 0 false a b with hostMem := memWrite s.hostMem a b }

/-- A unit writes the state tier. -/
def State.stateWrite (s : State) (unit a : Nat) (b : List Byte) : State :=
  { s.portWrite unit 0 true a b with stateMem := memWrite s.stateMem a b }

/-! ### Staging (R131) -/

/-- The code by which the image assigns buffers to a pool. -/
def poolCode : Pool → Nat
  | .rx => 0
  | .tx => 1
  | .hold => 2
  | .fwd => 3

/-- The lowest free buffer of a pool, of the 127. -/
def State.stageFree (s : State) (pool : Pool) : Option Nat :=
  ((s.decl.stagePools.take 127).zipIdx.find? fun p => p.1 == poolCode pool && !s.jx.stage.any fun b => b.num == p.2).map Prod.snd

/-- A chunk takes a buffer of 65,600 bytes of its pool; Sniex refuses a schedule that finds none (notes/assumptions/59.md). -/
def State.stagePut (s : State) (pool : Pool) (port vc : Nat) (hdr : BitVec 512) (bytes : List Byte) : State :=
  match s.stageFree pool with
  | none => s
  | some n =>
    { s with jx := { s.jx with stage := s.jx.stage ++ [⟨n, pool, port, vc, hdr⟩] }, staging := memWrite s.staging (65600 * n) bytes }

/-- Drop the first directory entry that f picks. -/
def dropStage (f : StageBuf → Bool) : List StageBuf → List StageBuf
  | [] => []
  | b :: rest => if f b then rest else b :: dropStage f rest

/-- The oldest buffer that f picks is free again. -/
def State.stageTake (s : State) (f : StageBuf → Bool) : State :=
  { s with jx := { s.jx with stage := dropStage f s.jx.stage } }

/-- Is the buffer one of a chunk that waits to leave by a port? -/
def StageBuf.leaves (b : StageBuf) (port : Nat) : Bool := (b.pool == .tx || b.pool == .fwd) && b.port == port

/-- The frames waiting at a port are gone, and their TX and FWD buffers free. -/
def State.stageClear (s : State) (port : Nat) : State :=
  { s with jx := { s.jx with stage := s.jx.stage.filter fun b => !b.leaves port } }

/-! ### Free values -/

/-- Draw a fresh index for a free value (notes/assumptions/5.md). -/
def State.draw (s : State) : Nat × State := (s.freeCnt, { s with freeCnt := s.freeCnt + 1 })

/-! ### Command endings -/

/-- Every meaning: the command's effect between the start and the end of a command. The queue is not a command's to change. -/
def run (f : State → State) (s : State) : Host.Outcome State Fault Refusal :=
  .next { (f s.begin_).finish with pending := s.pending }

/-- A meaning whose operand names a unit: it stops when the block has no such unit. -/
def runUnit (ok : Bool) (f : State → State) (s : State) : Host.Outcome State Fault Refusal :=
  if ok then run f s else .fault .noSuchUnit

end Sys2Proof.Machine
end

