-- ==== Sys2Proof/Machine/Layouts.lean ====
section
/-!
DEFINITION. The bytes of a run image as tables: the manifest entries and their sections (R325, R326), and the bit layouts that
the chapters give: schedule (R16), catalogue (R79, R166, R190), domain table (R102), chunk map (R106), gather table (R124),
reduction table (R141), program directory and code (R195, R197), coefficient sets and curves (R216, R217), state directory
(R210), codec region table (R306), prefix-code tables (R315) and Mover parameter table (R296). The tables without a bit
layout come with the file (notes/assumptions/6.md).
-/

namespace Sys2Proof.Machine

/-! ### The manifest -/

/-- n bytes of a byte list from offset i as a little-endian number. -/
def leAt (l : List Byte) (i n : Nat) : Nat := natLE ((l.drop i).take n)

def zeroAt (l : List Byte) (i n : Nat) : Bool := ((l.drop i).take n).all fun b => b == 0

/-- The fields of a manifest entry. -/
structure ManEntry where
  typ : Nat
  flags : Byte
  index : Nat
  offset : Nat
  length : Nat
  zeros : Bool
  hash : List Byte
  bytes : List Byte
  deriving DecidableEq, Repr

def ManEntry.boot (m : ManEntry) : Bool := m.flags.getLsbD 0
def ManEntry.live (m : ManEntry) : Bool := m.flags.getLsbD 1
def ManEntry.defer (m : ManEntry) : Bool := m.flags.getLsbD 2

/-- The manifest entries of a file, each with its section's bytes. -/
def SxiFile.entries (f : SxiFile) : List ManEntry :=
  (groupsOf 64 f.manifest).mapIdx fun n e =>
    { typ := leAt e 0 2, flags := BitVec.ofNat 8 (leAt e 2 1), index := leAt e 3 1, offset := leAt e 4 4,
      length := leAt e 8 4, zeros := zeroAt e 12 4, hash := (e.drop 16).take 48, bytes := f.sections.getD n [] }

/-- The bytes of the section of a type and an index. -/
def SxiFile.section_ (f : SxiFile) (typ index : Nat) : List Byte :=
  ((f.entries.find? fun m => m.typ == typ && m.index == index).map ManEntry.bytes).getD []

/-- The n-byte entries of a table as numbers, with their places. -/
def tableOf (n : Nat) (l : List Byte) : List (Nat × Nat) := ((groupsOf n l).map natLE).mapIdx fun k w => (k, w)

/-- A signed field of w bits. -/
def intAt (x lo w : Nat) : Int := (BitVec.ofNat w (bitsAt x lo w)).toInt

/-- Is a signed shift of −64 to +63 out of its range? -/
def shiftBad (x : Int) : Bool := decide (x < -64) || decide (63 < x)

/-! ### The entries -/

/-- A schedule entry (R16). -/
def schedOfBits (w : Nat) : SchedEntry :=
  { slotOff := bitsAt w 0 24, phase := bitsAt w 24 4, unit := bitsAt w 28 8, op := bitsAt w 36 12, gate := bitsAt w 48 4,
    gateArg := bitsAt w 52 12, deadline := bitsAt w 64 16, act := bitsAt w 80 2, dlScale := bitsAt w 82 2,
    operand := bitsAt w 96 32, reservedBad := bitsAt w 84 12 != 0 }

/-- A catalogue entry: intake fields (R79), curvature fields (R166) and update fields (R190). -/
def catOfBits (w : Nat) : CatEntry :=
  { rows := bitsAt w 0 32, cols := bitsAt w 32 32, chLen := bitsAt w 64 32, cls := bitsAt w 96 2, wire := bitsAt w 98 2,
    resFmt := bitsAt w 100 2, resShift := intAt w 104 8, dcurve := bitsAt w 112 8, escB := bitsAt w 120 4,
    clipOct := bitsAt w 124 4, sideCap := bitsAt w 128 10, srQ := bitAt w 138, srRes := bitAt w 139,
    rowGroups := bitsAt w 144 16 + 1, satThresh := BitVec.ofNat 32 (bitsAt w 160 32), resBase := bitsAt w 192 48,
    padCols := bitsAt w 240 5, maskBase := bitsAt w 256 48, chunkMap := bitsAt w 320 32, chunkCount := bitsAt w 352 16,
    blockQ := bitsAt w 384 5, p4 := bitAt w 389, factMode := bitsAt w 390 2, subs := bitsAt w 392 3,
    sampN := bitsAt w 400 16 + 1, dampCurve := bitsAt w 416 8, fcoef := bitsAt w 424 8, refreshLog2 := bitsAt w 432 4,
    phase0 := bitsAt w 440 16, aShift := intAt w 456 8, gShift := intAt w 464 8, prog := bitsAt w 480 10,
    kset := bitsAt w 490 8, srM := bitAt w 498, srW := bitAt w 499,
    reservedBad := bitsAt w 102 2 != 0 || bitsAt w 140 4 != 0 || bitsAt w 245 11 != 0 || bitsAt w 304 16 != 0 ||
      bitsAt w 368 16 != 0 || bitsAt w 395 5 != 0 || bitsAt w 436 4 != 0 || bitsAt w 472 8 != 0 || bitsAt w 500 12 != 0 ||
      shiftBad (intAt w 104 8) || shiftBad (intAt w 456 8) || shiftBad (intAt w 464 8) }

/-- A domain-table entry (R102). -/
def domOfBits (num w : Nat) : DomEntry :=
  { num := num, key := BitVec.ofNat 32 (bitsAt w 0 32), axes := BitVec.ofNat 3 (bitsAt w 32 3), bidir := bitAt w 35,
    lateDrop := bitAt w 36, xOrg := bitsAt w 48 6, xLen := bitsAt w 54 6 + 1, yOrg := bitsAt w 64 6,
    yLen := bitsAt w 70 6 + 1, zOrg := bitsAt w 80 6, zLen := bitsAt w 86 6 + 1, ownDl := bitsAt w 96 16,
    upDl := bitsAt w 112 16,
    reservedBad := bitsAt w 37 11 != 0 || bitsAt w 60 4 != 0 || bitsAt w 76 4 != 0 || bitsAt w 92 4 != 0 || bitsAt w 128 128 != 0 }

/-- A chunk-map entry (R106); its place in the layer's buffer is no field of it (notes/assumptions/6.md). -/
def chunkOfBits (offset w : Nat) : ChunkEntry :=
  { group0 := bitsAt w 0 32, rangeGroups := bitsAt w 32 17, domain := bitsAt w 64 10, owner := bitsAt w 80 16,
    tile := bitsAt w 96 6, layer := bitsAt w 104 16, offset := offset,
    reservedBad := bitsAt w 49 15 != 0 || bitsAt w 74 6 != 0 || bitsAt w 102 2 != 0 || bitsAt w 120 8 != 0 }

/-- A gather-table entry (R124). -/
def gatherOfBits (w : Nat) : GatherEntry :=
  { doorbell := bitsAt w 0 12, nbuf := bitsAt w 12 4 + 1, carryMask := bitAt w 16, bufBase := bitsAt w 32 48,
    bufSize := bitsAt w 96 32, flagBase := bitsAt w 128 48,
    reservedBad := bitsAt w 17 15 != 0 || bitsAt w 80 16 != 0 || bitsAt w 176 80 != 0 }

/-- A reduction-table entry (R141). -/
def redOfBits (rid w : Nat) : RedEntry :=
  { rid := rid, op := bitsAt w 0 4, typ := bitsAt w 4 2, feedsStep := bitAt w 6, sprint := bitAt w 7, wireLen := bitsAt w 8 9,
    sprintN := bitsAt w 17 15 + 1, srcBf16 := bitAt w 32, dstBf16 := bitAt w 33, domain := bitsAt w 48 10,
    root := bitsAt w 64 16, src := bitsAt w 80 48, dst := bitsAt w 128 48, flag := bitsAt w 176 48,
    reservedBad := bitsAt w 34 14 != 0 || bitsAt w 58 6 != 0 || bitsAt w 224 32 != 0 || decide (16383 < bitsAt w 17 15) }

/-- One pass of a program-directory entry (R195). -/
def passOfBits (w : Nat) : PassDir :=
  { start := bitsAt w 0 13, proLen := bitsAt w 13 8, bodyLen := bitsAt w 21 8, epiLen := bitsAt w 29 8, block := bitAt w 37,
    pre := bitAt w 38, preSplit := bitAt w 39 }

/-- A program-directory entry (R195); the bits of the passes an element program does not have are zero (R201). -/
def progOfBits (prog w : Nat) : ProgEntry :=
  let n := bitsAt w 1 2 + 1
  { prog := prog, isBlock := bitAt w 0, usesS := bitAt w 3,
    passes := (List.range n).map fun p => passOfBits (bitsAt w (16 + 48 * p) 48),
    reservedBad := bitsAt w 4 12 != 0 || bitsAt w 208 48 != 0 ||
      ((List.range n).any fun p => bitsAt w (16 + 48 * p + 40) 8 != 0) || (!bitAt w 0 && bitsAt w 64 144 != 0) }

/-- A coefficient entry (R216). -/
def coefOfBits (w : Nat) : CoefEntry :=
  { mode := bitsAt w 0 3, curve := bitsAt w 3 8, value := BitVec.ofNat 32 (bitsAt w 32 32), reservedBad := bitsAt w 11 21 != 0 }

/-- A breakpoint of a coefficient curve (R217). -/
def coefBpOfBits (w : Nat) : CoefBp :=
  { start := bitsAt w 0 40, lin := bitAt w 40, value := BitVec.ofNat 32 (bitsAt w 64 32),
    reservedBad := bitsAt w 41 23 != 0 || bitsAt w 96 32 != 0 }

/-- A state-directory entry (R210). -/
def stateDirOfBits (w : Nat) : StateDir :=
  { wBase := bitsAt w 0 48, m1Base := bitsAt w 64 48, m2Base := bitsAt w 128 48, wcBase := bitsAt w 192 48,
    e5m2 := bitAt w 240, margin := bitsAt w 241 2, eInit := intAt w 243 8, normGroup := bitsAt w 251 5 }

/-- A codec-region entry (R306). -/
def regionOfBits (num w : Nat) : RegionEntry :=
  { num := num, home := bitsAt w 0 48, nblkM1 := bitsAt w 64 24, fmt := bitsAt w 88 2, slot := bitsAt w 90 2,
    isSealed := bitAt w 92, tmask := BitVec.ofNat 4 (bitsAt w 96 4), spill := bitsAt w 128 48, flag := bitsAt w 192 48,
    reservedBad := bitsAt w 48 16 != 0 || bitsAt w 93 3 != 0 || bitsAt w 100 28 != 0 || bitsAt w 176 16 != 0 ||
      bitsAt w 240 16 != 0 }

/-- An entry at its reset value: every field 0 (R306). -/
def RegionEntry.empty (num : Nat) : RegionEntry := regionOfBits num 0

/-- The 272 bytes of a prefix-code table (R315). -/
def prefixOfBytes (b : List Byte) : PrefixTable :=
  { kind := (b.headD 0).toNat, lens := (b.drop 16).flatMap fun x => [x.toNat % 16, x.toNat / 16],
    reservedBad := !zeroAt b 1 15 || b.length != 272 }

/-- A Mover parameter-table entry (R296). -/
def moverOfBits (w : Nat) : MoverParam :=
  { src := bitsAt w 0 48, dst := bitsAt w 64 48, cnt := bitsAt w 128 32, ctl := BitVec.ofNat 32 (bitsAt w 160 32),
    pace := BitVec.ofNat 32 (bitsAt w 192 32),
    reservedBad := bitsAt w 48 16 != 0 || bitsAt w 112 16 != 0 || bitsAt w 224 32 != 0 }

/-! ### The sections -/

/-- The schedule of a section of type 0x02 or 0x14. -/
def schedTable (l : List Byte) : List SchedEntry := (tableOf 16 l).map fun p => schedOfBits p.2

/-- The breakpoints of the coefficient curves, which follow the sets in the order the file lists them. -/
def cutCurves : List (Nat × List CoefBp) → List Byte → List (Nat × List CoefBp)
  | [], _ => []
  | c :: rest, b =>
    (c.1, (tableOf 16 (b.take (16 * c.2.length))).map fun p => coefBpOfBits p.2) :: cutCurves rest (b.drop (16 * c.2.length))

/-- Bytes of the program directory and of the coefficient sets. -/
def dirBytes : Nat := 32768

/-- The live tables of a file (R326). -/
def SxiFile.liveTables (f : SxiFile) : LiveTables :=
  let sec := fun t => f.section_ t 0
  let live := f.content.live
  { live with
    schedule := schedTable (sec 0x02)
    reds := ((tableOf 32 (sec 0x08)).filter fun p => p.2 != 0).map fun p => redOfBits (16 + p.1) p.2
    progs := ((tableOf 32 ((sec 0x0A).take dirBytes)).filter fun p => p.2 != 0).map fun p => progOfBits p.1 p.2
    code := (groupsOf 4 ((sec 0x0A).drop dirBytes)).map w32LE
    coefSets := ((groupsOf 128 ((sec 0x0C).take dirBytes)).mapIdx fun n b => (n, (tableOf 8 b).map fun p => coefOfBits p.2))
    coefCurves := cutCurves live.coefCurves ((sec 0x0C).drop dirBytes)
    prefixes := (List.range 4).map fun n => (n, prefixOfBytes (((sec 0x10).drop (272 * n)).take 272))
    moverParams := (tableOf 32 (sec 0x11)).map fun p => moverOfBits p.2 }

/-- The tables of a file: those with a bit layout from the bytes of its sections, the others as the file gives them. -/
def SxiFile.tables (f : SxiFile) : RunImage :=
  let sec := fun t => f.section_ t 0
  let i := f.content
  let cat := (tableOf 64 (sec 0x04)).map fun p => catOfBits p.2
  { i with
    live := f.liveTables
    catalogue := cat
    chunks := (tableOf 16 (sec 0x05)).map fun p => chunkOfBits ((i.chunks[p.1]?.map ChunkEntry.offset).getD 0) p.2
    domains := ((tableOf 32 (sec 0x06)).filter fun p => p.2 != 0).map fun p => domOfBits p.1 p.2
    gathers := (tableOf 32 ((sec 0x07).take (32 * i.gathers.length))).map fun p => gatherOfBits p.2
    regionC := sec 0x0B
    stateDir := (tableOf 32 ((sec 0x0D).take (32 * cat.length))).map fun p => stateDirOfBits p.2
    regions := (tableOf 32 ((sec 0x0F ++ List.replicate 8192 0).take 8192)).map fun p => regionOfBits p.1 p.2 }

/-- The degraded schedule of a port (type 0x14), if the file has one. -/
def SxiFile.degradedFor (f : SxiFile) (port : Nat) : Option (List SchedEntry) :=
  (f.entries.find? fun m => m.typ == 0x14 && m.index == port).map fun m => schedTable m.bytes

end Sys2Proof.Machine
end

