-- ==== Sys2Proof/Machine/Flags.lean ====
section
/-!
DEFINITION. Flags and pins: the verdict and vote words (spec/01_slots_steps_and_planes.md R24), the sticky non-finite bits
(spec/02 R65), the epoch flags (R37), member failure (spec/14 R362, R363) and the pins that registers give (R29, R286,
R304, R305, R349, R390).
-/

namespace Sys2Proof.Machine

/-! ### The step's verdict bits -/

def State.setVerdict (s : State) (f : VerdictBlock → VerdictBlock) : State :=
  { s with jq := { s.jq with verdict := f s.jq.verdict } }

/-- FAULT for the step in progress (R24). -/
def State.fault (s : State) : State := s.setVerdict fun v => { v with fault := true }

/-- INCOMPLETE for the step in progress (R24). -/
def State.incomplete (s : State) : State := s.setVerdict fun v => { v with incomplete := true }

/-- The units of `JG_NONFINITE` (R65). -/
inductive NfUnit where
  | intake
  | tiles
  | arrays
  | ring
  | gazelle
  | markhor
  deriving DecidableEq, Repr

def NfUnit.mask : NfUnit → BitVec 6
  | .intake => 1
  | .tiles => 2
  | .arrays => 4
  | .ring => 8
  | .gazelle => 16
  | .markhor => 32

/-- Set a unit's sticky bit; in GEN only the cumulative copy (R65). -/
def State.nonFinite (s : State) (u : NfUnit) : State :=
  let n := s.jg.nf
  { s with jg := { s.jg with nf := if s.jq.gen then { n with seen := n.seen ||| u.mask } else { n with now := n.now ||| u.mask } } }

/-- Set it when the condition holds. -/
def State.nonFiniteIf (s : State) (c : Bool) (u : NfUnit) : State := if c then s.nonFinite u else s

/-- TEPOCH of a chunk's bytes (R109). -/
def chunkTepoch (b : List Byte) : BitVec 2 := BitVec.ofNat 2 (natLE (b.take 2) / 2 ^ 14)

/-- DRAINED: no chunk or pod request tagged with the previous epoch remains (R24): not received, in reassembly, held as a carry or in
HOLD, encoded, or queued to be sent, whole or in part. -/
def State.drained (s : State) : Bool :=
  let p := s.jg.epoch.previous
  let old := fun (h : BitVec 512) => h.extractLsb' 14 2 == p
  s.jx.rx.all (fun c => !old c.hdr) && s.jx.early.all (fun c => !old c.hdr) && s.jx.carries.all (fun f => f.tepoch != p) &&
    s.jx.hold.all (fun f => f.tepoch != p) && s.jc.reqs.all (fun r => r.epoch != p) &&
    s.jl.ports.all fun port => (port.tx.queues.drop 1).all (fun q => q.all fun f => f.tepoch != p) &&
      (port.rx.items.all fun i => i.1 == 0 || i.1 == 3 || chunkTepoch i.2 != p) &&
      ((port.rx.asm.drop 1).take 2).all fun a => !a.isOpen || decide (a.bytes.length < 2) || chunkTepoch a.bytes != p

/-- The verdict word (R24), with the NONFINITE bit as it was formed (R65). -/
def State.verdictWord (s : State) : W64 :=
  let v := s.jq.verdict
  BitVec.ofNat 64
    (b2n v.nf + 2 * b2n v.incomplete + 4 * b2n v.fault + 8 * b2n v.veto)

/-- The vote word (R24). -/
def State.voteWord (s : State) : W64 :=
  BitVec.ofNat 64 (b2n s.drained + 2 * b2n s.jg.epoch.staged + 4 * b2n s.jq.variantReq)

/-- Form the verdict word's NONFINITE bit. Doing so copies the per-step bits into SEEN and clears them (R65), and clears
`JI_NF.FIRST_VALID` (R101). -/
def State.clearNonFinite (s : State) : State :=
  let n := s.jg.nf
  { s with jg := { s.jg with nf := ⟨0, n.seen ||| n.now⟩ }, ji := { s.ji with nfValid := false } }

/-! ### Member failure -/

/-- A peer port that is UP and admitted (R363). -/
def State.portLive (s : State) (p : Nat) : Bool :=
  let st := (s.port p).state
  (st == 4 || st == 5) && s.live.cur.portAdmit.getLsbD p

/-- Are all the parts healthy that a donor needs (R363)? Causes 3 and 6 are state ports and the ring engine or the
Gazelle path. -/
def State.donorOk (s : State) (cause : Nat) : Bool :=
  cause != 3 && cause != 6 && (List.range 8).any s.portLive

/-- A failed member without a peer port that is UP and admitted is no donor any more (R363). -/
def State.donorPorts (s : State) : State :=
  let m := s.jg.member
  { s with jg := { s.jg with member := { m with donor := m.donor && (m.state != 2 || (List.range 8).any s.portLive) } } }

/-- Member failure with its cause (R362); a member that has failed already keeps its first cause. -/
def State.memberFail (s : State) (cause : Nat) : State :=
  if s.jg.member.state = 2 then
    { s with jg := { s.jg with member := { s.jg.member with donor := s.jg.member.donor && s.donorOk cause } } }
  else
    let d := s.donorOk cause
    let s := { s with jg := { s.jg with member := { s.jg.member with state := 2, donor := d, cause := BitVec.ofNat 4 cause } } }
    let s := s.event 0x40 0x0003 2 [i1 cause, i1 (b2n d), i8 s.jq.step.toNat, i8 s.jq.slot.toNat]
    if s.jg.twin.present then s.emit (.twin .memberFailed) else s

/-- The instance neither issues entries nor sends contributions or cells (R362, R364). -/
def State.silent (s : State) : Bool := s.jg.member.state == 2 || s.jg.member.state == 1

/-! ### Pins that registers give -/

/-- COMMIT_PARITY (R29). -/
def State.commitParity (s : State) : Bool := s.jq.step.getLsbD 0

/-- MODE_GEN (R29). -/
def State.modeGen (s : State) : Bool := s.jq.gen

/-- TWIN_DRIVE (R390). -/
def State.twinDrive (s : State) : Bool := s.jg.twin.driving

/-- Is the activation-offload class enabled (R305)? -/
def State.offloadOn (s : State) : Bool := s.decl.offload.isSome

/-- JIRQ[0]: a data-class channel is done and enabled (R304). -/
def State.jirq0 (s : State) : Bool :=
  (s.jm.done &&& s.jm.irqEn &&& BitVec.ofNat 64 (2 ^ 48 - 1)) != 0

/-- JIRQ[1]: a service-class channel has an enabled event: DONE with IRQ_FULL, or HALF_SEEN with IRQ_HALF; an offload
channel needs only its enable (R304, R305). -/
def State.jirq1 (s : State) : Bool :=
  (List.range 16).any fun i =>
    let n := 48 + i
    let c := s.chan n
    let off := s.offloadOn && decide (60 ≤ n)
    s.jm.irqEn.getLsbD n &&
      ((s.jm.done.getLsbD n && (c.ctl.getLsbD 17 || off)) || (c.halfSeen && c.ctl.getLsbD 16))

/-- JIRQ[2] (R349). -/
def State.jirq2 (s : State) : Bool := s.js.ring.irqErr && s.js.ring.enErr

/-- JIRQ[3] (R349). -/
def State.jirq3 (s : State) : Bool := s.js.ring.irqFatal && s.js.ring.enFatal

/-- Is either reset low? -/
def State.inReset (s : State) : Bool := s.js.boot.jporLow || s.js.boot.jwrstLow

/-- TQn_READY (R286, R288, R289, R101, R389). -/
def State.tqReady (s : State) (n : Nat) : Bool :=
  let q := s.ji.tqs.getD n ⟨false, .idle⟩
  let free := match q.st with | .held _ => false | _ => true
  !s.inReset && s.ji.tqEn.getLsbD n && q.pup && free

end Sys2Proof.Machine
end

