-- ==== Sys2Proof/Machine/Access.lean ====
section
/-!
DEFINITION. Register accesses from the management window and the serial target port: response codes, the order of the
refusals, the busy rule, the service lock and `JS_REJECT` (spec/13_image_boot_and_management.md R336, R337, R342, R344,
R352, spec/15_register_reference.md R381).
-/

namespace Sys2Proof.Machine

/-- Give the response of an access (R336): code and read data. -/
def State.respond (s : State) (port : Mgmt) (code : Nat) (data : W32) : State :=
  let r : Resp := ⟨BitVec.ofNat 3 code, data⟩
  match port with
  | .mw => { s with js := { s.js with mw := r } }
  | .sm => { s with js := { s.js with sm := r } }

def State.ok (s : State) (port : Mgmt) : State := s.respond port 0 0

/-- Refuse an access; REJECTED and CONFLICT are recorded in `JS_REJECT` (R336). -/
def State.refuse (s : State) (port : Mgmt) (offset code : Nat) : State :=
  let s := s.respond port code 0
  if code = 4 ∨ code = 2 then
    { s with js := { s.js with rejCount := stick s.js.rejCount 1, rejPort := port == .sm,
                               rejCode := BitVec.ofNat 3 code, rejOffset := BitVec.ofNat 24 offset } }
  else s

def State.reject (s : State) (port : Mgmt) (offset : Nat) : State := s.refuse port offset 4

/-- Boot is not complete: from a reset until T_v or SAFE (R337). -/
def State.booting (s : State) : Bool := s.inReset || decide (s.js.boot.state.toNat < 4)

/-- The offsets SM may read while boot runs: `JS_ID`, `JS_BOOT`, the event ring, `JS_TEMP`, `JS_VOLT` (R337). -/
def bootReadable (offset : Nat) : Bool :=
  offset == 0x0B0000 || offset == 0x0B0004 || offset == 0x0B0074 || offset == 0x0B0078 ||
    (decide (0x0C0000 ≤ offset) && decide (offset < 0x100000))

/-- BUSY because boot or a Duiker restart is not complete (R335, R336, R337). -/
def State.accessBusy (s : State) (port : Mgmt) (offset : Nat) (write : Bool) : Bool :=
  s.js.restarting || (s.booting && !(port == .sm && !write && bootReadable offset))

/-- Does this port hold the service lock (R344)? -/
def State.holdsLock (s : State) (port : Mgmt) : Bool := s.js.lock.held && s.js.lock.port == (port == .sm)

/-- A write performed after the busy check of R336; in reset no access transfers (R389). -/
def State.guarded (s : State) (port : Mgmt) (offset : Nat) (f : State → State) : State :=
  if s.inReset then s
  else if s.accessBusy port offset true then s.refuse port offset 1
  else f s

/-- A write that would change an RWL field needs the lock and quiescence, in that order; the value must be in range
(R336, R381). -/
def State.rwl (s : State) (port : Mgmt) (offset : Nat) (changes inRange : Bool) (f : State → State) : State :=
  if changes && !s.holdsLock port then s.refuse port offset 3
  else if changes && !s.jq.quiesced then s.refuse port offset 4
  else if !inRange then s.refuse port offset 4
  else (f s).ok port

end Sys2Proof.Machine
end

