-- ==== Sys2Proof/Machine/Operands.lean ====
section
/-!
DEFINITION. Operand forms: the chunk header (spec/04_ring_exchange.md R109), the tile-queue descriptor (spec/03 R75), the
geometry of tensors, rows and chunks (R79, R80, R106), densities and masks (R84–R91), g′ and residuals (R83, R94, R95).
-/

namespace Sys2Proof.Machine

/-! ### The chunk header (R109) -/

structure ChunkHdr where
  version : Nat
  op : Nat
  axis : Nat
  tepoch : BitVec 2
  mepoch : Nat
  wire : Nat
  bypass : Bool
  dense : Bool
  sketch : Bool
  mask : Bool
  poison : Bool
  fwd : Bool
  minus : Bool
  last : Bool
  domain : Nat
  hop : Nat
  bypassN : Nat
  key : Nat
  step : StepNo
  tensor : Nat
  src : Nat
  dst : Nat
  owner : Nat
  chunk : Nat
  nGroups : Nat
  nScales : Nat
  nSide : Nat
  len : Nat
  seq : W32
  aux : W32
  group0 : Nat
  rangeGroups : Nat
  crc : W32
  deriving DecidableEq, Repr

def chunkHdr (h : BitVec 512) : ChunkHdr :=
  let w := h.toNat
  { version := bitsAt w 0 8, op := bitsAt w 8 4, axis := bitsAt w 12 2, tepoch := BitVec.ofNat 2 (bitsAt w 14 2),
    mepoch := bitsAt w 16 2, wire := bitsAt w 18 2, bypass := bitAt w 20, dense := bitAt w 21, sketch := bitAt w 22,
    mask := bitAt w 23, poison := bitAt w 24, fwd := bitAt w 25, minus := bitAt w 26, last := bitAt w 27,
    domain := bitsAt w 32 10, hop := bitsAt w 42 6, bypassN := bitsAt w 48 16, key := bitsAt w 64 32,
    step := BitVec.ofNat 40 (bitsAt w 96 40), tensor := bitsAt w 144 18, src := bitsAt w 176 16, dst := bitsAt w 192 16,
    owner := bitsAt w 208 16, chunk := bitsAt w 224 32, nGroups := bitsAt w 256 12, nScales := bitsAt w 272 12,
    nSide := bitsAt w 288 10, len := bitsAt w 304 17, seq := BitVec.ofNat 32 (bitsAt w 352 32),
    aux := BitVec.ofNat 32 (bitsAt w 384 32), group0 := bitsAt w 416 32, rangeGroups := bitsAt w 448 17,
    crc := BitVec.ofNat 32 (bitsAt w 480 32) }

/-- The reserved bits of a chunk header are zero. -/
def chunkReservedOk (h : BitVec 512) : Bool :=
  let w := h.toNat
  [(28, 4), (136, 8), (162, 14), (268, 4), (284, 4), (298, 6), (321, 31), (465, 15)].all fun p => bitsAt w p.1 p.2 == 0

/-- The header's bits but for CRC. -/
def ChunkHdr.low (h : ChunkHdr) : Nat :=
  h.version + h.op * 2 ^ 8 + h.axis * 2 ^ 12 + h.tepoch.toNat * 2 ^ 14 + h.mepoch * 2 ^ 16 + h.wire * 2 ^ 18
    + b2n h.bypass * 2 ^ 20 + b2n h.dense * 2 ^ 21 + b2n h.sketch * 2 ^ 22 + b2n h.mask * 2 ^ 23 + b2n h.poison * 2 ^ 24
    + b2n h.fwd * 2 ^ 25 + b2n h.minus * 2 ^ 26 + b2n h.last * 2 ^ 27 + h.domain * 2 ^ 32 + h.hop * 2 ^ 42
    + h.bypassN * 2 ^ 48 + h.key * 2 ^ 64 + h.step.toNat * 2 ^ 96 + h.tensor * 2 ^ 144 + h.src * 2 ^ 176
    + h.dst * 2 ^ 192 + h.owner * 2 ^ 208 + h.chunk * 2 ^ 224 + h.nGroups * 2 ^ 256 + h.nScales * 2 ^ 272
    + h.nSide * 2 ^ 288 + h.len * 2 ^ 304 + h.seq.toNat * 2 ^ 352 + h.aux.toNat * 2 ^ 384 + h.group0 * 2 ^ 416
    + h.rangeGroups * 2 ^ 448

/-- CRC-32C of header bytes 0–59 and the payload (R110). -/
def chunkCrc (low : Nat) (payload : List Byte) : W32 := crc32c (bytesLE 60 low ++ payload)

/-- The header's bits with the CRC computed over what it heads. -/
def ChunkHdr.pack (h : ChunkHdr) (payload : List Byte) : BitVec 512 :=
  let low := h.low
  BitVec.ofNat 512 (low + (chunkCrc low payload).toNat * 2 ^ 480)

def chunkCrcOk (h : BitVec 512) (payload : List Byte) : Bool := chunkCrc (h.toNat % 2 ^ 480) payload == h.extractLsb' 480 32

/-! ### The descriptor (R75) -/

structure DescHdr where
  kind : Nat
  fmt : Nat
  tensor : Nat
  step : Nat
  row0 : Nat
  col0 : Nat
  nrows : Nat
  ncols : Nat
  bytes : Nat
  reserved : Bool
  deriving DecidableEq, Repr

def descHdr (d : BitVec 512) : DescHdr :=
  let w := d.toNat
  { kind := bitsAt w 0 4, fmt := bitsAt w 4 2, tensor := bitsAt w 8 18, step := bitsAt w 32 16, row0 := bitsAt w 64 32,
    col0 := bitsAt w 96 32, nrows := bitsAt w 128 16 + 1, ncols := bitsAt w 144 16 + 1, bytes := bitsAt w 160 32,
    reserved := bitsAt w 6 2 == 0 && bitsAt w 26 6 == 0 && bitsAt w 192 320 == 0 }

/-- Bytes of an element in FMT. -/
def fmtBytes (fmt : Nat) : Nat := if fmt = 0 then 4 else if fmt = 1 then 2 else 1

/-! ### Tensors, rows, chunks (R80, R106) -/

/-- This member's id. -/
def State.me (s : State) : Nat := s.decl.member

/-- Groups of a mask row. -/
def CatEntry.rowLen (c : CatEntry) (row : Nat) : Nat := min c.rowGroups (c.groups - row * c.rowGroups)

def CatEntry.rowOf (c : CatEntry) (group : Nat) : Nat := group / c.rowGroups

/-- Is the element in a padding column? -/
def CatEntry.isPad (c : CatEntry) (elem : Nat) : Bool := decide (c.cols - c.padCols ≤ elem % c.cols)

/-- Output channel of an element. -/
def CatEntry.chanOf (c : CatEntry) (elem : Nat) : Nat := elem / c.chLen

/-- The chunk of a tensor that holds a group. -/
def State.chunkOfGroup (s : State) (tensor group : Nat) : Option Nat :=
  match s.cat tensor with
  | none => none
  | some c =>
    (List.range c.chunkCount).find? (fun k =>
      match s.chunk (c.chunkMap + k) with
      | some e => decide (e.group0 ≤ group) && decide (group < e.group0 + e.rangeGroups)
      | none => false) |>.map (c.chunkMap + ·)

/-- The member's coordinates. -/
def State.coordOf (s : State) (m : Nat) : Coord := ((s.decl.members.find? fun x => x.id == m).map MemberAt.at_).getD ⟨0, 0, 0⟩

def Coord.axis (c : Coord) : Nat → Nat
  | 0 => c.x
  | 1 => c.y
  | _ => c.z

def DomEntry.org (d : DomEntry) : Nat → Nat
  | 0 => d.xOrg
  | 1 => d.yOrg
  | _ => d.zOrg

def DomEntry.len (d : DomEntry) : Nat → Nat
  | 0 => d.xLen
  | 1 => d.yLen
  | _ => d.zLen

/-- The domain's sub-block holds the coordinates (R103). -/
def DomEntry.contains (d : DomEntry) (c : Coord) : Bool :=
  (List.range 3).all fun a => decide (d.org a ≤ c.axis a) && decide (c.axis a < d.org a + d.len a)

/-- The named axes in the order X, Y, Z (R108). -/
def DomEntry.lap1Axes (d : DomEntry) : List Nat := (List.range 3).filter fun a => d.axes.getLsbD a

/-! ### Densities (R84, R85) -/

/-- The code of the last breakpoint whose start is at most the step; breakpoint 0 before all of them. -/
def densAt (bps : List DensBp) (step : Nat) : Nat :=
  match (bps.filter fun b => decide (b.start ≤ step)).getLast? with
  | some b => b.code
  | none => (bps.head?.map DensBp.code).getD 0

/-- The density code of a tensor at step t + k, for k from −2 to 2. -/
def State.density (s : State) (c : CatEntry) (k : Int) : Nat :=
  let tables := if k = 2 then s.live.cur.density else s.ji.dens.getD (k + 2).toNat []
  let step := (s.jq.step + BitVec.ofInt 40 k).toNat
  densAt ((tabGet c.dcurve tables).getD []) step

/-- Is step t + k the restart step or the step after it (R90)? -/
def State.nearRestart (s : State) (k : Nat) : Bool := decide ((s.jq.step + BitVec.ofNat 40 k - s.jq.restart).toNat < 2)



/-- Is a mask to be built in this step for step t + 2? -/
def State.buildsMask (s : State) (c : CatEntry) : Bool :=
  !s.nearRestart 2 && s.density c 0 != 0 && s.density c 2 != 0

/-- K of R84. -/
def selCount (g d : Nat) : Nat := (g + 2 ^ d - 1) / 2 ^ d

/-! ### Mask slots (R89, R91) -/

def maskSlotBytes (g : Nat) : Nat := 64 * ((8 + (g + 7) / 8 + 63) / 64)

def CatEntry.maskSlot (c : CatEntry) (row slot : Nat) : Nat :=
  c.maskBase + row * 4 * maskSlotBytes c.rowGroups + slot * maskSlotBytes (c.rowLen row)

/-- The slot's record: step and VALID. -/
def State.slotRecord (s : State) (c : CatEntry) (row slot : Nat) : Nat := memNat s.stateMem (c.maskSlot row slot) 8

/-- Write a mask into its slot. -/
def State.storeMask (s : State) (c : CatEntry) (row : Nat) (step : StepNo) (bits : List Bool) : State :=
  let n := maskSlotBytes (c.rowLen row)
  let a := c.maskSlot row (step.toNat % 4)
  let b := bytesLE 8 (step.toNat + 2 ^ 63) ++ bitmapBytes bits
  let s := s.stateWrite 0x2B a (b ++ List.replicate (n - b.length) 0)
  { s with ji := { s.ji with maskBad := s.ji.maskBad.filter (· != a) } }

def strideMask (g d : Nat) : List Bool := (List.range g).map fun n => n % 2 ^ d == 0

/-- The mask of a row at step t + k, for k = 0 or 1; none when it is missing. -/
def State.rowMaskAt (s : State) (c : CatEntry) (row k : Nat) : Option (List Bool) :=
  let g := c.rowLen row
  let d := s.density c k
  let step := s.jq.step + BitVec.ofNat 40 k
  if d = 0 then some (List.replicate g true)
  else if s.nearRestart k || s.density c ((k : Int) - 2) == 0 then some (strideMask g d)
  else
    let slot := step.toNat % 4
    let r := s.slotRecord c row slot
    if bitAt r 63 && r % 2 ^ 40 == step.toNat && !s.ji.maskBad.contains (c.maskSlot row slot) then
      some ((bitsOf (memRead s.stateMem (c.maskSlot row slot + 8) ((g + 7) / 8))).take g)
    else none

/-- The mask of a row in the present step; none when it is missing. -/
def State.rowMask (s : State) (c : CatEntry) (row : Nat) : Option (List Bool) := s.rowMaskAt c row 0

/-- The groups of a chunk's range that the mask selects, and none when the mask is missing. -/
def State.chunkSel (s : State) (c : CatEntry) (e : ChunkEntry) : Option (List Nat) :=
  let row := c.rowOf e.group0
  (s.rowMask c row).map fun bits =>
    (List.range e.rangeGroups).filterMap fun i =>
      if bits.getD (e.group0 + i - row * c.rowGroups) false then some (e.group0 + i) else none

/-- Groups that a chunk carries, whatever the mask: K of the row's density, restricted to the range. -/
def State.strideSel (s : State) (c : CatEntry) (e : ChunkEntry) : List Nat :=
  let row := c.rowOf e.group0
  (List.range e.rangeGroups).filterMap fun i =>
    if (e.group0 + i - row * c.rowGroups) % 2 ^ s.density c 0 = 0 then some (e.group0 + i) else none

/-- A row handled under R91: recorded once in a step. -/
def State.maskLost (s : State) (tile tensor row : Nat) (c : CatEntry) : State :=
  if s.ji.maskMiss.any fun p => p == (tensor, row) then s
  else
    let rec_ := s.slotRecord c row (s.jq.step.toNat % 4) % 2 ^ 40
    let s := { s with ji := { s.ji with maskMiss := (tensor, row) :: s.ji.maskMiss, maskLost := stick s.ji.maskLost 1 } }
    s.event tile 0x0202 0 [i4 tensor, i4 row, i8 s.jq.step.toNat, i8 rec_]

/-- The groups a chunk takes from this member: none when its row or the chunk is treated as unselected. DESIGN CHOICE
(notes/assumptions/33.md): a mask-epoch mismatch shuts out the chunk that showed it, not the other chunks of its row (R91, R92, R94). -/
def State.ownSel (s : State) (i : Nat) (c : CatEntry) (e : ChunkEntry) : Option (List Nat) :=
  if s.ji.lost.contains i then none else s.chunkSel c e

/-! ### g′ and residuals (R83, R94, R95) -/

/-- Bytes of a stored residual. -/
def CatEntry.resBytes (c : CatEntry) : Nat := if c.resFmt = 1 then 1 else 2

def CatEntry.resAddr (c : CatEntry) (elem : Nat) : Nat := c.resBase + c.resBytes * elem

/-- The stored residual decoded. -/
def State.residual (s : State) (c : CatEntry) (elem : Nat) : W32 :=
  if c.resFmt = 1 then f32Mul (e5m2Up (memGet s.stateMem (c.resAddr elem))) (f32Pow2 (-c.resShift))
  else bf16Up (w16LE (memRead s.stateMem (c.resAddr elem) 2))

/-- g′ of a received group, if the group has been received or INTAKE has ended. -/
def State.gPrime (s : State) (tensor group : Nat) : Option (List W32) :=
  (s.ji.grads.find? fun g => g.tensor == tensor && g.group == group).map GradGroup.vals

/-- The stored bytes of a residual value, and whether it was zeroed (R94, R95). -/
def State.resCode (s : State) (tensor : Nat) (c : CatEntry) (elem : Nat) (r : W32) : List Byte × Bool :=
  if f32NonFinite r then (List.replicate c.resBytes 0, true)
  else if c.resFmt = 1 then
    let x := f32Mul r (f32Pow2 c.resShift)
    let b := if f32NonFinite x then (if r.toNat ≥ 2 ^ 31 then 0xFB else 0x7B) else e5m2Of x
    ([b], false)
  else
    let b := if c.srRes then bf16Sr r (srValue s.ju.seed .residual tensor elem s.jq.step 0) else bf16Rne r
    let b := if bf16NonFinite b then (if r.toNat ≥ 2 ^ 31 then 0xFF7F else 0x7F7F) else b
    (bytes16 b, false)

/-- Write one new residual value. -/
def State.putResidual (s : State) (tensor : Nat) (c : CatEntry) (elem : Nat) (r : W32) : State :=
  let b := s.resCode tensor c elem r
  let tile := match s.chunkOfGroup tensor (elem / 32) with
    | some i => match s.chunk i with | some e => e.tile | none => 0
    | none => 0
  let s := s.stateWrite tile (c.resAddr elem) b.1
  if b.2 then { s with ji := { s.ji with resZeroed := stick s.ji.resZeroed 1 } } else s

/-- Write the residuals of a run of elements. -/
def State.putResiduals (s : State) (tensor : Nat) (c : CatEntry) : List (Nat × W32) → State
  | [] => s
  | (e, r) :: rest => (s.putResidual tensor c e r).putResiduals tensor c rest

/-- Residuals of one group of a withheld contribution: g′, or +0.0 for selected groups under DROP (R94, R119). -/
def State.withheldGroup (s : State) (tensor : Nat) (c : CatEntry) (i group : Nat) (vals : List W32) : State :=
  match s.chunk i with
  | none => s
  | some e =>
    let drop := match s.dom e.domain with | some d => d.lateDrop | none => false
    let sel := match s.ownSel i c e with | some l => l.contains group | none => false
    s.putResiduals tensor c (vals.mapIdx fun k v => (32 * group + k, if sel && drop then 0 else v))

/-- Residuals of one group that comes after POISON took its chunk's place: g′ where the chunk does not take it (R94). -/
def State.poisonedGroup (s : State) (tensor : Nat) (c : CatEntry) (i group : Nat) (vals : List W32) : State :=
  match s.chunk i with
  | none => s
  | some e =>
    let sel := match s.ownSel i c e with | some l => l.contains group | none => false
    if sel then s else s.putResiduals tensor c (vals.mapIdx fun k v => (32 * group + k, v))

/-! ### Phases (R21) -/

/-- Is a phase active? -/
def State.phase (s : State) (code : Nat) : Bool := s.jq.phases.getLsbD code

def State.setPhase (s : State) (code : Nat) (on : Bool) : State :=
  let b := BitVec.ofNat 8 (2 ^ code)
  { s with jq := { s.jq with phases := if on then s.jq.phases ||| b else s.jq.phases &&& ~~~b } }

end Sys2Proof.Machine
end

