-- ==== Sys2Proof/Machine/Mover.lean ====
section
/-!
DEFINITION. The Mover, the memory ports and the activation-offload class (spec/11_mover_and_memory_ports.md R291–R305),
and the meanings of their commands. A channel has one read in flight; its bytes move at the response, and what is left when
the channel completes or drains (notes/assumptions/27.md).
-/

namespace Sys2Proof.Machine

/-! ### Fields -/

def Chan.sg (c : Chan) : Bool := c.ctl.getLsbD 3
/-- SG_SIDE: true = the destination is the list -/
def Chan.sgDst (c : Chan) : Bool := c.ctl.getLsbD 4
def Chan.srcSpace (c : Chan) : Nat := bitsAt c.ctl.toNat 5 3
def Chan.dstSpace (c : Chan) : Nat := bitsAt c.ctl.toNat 8 3
def Chan.swap (c : Chan) : Nat := bitsAt c.ctl.toNat 11 2
def Chan.paceEn (c : Chan) : Bool := c.ctl.getLsbD 14
def Chan.circ (c : Chan) : Bool := c.ctl.getLsbD 15
def Chan.paceQueue (c : Chan) : Nat := bitsAt c.pace.toNat 0 4
/-- DIR: true = drain -/
def Chan.paceDrain (c : Chan) : Bool := c.pace.getLsbD 4
def Chan.low (c : Chan) : Nat := bitsAt c.pace.toNat 8 12
def Chan.high (c : Chan) : Nat := bitsAt c.pace.toNat 20 12

/-- Bytes of a swap unit (R301). -/
def swapUnit (k : Nat) : Nat := if k = 0 then 1 else if k = 1 then 2 else 4

/-- The bytes as they pass (R301). -/
def swapBytes (k : Nat) (l : List Byte) : List Byte :=
  if k = 0 then l
  else (groupsOf (swapUnit k) l).flatMap fun u =>
    if k = 2 then u.drop 2 ++ u.take 2 else u.reverse

/-! ### Memory spaces (R297) -/

def State.space (s : State) : Nat → Mem
  | 0 => s.hostMem
  | 1 => s.stateMem
  | 2 => s.scratch
  | 3 => s.staging
  | _ => s.ethBuf

/-- Channel ch writes bytes in a space; host memory and the state tier lie behind the ports. -/
def State.spaceWrite (s : State) (ch k a : Nat) (b : List Byte) : State :=
  match k with
  | 0 => { s.portWrite 0x2E ch false a b with hostMem := memWrite s.hostMem a b }
  | 1 => { s.portWrite 0x2E ch true a b with stateMem := memWrite s.stateMem a b }
  | 2 => { s with scratch := memWrite s.scratch a b }
  | 3 => { s with staging := memWrite s.staging a b }
  | _ => { s with ethBuf := memWrite s.ethBuf a b }

/-! ### Scatter-gather lists (R299) -/

/-- A piece of a transfer: address and bytes. -/
structure Piece where
  addr : Nat
  len : Nat
  deriving DecidableEq, Repr

/-- The pieces of a list and whether it ends well; each valid entry holds a byte that is not zero, so the fuel is the
number of bytes listed. -/
def sgWalk (m : Mem) : Nat → Nat → List Piece × Bool
  | 0, _ => ([], false)
  | k + 1, a =>
    let w := memNat m a 16
    let len := bitsAt w 64 32
    if len = 0 ∨ bitsAt w 50 14 ≠ 0 ∨ bitsAt w 96 32 ≠ 0 then ([], false)
    else if bitAt w 48 then ([⟨bitsAt w 0 48, len⟩], true)
    else
      let r := sgWalk m k (a + 16)
      (⟨bitsAt w 0 48, len⟩ :: r.1, r.2)

def State.sgList (s : State) (c : Chan) : List Piece × Bool :=
  let m := s.space (if c.sgDst then c.dstSpace else c.srcSpace)
  sgWalk m (m.length + 1) (if c.sgDst then c.dst else c.src).toNat

def piecesLen (l : List Piece) : Nat := l.foldl (fun a p => a + p.len) 0

/-- Drop n bytes from the front of the pieces. -/
def dropPieces : Nat → List Piece → List Piece
  | _, [] => []
  | n, p :: rest => if n < p.len then ⟨p.addr + n, p.len - n⟩ :: rest else dropPieces (n - p.len) rest

/-- The first n bytes of the pieces. -/
def takePieces : Nat → List Piece → List Piece
  | _, [] => []
  | n, p :: rest => if n = 0 then [] else if n < p.len then [⟨p.addr, n⟩] else p :: takePieces (n - p.len) rest

/-- Bytes left to move, and whether they end in a bad list entry. -/
def State.left (s : State) (c : Chan) : Nat × Bool :=
  if c.sg then
    let l := s.sgList c
    (piecesLen l.1 - c.sgDone, !l.2)
  else (c.cnt.toNat, false)

def readPieces (m : Mem) (l : List Piece) : List Byte := l.flatMap fun p => memRead m p.addr p.len

def State.writePieces (s : State) (ch k : Nat) : List Piece → List Byte → State
  | [], _ => s
  | p :: rest, b => (s.spaceWrite ch k p.addr (b.take p.len)).writePieces ch k rest (b.drop p.len)

/-- The next n bytes of a channel at the side that its list describes, or from the address of the other. -/
def State.sidePieces (s : State) (c : Chan) (dst : Bool) (n : Nat) : List Piece :=
  if c.sg && c.sgDst == dst then takePieces n (dropPieces c.sgDone (s.sgList c).1)
  else [⟨(if dst then c.dst else c.src).toNat, n⟩]

/-- Move the next n bytes of a channel; the registers count on (R303). -/
def State.moveBytes (s : State) (ch n : Nat) : State :=
  let c := s.chan ch
  let data := swapBytes c.swap (readPieces (s.space c.srcSpace) (s.sidePieces c false n))
  let s := s.writePieces ch c.dstSpace (s.sidePieces c true n) data
  s.setChan ch fun c =>
    { c with src := if c.sg && !c.sgDst then c.src else c.src + BitVec.ofNat 48 n,
             dst := if c.sg && c.sgDst then c.dst else c.dst + BitVec.ofNat 48 n,
             cnt := if c.sg then c.cnt else c.cnt - BitVec.ofNat 32 n,
             sgDone := if c.sg then c.sgDone + n else c.sgDone }

/-- HALF_SEEN when the count left first falls to half the starting count or below (R304). -/
def State.seeHalf (s : State) (ch before after : Nat) : State :=
  let c := s.chan ch
  if c.total < 2 * before ∧ 2 * after ≤ c.total ∧ 48 ≤ ch then s.setChan ch fun c => { c with halfSeen := true } else s

/-- Write up to n more bytes of a channel, in whole swap units. -/
def State.moveSome (s : State) (ch n : Nat) : State :=
  let c := s.chan ch
  let l := (s.left c).1
  let k := min n l / swapUnit c.swap * swapUnit c.swap
  (s.moveBytes ch k).seeHalf ch l (l - k)

/-! ### Reads (R292, R293, R300, R303) -/

/-- Does the channel issue new reads? -/
def Chan.reading (c : Chan) : Bool := c.busy && !c.paused && !c.pause && !c.stopping && !c.paced && !c.halt && !c.offRun

/-- Bytes of the next read: up to the end of its 4 KiB granule or state-tier line, in whole swap units. -/
def State.nextLen (s : State) (c : Chan) : Nat :=
  let g := if c.srcSpace = 1 then 512 else 4096
  let u := swapUnit c.swap
  match s.sidePieces c false (s.left c).1 with
  | [] => 0
  | p :: _ => min (s.left c).1 ((min p.len (g - p.addr % g) + u - 1) / u * u)

/-- Read requests of a channel for pieces of its source; the other spaces are not behind the ports. -/
def State.readPorts (s : State) (ch k : Nat) (l : List Piece) : State :=
  if k < 2 then l.foldl (fun s p => s.portRead 0x2E ch (k == 1) p.addr p.len) s else s

/-- A channel with no read in flight issues its next one. -/
def State.fetchNext (s : State) (ch : Nat) : State :=
  let c := s.chan ch
  if !c.reading || c.fetch != 0 || decide (2 ≤ c.srcSpace) then s
  else
    let n := s.nextLen c
    let l := s.sidePieces c false n
    let k := (l.map fun p => (portPieces (c.srcSpace == 1) p.addr p.len).length).foldl (· + ·) 0
    (s.setChan ch fun c => { c with fetch := n, reads := k }).readPorts ch c.srcSpace l

/-- A read of a channel is answered: its bytes are written when the whole read is in, and the next read goes out. -/
def State.readDone (s : State) (ch : Nat) : State :=
  let c := s.chan ch
  if c.reads = 0 ∨ !c.busy ∨ c.offRun then s
  else if 1 < c.reads then s.setChan ch fun c => { c with reads := c.reads - 1 }
  else (((s.setChan ch fun c => { c with fetch := 0, reads := 0 }).moveSome ch c.fetch)).fetchNext ch

/-! ### Pacing (R300) -/

def State.fillOf (s : State) (q : Nat) : Nat :=
  if q < 8 then (s.jm.ownFill.getD q 0).toNat else (s.jm.qfill.getD (q - 8) 0).toNat

/-- Is the channel held at this fill, given how it was? -/
def Chan.heldAt (c : Chan) (fill : Nat) (was : Bool) : Bool :=
  if !c.paceEn then false
  else if c.paceDrain then (if fill ≤ c.low then true else if fill ≥ c.high then false else was)
  else (if fill ≥ c.high then true else if fill ≤ c.low then false else was)

/-- A fill level changed: every running channel on the queue follows it, and one let go reads on. -/
def State.repace (s : State) (q : Nat) : State :=
  let fill := s.fillOf q
  let s := { s with jm := { s.jm with chans := s.jm.chans.map fun c =>
      if c.busy && c.paceEn && c.paceQueue == q then { c with paced := c.heldAt fill c.paced } else c } }
  (List.range 64).foldl (fun s ch => if (s.chan ch).paceEn && (s.chan ch).paceQueue == q then s.fetchNext ch else s) s

def execPacingThreshold (q : BitVec 4) (fill : BitVec 12) (s : State) : Host.Outcome State Fault Refusal :=
  run (fun s =>
    let s := if q.toNat < 8 then { s with jm := { s.jm with ownFill := modifyNth (fun _ => fill) q.toNat s.jm.ownFill } } else s
    s.repace q.toNat) s

/-! ### Starting a channel -/

/-- Is a piece inside what the service class may use in a space (R297)? -/
def State.spaceOk (s : State) (write : Bool) (k : Nat) (p : Piece) : Bool :=
  match k with
  | 0 => true
  | 1 => s.jq.quiesced || (decide (s.decl.serviceLo ≤ p.addr) && decide (p.addr + p.len ≤ s.decl.serviceHi))
  | 2 => s.jq.quiesced && decide (p.addr + p.len ≤ 40 * 4194304)
  | 3 => s.jq.quiesced && !write && decide (p.addr + p.len ≤ 8331200)
  | _ => false

/-- Does the transfer length, or an entry of the list, break the swap unit (R301)? -/
def State.swapBad (s : State) (c : Chan) : Bool :=
  let list := if c.sg then (s.sgList c).1 else []
  let u := swapUnit c.swap
  (s.left c).1 % u != 0 || list.any fun p => p.len % u != 0

/-- Do a service-class channel's spaces and addresses keep the limits of R297? The list is read in its own space. -/
def State.spacesOk (s : State) (c : Chan) : Bool :=
  let list := if c.sg then (s.sgList c).1 else []
  let n := (s.left c).1
  let listAt : Piece := ⟨(if c.sgDst then c.dst else c.src).toNat, 16 * max 1 list.length⟩
  let from_ := if c.sg && !c.sgDst then listAt :: list else [⟨c.src.toNat, n⟩]
  let dest := if c.sg && c.sgDst then list else [⟨c.dst.toNat, n⟩]
  from_.all (s.spaceOk false c.srcSpace) && dest.all (s.spaceOk true c.dstSpace) &&
    (!(c.sg && c.sgDst) || s.spaceOk false c.dstSpace listAt)

/-- Is the list's address no multiple of 16, or LOW not below HIGH (R299, R300)? -/
def Chan.listOrPaceBad (c : Chan) : Bool :=
  (c.sg && (if c.sgDst then c.dst else c.src).toNat % 16 != 0) || (c.paceEn && decide (c.high ≤ c.low))

/-- Why a channel may not start: 0 = it may; 1 = swap length; 2 = space; 3 = list or watermarks (R297–R301). The limits of
the spaces bind the service class only (R296). -/
def State.startErr (s : State) (service : Bool) (c : Chan) : Nat :=
  if s.swapBad c then 1
  else if service && !s.spacesOk c then 2
  else if c.listOrPaceBad then 3
  else 0

/-- The channel runs from its registers, and its first read goes out unless pacing holds it. -/
def State.launch (s : State) (ch : Nat) : State :=
  let c := s.chan ch
  let fill := s.fillOf c.paceQueue
  let total := (s.left c).1
  (s.setChan ch fun c =>
    { c with busy := true, paused := false, stopping := false, err := 0, complete := false, paced := c.heldAt fill false,
             srcAt := c.src, dstAt := c.dst, cntAt := c.cnt, total := total, fetch := 0, reads := 0 }).fetchNext ch

/-- A channel starts if nothing forbids it; otherwise ERR says why (R297, R300, R301). -/
def State.tryLaunch (s : State) (ch : Nat) : State :=
  let e := s.startErr (decide (48 ≤ ch)) (s.chan ch)
  if e = 0 then s.launch ch else s.setChan ch fun c => { c with err := BitVec.ofNat 2 e }

/-- A paused channel goes on from its registers, which may have been written since; what forbids a start keeps it
paused (R297, R300, R301, R303; notes/assumptions/35.md). -/
def State.unpause (s : State) (ch : Nat) : State :=
  let c := s.chan ch
  let e := s.startErr (decide (48 ≤ ch)) c
  if e = 0 then
    (s.setChan ch fun c => { c with paused := false, paced := c.heldAt (s.fillOf c.paceQueue) c.paced }).fetchNext ch
  else s.setChan ch fun c => { c with err := BitVec.ofNat 2 e }

/-- START from software (R297, R304). -/
def State.startChan (s : State) (ch : Nat) : State :=
  let c := s.chan ch
  if c.halt then s
  else if c.busy then (if c.paused then s.unpause ch else s)
  else s.tryLaunch ch

/-- STOP: drain; a channel with nothing in flight is idle at once (R303). -/
def State.stopChan (s : State) (ch : Nat) : State :=
  s.setChan ch fun c =>
    if !c.busy then c
    else if c.paused || c.paced then { c with busy := false, paused := false, paced := false, stopping := false }
    else { c with stopping := true }

/-- Is a channel's register file closed to software (R296, R305)? -/
def State.chanClosed (s : State) (ch : Nat) : Bool := decide (ch < 48) || (s.offloadOn && decide (60 ≤ ch))

/-- A running channel takes no reprogramming (R303). -/
def Chan.running (c : Chan) : Bool := c.busy && !c.paused

/-- The list that a channel follows: its side, space and address. -/
def Chan.listKey (c : Chan) : Option (Bool × Nat × Addr) :=
  if c.sg then some (c.sgDst, if c.sgDst then c.dstSpace else c.srcSpace, if c.sgDst then c.dst else c.src) else none

/-- The registers of a channel change: the list position holds while the list is the same (R303). -/
def Chan.edit (c : Chan) (f : Chan → Chan) : Chan :=
  let d := f c
  { d with sgDone := if d.listKey = c.listKey then c.sgDone else 0 }

/-- Every write to `JM_CTL(n)`; a write that would change a field of a running channel, or start it, is refused whole
(notes/assumptions/28.md). -/
def State.wrCtl (s : State) (port : Mgmt) (ch : Nat) (value : W32) : State :=
  let off := 0x090000 + 0x40 * ch
  s.guarded port off fun s =>
    let c := s.chan ch
    let fields := value &&& 0x0003FFF8
    if s.chanClosed ch then s.reject port off
    else if c.running && (value.getLsbD 0 || fields != c.ctl) then s.reject port off
    else
      let p := value.getLsbD 1
      let s := s.setChan ch fun c =>
        { c.edit fun c => { c with ctl := fields } with pause := p, paused := c.paused || (p && c.busy && c.paced) }
      let s := if value.getLsbD 0 then s.startChan ch
        else if value.getLsbD 2 then s
        else if !p && c.paused then s.unpause ch
        else s.fetchNext ch
      let s := if value.getLsbD 0 && p && (s.chan ch).paced then s.setChan ch fun c => { c with paused := true } else s
      let s := if value.getLsbD 2 then s.stopChan ch else s
      s.ok port

/-- START = 1 (R296, R297). -/
def execMoverStart (port : Mgmt) (ch : BitVec 6) (value : W32) (s : State) : Host.Outcome State Fault Refusal :=
  run (fun s => if value.getLsbD 0 then s.wrCtl port ch.toNat value else s) s

/-- PAUSE = 1 (R303). -/
def execMoverPause (port : Mgmt) (ch : BitVec 6) (value : W32) (s : State) : Host.Outcome State Fault Refusal :=
  run (fun s => if value.getLsbD 1 && !value.getLsbD 0 && !value.getLsbD 2 then s.wrCtl port ch.toNat value else s) s

/-- PAUSE = 0 on a paused channel (R303). -/
def execMoverUnpause (port : Mgmt) (ch : BitVec 6) (value : W32) (s : State) : Host.Outcome State Fault Refusal :=
  run (fun s => if !value.getLsbD 0 && !value.getLsbD 1 && !value.getLsbD 2 && (s.chan ch.toNat).pause then
    s.wrCtl port ch.toNat value else s) s

/-- STOP = 1 (R303). -/
def execMoverStop (port : Mgmt) (ch : BitVec 6) (value : W32) (s : State) : Host.Outcome State Fault Refusal :=
  run (fun s => if value.getLsbD 2 && !value.getLsbD 0 then s.wrCtl port ch.toNat value else s) s

/-- The schedule loads a data-class channel from the Mover parameter table and starts it (R296); a halted channel sets
FAULT (R304). -/
def State.schedMover (s : State) (epoch : BitVec 2) (ch param : Nat) : State :=
  if (s.chan ch).halt then s.fault
  else
    match (s.tables epoch).moverParams[param]? with
    | none => s
    | some m =>
      (s.setChan ch fun c =>
        { c with src := BitVec.ofNat 48 m.src, dst := BitVec.ofNat 48 m.dst, cnt := BitVec.ofNat 32 m.cnt,
                 ctl := m.ctl &&& 0x0003FFF8, pace := m.pace, pause := false, sgDone := 0 }).tryLaunch ch

/-! ### The offload class (R305) -/

/-- Write a completion record. -/
def State.offRecord (s : State) (flag idx status : Nat) : State :=
  if flag = 0 then s else s.hostWrite 0x2E flag (bytesLE 8 (idx % 2 ^ 32 + status * 2 ^ 32))

def State.offList (s : State) (ch : Nat) : OffloadList :=
  match s.decl.offload with
  | some d => d.lists.getD (ch - 60) ⟨0, 0⟩
  | none => ⟨0, 0⟩

def State.offEntry (s : State) (ch : Nat) : Nat := memNat s.hostMem ((s.offList ch).base + 32 * (s.chan ch).offIdx) 32

/-- Does an entry keep the layout and fit the area? -/
def State.offValid (s : State) (ch w : Nat) : Bool :=
  let len := bitsAt w 128 32
  let off := bitsAt w 64 48
  let area := match s.decl.offload with | some d => d.length | none => 0
  decide ((s.chan ch).offIdx < (s.offList ch).entries) && decide (bitsAt w 0 48 % 64 = 0) && decide (off % 64 = 0) &&
    decide (len % 64 = 0) && decide (bitsAt w 192 48 % 8 = 0) && decide (bitsAt w 48 16 = 0) && decide (bitsAt w 112 16 = 0) &&
    decide (bitsAt w 162 30 = 0) && decide (bitsAt w 240 16 = 0) && decide (off + len ≤ area)

/-- Take pending rings of the channel's doorbell; the fuel is their count. -/
def State.offTryN (ch : Nat) : Nat → State → State
  | 0, s => s
  | k + 1, s =>
    let c := s.chan ch
    let d := 4080 + (ch - 60)
    let n := memGet s.jq.db d
    if c.offRun || c.halt || n == 0 then s
    else
      let s := { s with jq := { s.jq with db := memSet s.jq.db d (n - 1) } }
      let w := s.offEntry ch
      if s.offValid ch w then
        let area := match s.decl.offload with | some d => d.base | none => 0
        let s := s.setChan ch fun c => { c with offRun := true, busy := true, err := 0, complete := false, fetch := 0, reads := 0 }
        if bitAt w 160 then s.portRead 0x2E ch true (area + bitsAt w 64 48) (bitsAt w 128 32)
        else s.portRead 0x2E ch false (bitsAt w 0 48) (bitsAt w 128 32)
      else
        let s := s.setChan ch fun c => { c with err := 3 }
        State.offTryN ch k (if bitsAt w 192 48 % 8 = 0 then s.offRecord (bitsAt w 192 48) c.offIdx 2 else s)

def State.offTry (s : State) (ch : Nat) : State := if s.offloadOn then State.offTryN ch 255 s else s

/-- An offload entry is acknowledged: the bytes are in place, the record is written, the next ring may run. -/
def State.offDone (s : State) (ch : Nat) : State :=
  let c := s.chan ch
  if !(s.offloadOn && decide (60 ≤ ch) && c.offRun) then s
  else
    let w := s.offEntry ch
    let host := bitsAt w 0 48
    let area := match s.decl.offload with | some d => d.base | none => 0
    let st := area + bitsAt w 64 48
    let len := bitsAt w 128 32
    let s := if bitAt w 160 then s.spaceWrite ch 0 host (memRead s.stateMem st len)
      else s.spaceWrite ch 1 st (memRead s.hostMem host len)
    let s := s.offRecord (bitsAt w 192 48) c.offIdx 1
    let s := s.setChan ch fun c =>
      { c with offRun := false, busy := false, complete := true, completions := stick c.completions 1,
               offIdx := if bitAt w 161 then 0 else c.offIdx + 1 }
    let s := { s with jm := { s.jm with done := s.jm.done ||| BitVec.ofNat 64 (2 ^ ch) } }
    s.offTry ch

def execOffloadEntryComplete (ch : BitVec 6) (s : State) : Host.Outcome State Fault Refusal := run (fun s => s.offDone ch.toNat) s

/-! ### Completion, drain, bus error -/

/-- A lap is over: DONE, COMPLETIONS, and the reload of a CIRC channel (R302, R304). -/
def State.chanDone (s : State) (ch : Nat) : State :=
  let again := s.jm.done.getLsbD ch
  let s := { s with jm := { s.jm with done := s.jm.done ||| BitVec.ofNat 64 (2 ^ ch) } }
  s.setChan ch fun c =>
    let c := { c with completions := stick c.completions 1, complete := true, sgDone := 0, fetch := 0, reads := 0 }
    if c.circ && decide (48 ≤ ch) then
      { c with src := c.srcAt, dst := c.dstAt, cnt := c.cntAt, overrun := c.overrun || again }
    else { c with busy := false, paused := false, stopping := false, paced := false }

/-- The last write is issued, or acknowledged with BARRIER (R302); a bad list entry ends the list instead (R299). What has
not been read yet is read now, unless pacing lets no new read go (R300). -/
def State.moverComplete (s : State) (ch : Nat) : State :=
  let c := s.chan ch
  let l := s.left c
  if !c.busy || c.paused || c.offRun || (c.paced && decide (c.fetch < l.1)) then s
  else
    let s := s.readPorts ch c.srcSpace (dropPieces c.fetch (s.sidePieces c false l.1))
    let s := (s.moveBytes ch l.1).seeHalf ch l.1 0
    if l.2 then s.setChan ch fun c => { c with busy := false, stopping := false, paced := false, err := 3, fetch := 0, reads := 0 }
    else (s.chanDone ch).fetchNext ch

def execMoverComplete (ch : BitVec 6) (s : State) : Host.Outcome State Fault Refusal := run (fun s => s.moverComplete ch.toNat) s

/-- The reads in flight of a pausing or stopping channel are written: PAUSED, or idle (R303). -/
def State.moverDrained (s : State) (ch : Nat) (moved : Nat) : State :=
  let c := s.chan ch
  if !c.busy || c.paused || c.offRun || !(c.pause || c.stopping) then s
  else
    (s.moveSome ch moved).setChan ch fun c =>
      let c := { c with fetch := 0, reads := 0 }
      if c.stopping then { c with busy := false, stopping := false, paced := false } else { c with paused := true }

def execMoverDrained (ch : BitVec 6) (moved : W32) (s : State) : Host.Outcome State Fault Refusal :=
  run (fun s => s.moverDrained ch.toNat moved.toNat) s

/-- A bus error halts the channel (R304, R305), also one whose last write had gone out before its acknowledgement failed. -/
def State.moverError (s : State) (ch moved addr : Nat) (write : Bool) (status : Nat) : State :=
  let c := s.chan ch
  let s := if c.offRun then s.offRecord (bitsAt (s.offEntry ch) 192 48) c.offIdx 2
    else if c.busy then s.moveSome ch moved
    else s
  let s := s.setChan ch fun c =>
    { c with busy := false, paused := false, stopping := false, paced := false, offRun := false, halt := true,
             faddr := BitVec.ofNat 48 addr, dir := write, status := BitVec.ofNat 2 status, fetch := 0, reads := 0 }
  let s := s.event 0x2E 0x0901 1 [i2 ch, i8 addr, i1 (b2n write), i1 status]
  if ch < 48 then s.fault else s

/-! ### Responses (R293–R295, R353) -/

/-- The port's number in EV_MEM_ERR: HM0–HM7 are 0–7, SP0–SP15 are 8–23 (notes/assumptions/29.md). -/
def portNo : MemPort → Nat
  | .hm n => n.toNat
  | .sp n => 8 + n.toNat

/-- Steps in which the port's errors of the last 1,024 steps came, with the present one. -/
def addHist (p : Nat) (step : Nat) (l : List (Nat × Nat)) : List (Nat × Nat) :=
  (l.filter fun x => decide (step < x.2 + 1024)) ++ [(p, step)]

/-- Count an error of a port, and its failure (R295, R353). -/
def State.portErr (s : State) (p : MemPort) (timeout : Bool) : State :=
  let step := s.jq.step.toNat
  match p with
  | .hm n =>
    let h := addHist n.toNat step s.jm.hmHist
    let s := { s with jm := { s.jm with hmErr := modifyNth (fun c => stick c 1) n.toNat s.jm.hmErr, hmHist := h } }
    if (h.filter fun x => x.1 == n.toNat).length ≥ 16 then s.memberFail 4 else s
  | .sp n =>
    let h := if timeout then s.jm.spHist else addHist n.toNat step s.jm.spHist
    let s := { s with jm := { s.jm with spErr := modifyNth (fun c => stick c 1) n.toNat s.jm.spErr, spHist := h } }
    if timeout || decide ((h.filter fun x => x.1 == n.toNat).length ≥ 16) then s.memberFail 3 else s

/-- A response later than 2 µs on a state port (R294). -/
def State.lateResponse (s : State) (req : MemReq) (refresh : Bool) : State :=
  match req.port with
  | .hm _ => s
  | .sp n =>
    if refresh then
      { s with jm := { s.jm with spLateRef := modifyNth (fun c => stick c 1) n.toNat s.jm.spLateRef,
                                 lateRef := s.jm.lateRef ++ [n.toNat] } }
    else { s with jm := { s.jm with spLate := modifyNth (fun c => stick c 1) n.toNat s.jm.spLate } }

/-- EV_MEM_ERR, FAULT and the port's count for a unit other than the Mover (R295). -/
def State.memError (s : State) (req : MemReq) (status : Nat) : State :=
  s.event req.unit.toNat 0x0902 1
    [i1 (portNo req.port), i2 req.tag.toNat, i8 req.addr.toNat, i1 (b2n req.write), i1 status]

/-- The request that holds a tag of a port. -/
def State.holder (s : State) (p : MemPort) (tag : BitVec 9) : Option PortReq :=
  (s.jm.asked.find? fun a => a.req.port == p && a.tag == tag).map Asked.req

/-- The request that a response or a timeout names: the one that holds the tag, or, for a read that the model does not
drive, the operand's own (notes/assumptions/56.md). -/
def State.named (s : State) (req : MemReq) : MemReq :=
  match s.holder req.port req.tag with
  | some r => { req with unit := r.unit, chan := r.chan, addr := BitVec.ofNat 48 (r.addr.toNat / 64 * 64), write := r.write }
  | none => req

/-- A line of a mask slot that fails its read makes the mask missing (R89, R91). -/
def State.maskDamage (s : State) (req : MemReq) : State :=
  if !isSp req.port || req.write then s
  else
    let a := req.addr.toNat / 512 * 512
    let bad := s.img.catalogue.flatMap fun c => (List.range ((c.groups + c.rowGroups - 1) / c.rowGroups * 4)).filterMap fun k =>
      let m := c.maskSlot (k / 4) (k % 4)
      if m < a + 512 && a < m + maskSlotBytes (c.rowLen (k / 4)) then some m else none
    { s with ji := { s.ji with maskBad := s.ji.maskBad ++ bad.filter fun m => !s.ji.maskBad.contains m } }

def State.memResponse (s : State) (req : MemReq) (status : BitVec 2) (late refresh : Bool) : State :=
  if s.jm.retired.any fun r => r == (req.port, req.tag) then s
  else
    let held := s.holder req.port req.tag
    let req := s.named req
    let st := if status = 3 then 2 else status.toNat
    let s := (if late then s.lateResponse req refresh else s).freePort req.port req.tag
    if st = 0 then
      match held with
      | some r => if r.unit = 0x2E && !r.write then s.readDone r.chan.toNat else s
      | none => s
    else
      let s := (s.portErr req.port false).maskDamage req
      if req.unit = 0x2E then s.moverError req.chan.toNat req.moved.toNat req.addr.toNat req.write st
      else (s.memError req st).fault

/-- A response on an HM or SP port (R292, R294, R295, R304). -/
def execMemResponse (req : MemReq) (status : BitVec 2) (late refresh : Bool) (s : State) : Host.Outcome State Fault Refusal :=
  run (fun s => s.memResponse req status late refresh) s

/-- No response for 1 ms: the tag is retired (R295). -/
def State.memTimeout (s : State) (req : MemReq) : State :=
  if s.jm.retired.any fun r => r == (req.port, req.tag) then s
  else
    let req := s.named req
    let s := { s with jm := { s.jm with retired := s.jm.retired ++ [(req.port, req.tag)] } }
    let s := ((s.freePort req.port req.tag).memError req 3).portErr req.port true
    match req.port with
    | .sp _ => if req.unit = 0x2E then s else s.fault
    | .hm _ =>
      if req.unit = 0x2E then s.moverError req.chan.toNat req.moved.toNat req.addr.toNat req.write 3 else s.fault

def execMemRequestTimeout (req : MemReq) (s : State) : Host.Outcome State Fault Refusal := run (fun s => s.memTimeout req) s

end Sys2Proof.Machine
end

