-- ==== Sys2Proof/Machine/ImageCheck.lean ====
section
/-!
DEFINITION. The checks an image must pass: the header, key-hash fuses, security version, signature, manifest and hashes of
spec/13_image_boot_and_management.md R324–R327, the load checks of the unit chapters (R16, R23, R79, R84, R102, R106,
R124, R142, R154, R167, R178, R201, R216, R217, R296, R307, R315), and the commit records (R328).
-/

namespace Sys2Proof.Machine

/-! ### Header and manifest (R324, R325) -/

def SxiFile.nsect (f : SxiFile) : Nat := leAt f.header 24 2
def SxiFile.imageLen (f : SxiFile) : Nat := leAt f.header 16 4

/-- "SXIMAGE2". -/
def sxiMagic : List Byte := [0x53, 0x58, 0x49, 0x4D, 0x41, 0x47, 0x45, 0x32]

/-- Check 1 of R327: MAGIC, FORMAT and the reserved header bytes. -/
def SxiFile.headerOk (f : SxiFile) : Bool :=
  f.header.length == 256 && f.header.take 8 == sxiMagic && leAt f.header 8 2 == 2 && zeroAt f.header 11 1 &&
    zeroAt f.header 26 6 && zeroAt f.header 161 95

/-- A fuse slot: six words, least significant first (R390), as the 48 bytes of a hash, most significant first. -/
def fuseSlot (fuses : List W64) (slot : Nat) : Nat :=
  (List.range 6).foldl (fun acc k => acc + (fuses.getD (6 * slot + k) 0).toNat * 2 ^ (64 * k)) 0

/-- Check 2 of R327: the key-hash slot. -/
def SxiFile.keyOk (f : SxiFile) (fuses : List W64) : Bool :=
  let slot := leAt f.header 10 1
  decide (slot < 4) && fuseSlot fuses slot != 0 && !(fuses.getD 24 0).getLsbD slot &&
    natBE (sha384 ((f.header.drop 64).take 97)) == fuseSlot fuses slot

/-- Bits set in a thermometer. -/
def onesOf (w : W64) : Nat := ((List.range 64).filter fun i => w.getLsbD i).length

/-- Check 3 of R327: the security version. -/
def SxiFile.versionOk (f : SxiFile) (fuses : List W64) : Bool := decide (onesOf (fuses.getD 25 0) ≤ leAt f.header 12 4)

/-- Check 4 of R327: the signature over header and manifest. -/
def SxiFile.signatureOk (f : SxiFile) : Bool :=
  p384Verify ((f.header.drop 64).take 97) f.signature (sha384 (f.header ++ f.manifest))

/-- The types R326 lets a manifest mark LIVE. -/
def liveTypes : List Nat := [0x02, 0x03, 0x08, 0x09, 0x0A, 0x0C, 0x0E, 0x10, 0x11, 0x12, 0x13, 0x14]

/-- Byte ranges [a, a + n) that do not meet. -/
def apart (a n b m : Nat) : Bool := decide (a + n ≤ b) || decide (b + m ≤ a) || n == 0 || m == 0

/-- A manifest entry is well formed on its own (R325, R326; notes/assumptions/40.md). -/
def ManEntry.ok (m : ManEntry) (imageLen head : Nat) : Bool :=
  m.zeros && bitsAt m.flags.toNat 3 5 == 0 && (m.boot != m.defer) && m.offset % 64 == 0 &&
    decide (m.offset + m.length ≤ imageLen) && apart m.offset m.length 0 head &&
    (!m.live || liveTypes.contains m.typ) && decide (1 ≤ m.typ) && decide (m.typ ≤ 0x15) && (m.typ != 0x14 || m.defer)

/-- Every entry differs from every later one in (TYPE, INDEX) and lies apart from it. -/
def entriesApart : List ManEntry → Bool
  | [] => true
  | m :: rest =>
    (rest.all fun k => !(m.typ == k.typ && m.index == k.index) && apart m.offset m.length k.offset k.length) &&
      entriesApart rest

/-- Every type other than 0x14 appears exactly once with BOOT set (R326). -/
def typesOnce (l : List ManEntry) : Bool :=
  (List.range 0x16).all fun t =>
    t == 0 || t == 0x14 || ((l.filter fun m => m.typ == t).length == 1 && (l.filter fun m => m.typ == t && m.boot).length == 1)

/-- Check 5 of R327: the manifest (R325, R326). -/
def SxiFile.manifestOk (f : SxiFile) : Bool :=
  let l := f.entries
  let head := 256 + 64 * f.nsect + 96
  decide (1 ≤ f.nsect) && decide (f.nsect ≤ 512) && f.manifest.length == 64 * f.nsect && leAt f.header 20 4 == 256 &&
    decide (f.imageLen ≤ 100663296) && decide (leAt f.header 12 4 ≤ 64) &&
    l.all (fun m => m.ok f.imageLen head) && entriesApart l && typesOnce l &&
    decide (((l.filter ManEntry.boot).map ManEntry.length).sum ≤ 96468992)

/-- The section's bytes hash to its HASH (check 6 of R327). -/
def ManEntry.hashOk (m : ManEntry) : Bool := m.bytes.length == m.length && sha384 m.bytes == m.hash

/-- Where a check failed: the cause of R327, and the section TYPE, INDEX and NVM offset that EV_IMAGE_INVALID names. -/
structure ImgFail where
  cause : Nat
  typ : Nat
  index : Nat
  offset : Nat
  deriving DecidableEq, Repr

/-- Checks 1–5 of R327 in order. -/
def SxiFile.fail15 (f : SxiFile) (fuses : List W64) : Option ImgFail :=
  if !f.headerOk then some ⟨2, 0, 0, 0⟩
  else if !f.keyOk fuses then some ⟨3, 0, 0, 0⟩
  else if !f.versionOk fuses then some ⟨4, 0, 0, 0⟩
  else if !f.signatureOk then some ⟨5, 0, 0, 0⟩
  else if !f.manifestOk then some ⟨7, 0, 0, 256⟩
  else none

/-- Check 6 of R327 over some sections, in manifest order. -/
def hashFail (l : List ManEntry) : Option ImgFail :=
  (l.find? fun m => !m.hashOk).map fun m => ⟨6, m.typ, m.index, m.offset⟩

/-! ### Load checks -/

/-- Starts strictly ascending. -/
def rising : List Nat → Bool
  | [] => true
  | [_] => true
  | a :: b :: rest => decide (a < b) && rising (b :: rest)

/-- The unit ids of R16's unit table. -/
def knownUnit (u : Nat) : Bool := decide (u ≤ 0x31) || u == 0x3F

def phaseLen (l : List PhaseDecl) (code : Nat) : Nat := ((l.find? fun p => p.code == code).map PhaseDecl.length).getD 0

/-- The schedule drives the data class only (R296). -/
def OpEnc.dataClass (o : OpEnc) : Bool :=
  match o.work with
  | .mover ch => decide (ch < 48)
  | _ => true

/-- A schedule entry against R16 and R402. -/
def SchedEntry.ok (t : LiveTables) (e : SchedEntry) : Bool :=
  !e.reservedBad && decide (e.phase ≤ 7) && decide (e.gate ≤ 3) && decide (e.dlScale ≤ 2) &&
    !(e.gate == 2 && decide (4016 ≤ e.gateArg) && decide (e.gateArg ≤ 4093)) && knownUnit e.unit &&
    (t.opEncs.any fun o => o.unit == e.unit && o.op == e.op) && (t.opEncs.all fun o => o.dataClass) && decide (e.slotOff < phaseLen t.phases e.phase)

/-- The schedule against R16. -/
def scheduleOk (t : LiveTables) : Bool :=
  t.schedule.all fun e =>
    e.ok t && decide ((t.schedule.filter fun x => x.phase == e.phase && x.slotOff == e.slotOff).length ≤ 64)

/-- Lengths of 1 to 16,777,216 slots (R21). -/
def phasesOk (t : LiveTables) : Bool := t.phases.all fun p => decide (1 ≤ p.length) && decide (p.length ≤ 2 ^ 24)

def domOf (img : RunImage) (d : Nat) : Option DomEntry := img.domains.find? fun e => e.num == d && e.axes != 0

/-- A member of the declared torus stands in a domain's sub-block (R103). -/
def inDomain (img : RunImage) (d member : Nat) : Bool :=
  match domOf img d, img.decl.members.find? fun m => m.id == member with
  | some e, some m => e.contains m.at_
  | _, _ => false

/-- The commit domain and its root (R23). -/
def declOk (img : RunImage) : Bool := inDomain img img.decl.commitDomain img.decl.verdictRoot

/-- A block edge (R166). -/
def CatEntry.blockEdge (c : CatEntry) : Nat := 128 * (c.blockQ + 1)

/-- OWNER and TILE of the chunk that holds a group. -/
def groupHome (img : RunImage) (c : CatEntry) (g : Nat) : Option (Nat × Nat) :=
  (((img.chunks.drop c.chunkMap).take c.chunkCount).find? fun e =>
    decide (e.group0 ≤ g) && decide (g < e.group0 + e.rangeGroups)).map fun e => (e.owner, e.tile)

/-- The groups of block β (R168). -/
def blockGroups (c : CatEntry) (beta : Nat) : List Nat :=
  let b := c.blockEdge
  let per := c.cols / b
  (List.range b).flatMap fun r =>
    (List.range (b / 32)).map fun k => ((beta / per * b + r) * c.cols + beta % per * b) / 32 + k

/-- One OWNER and one TILE for the whole of every block (R167). -/
def blocksOk (img : RunImage) (c : CatEntry) : Bool :=
  let b := c.blockEdge
  (List.range (c.rows / b * (c.cols / b))).all fun beta =>
    match blockGroups c beta with
    | [] => true
    | g :: rest => (groupHome img c g).isSome && rest.all fun x => groupHome img c x == groupHome img c g

/-- The curvature fields of R166 are zero. -/
def CatEntry.noCurvature (c : CatEntry) : Bool :=
  c.blockQ == 0 && !c.p4 && c.factMode == 0 && c.subs == 0 && c.sampN ≤ 1 && c.dampCurve == 0 && c.fcoef == 0 &&
    c.refreshLog2 == 0 && c.phase0 == 0 && c.aShift == 0 && c.gShift == 0

/-- The curvature fields against R167. -/
def curvatureOk (img : RunImage) (t : LiveTables) (c : CatEntry) : Bool :=
  if c.cls != 0 then c.noCurvature
  else
    decide (1 ≤ c.blockQ) && decide (c.blockQ ≤ 31) && decide (4 ≤ c.refreshLog2) && decide (c.refreshLog2 ≤ 15) &&
      decide (c.factMode ≤ 2) && c.rows % c.blockEdge == 0 && c.cols % c.blockEdge == 0 && c.sampN % 2 ^ c.subs == 0 &&
      (c.factMode != 2 || decide (c.sampN / 2 ^ c.subs ≤ 32768)) && (tabGet c.dampCurve t.damping).isSome &&
      (tabGet c.fcoef t.factCoefs).isSome && blocksOk img c

/-- The program that a tensor names (R201). -/
def catProgOk (t : LiveTables) (c : CatEntry) : Bool :=
  match t.progs.find? fun p => p.prog == c.prog with
  | some p => !(p.isBlock && c.cls != 0)
  | none => false

/-- A catalogue entry against R79 and R167. -/
def catOk (img : RunImage) (t : LiveTables) (c : CatEntry) : Bool :=
  !c.reservedBad && decide (c.cls ≤ 2) && decide (c.wire ≤ 1) && decide (c.resFmt ≤ 1) && c.chLen != 0 &&
    c.chLen % 32 == 0 && c.cols % 32 == 0 && decide (c.padCols < 32) && decide (c.padCols < c.cols) &&
    (tabGet c.dcurve t.density).isSome && curvatureOk img t c

/-- A domain-table entry against R102. -/
def domOk (torus : Coord) (d : DomEntry) : Bool :=
  !d.reservedBad && (List.range 3).all fun a =>
    (!d.axes.getLsbD a || d.len a != 1) && decide (d.org a + d.len a ≤ torus.axis a)

/-- A chunk-map entry against R106, within its tensor's mask rows. -/
def chunkOk (img : RunImage) (i : Nat) (e : ChunkEntry) : Bool :=
  !e.reservedBad && e.rangeGroups != 0 && (domOf img e.domain).isSome && inDomain img e.domain e.owner &&
    decide (e.tile ≤ 39) && decide (e.layer < img.gathers.length) &&
    img.catalogue.all fun c =>
      !(decide (c.chunkMap ≤ i) && decide (i < c.chunkMap + c.chunkCount)) ||
        (decide (e.group0 + e.rangeGroups ≤ c.groups) && c.rowOf e.group0 == c.rowOf (e.group0 + e.rangeGroups - 1))

def gatherOk (g : GatherEntry) : Bool :=
  !g.reservedBad && g.doorbell != 0 && g.bufBase % 64 == 0 && g.bufSize % 64 == 0 && g.flagBase % 64 == 0 && g.bufSize != 0

/-- The port of a neighbour shift: a torus port, or an auxiliary port the image declares for another use than the Twin
(R124, R236). -/
def shiftPortOk (d : Decl) (port : Nat) : Bool :=
  decide (port < 6) || (!d.twin && d.peers.any fun p => p.port == port)

def xferOk (img : RunImage) (x : XferEntry) : Bool :=
  !x.reservedBad && (domOf img x.domain).isSome && (x.isPerm || shiftPortOk img.decl x.port)

/-- The OP and TYPE pairs of R142. -/
def redPairOk (op typ : Nat) : Bool :=
  match op with
  | 0 => typ == 2
  | 1 => typ == 2
  | 2 => decide (typ ≤ 2)
  | 3 => decide (typ ≤ 2)
  | 4 => decide (typ ≤ 1)
  | 5 => typ == 0
  | 6 => typ == 3
  | _ => false

/-- The root of a sprint stands at ⌊(n − 1) ÷ 2⌋ on every axis (R154). -/
def sprintRootOk (img : RunImage) (r : RedEntry) : Bool :=
  match domOf img r.domain, img.decl.members.find? fun m => m.id == r.root with
  | some d, some m => (List.range 3).all fun a => d.len a ≤ 1 || m.at_.axis a == d.org a + (d.len a - 1) / 2
  | _, _ => false

/-- A reduction-table entry against R141, R142 and R154. -/
def redOk (img : RunImage) (r : RedEntry) : Bool :=
  !r.reservedBad && decide (r.sprintN ≤ 16384) && decide (16 ≤ r.rid) && decide (r.rid ≤ 4095) && redPairOk r.op r.typ && inDomain img r.domain r.root &&
    (if r.sprint then r.op == 5 && sprintRootOk img r
     else decide (8 ≤ r.wireLen) && decide (r.wireLen ≤ 256) && r.wireLen % 8 == 0)

/-- The density curves (R84). -/
def densityOk (img : RunImage) (t : LiveTables) : Bool :=
  (t.density.all fun c =>
    decide (1 ≤ c.2.length) && decide (c.2.length ≤ 16) && c.2.all (fun b => decide (b.code ≤ 6)) && rising (c.2.map DensBp.start)) &&
  img.catalogue.all fun c => (tabGet c.dcurve t.density).isSome

/-! ### Programs (R201) -/

/-- Is an immediate an infinity or a NaN (R199)? -/
def immBad (w : W32) : Bool := bitsAt w.toNat 7 8 == 255

/-- An instruction word's own form (R197–R199, R201). -/
def codeWordOk (w : W32) : Bool :=
  let n := w.toNat
  let op := bitsAt n 26 6
  let d := bitsAt n 22 4
  let a := bitsAt n 18 4
  let low := bitsAt n 0 18
  let bsel := bitsAt n 16 2
  -- the operations that name b, with C used by FMA, FNMA and SEL only
  let bForm := fun (usesC : Bool) =>
    bsel != 3 && (if bsel == 2 then !immBad w else bitsAt n 0 8 == 0 && (usesC || bitsAt n 8 4 == 0))
  match op with
  | 0x00 => bitsAt n 0 26 == 0
  | 0x01 => a == 0 && bForm false
  | 0x02 | 0x03 | 0x04 | 0x05 | 0x06 | 0x07 | 0x0D => bForm false
  | 0x08 | 0x09 | 0x0E => bForm true
  | 0x0A | 0x0B | 0x0C => low == 0
  | 0x10 => low == 0 && decide (a ≤ 5)
  | 0x11 => low == 0 && (d == 1 || (decide (8 ≤ d) && decide (d ≤ 11)))
  | 0x12 | 0x13 => bitsAt n 15 6 == 0
  | 0x14 | 0x15 => low == 0 && decide (d < 8)
  | 0x16 => low == 0 && decide (a < 8)
  | _ => false

def wOp (w : W32) : Nat := bitsAt w.toNat 26 6
def wD (w : W32) : Nat := bitsAt w.toNat 22 4
def wA (w : W32) : Nat := bitsAt w.toNat 18 4

/-- The words of one part of a pass. -/
def codePart (code : List W32) (start len : Nat) : List W32 := (code.drop start).take len

def PassDir.pro (p : PassDir) (code : List W32) : List W32 := codePart code p.start p.proLen
def PassDir.body (p : PassDir) (code : List W32) : List W32 := codePart code (p.start + p.proLen) p.bodyLen
def PassDir.epi (p : PassDir) (code : List W32) : List W32 := codePart code (p.start + p.proLen + p.bodyLen) p.epiLen
def PassDir.words (p : PassDir) : Nat := p.proLen + p.bodyLen + p.epiLen

/-- May a word of this pass load the stream (R194)? Pass n of the program; pb: the PRE pass has come. -/
def loadOk (blockProg : Bool) (n : Nat) (pb : Bool) (id : Nat) : Bool :=
  match id with
  | 0 => n == 0
  | 1 => blockProg && n != 0
  | 2 => pb
  | 3 | 4 | 5 => true
  | _ => false

/-- May a word of this pass store the stream (R194)? -/
def storeOk (blockProg lean : Bool) (n id : Nat) : Bool :=
  match id with
  | 1 => blockProg && n == 0
  | 8 | 9 | 10 => true
  | 11 => !lean
  | _ => false

/-- One pass against R201; pb: this pass or an earlier one is the PRE pass. -/
def passOk (g : ProgEntry) (lean pb : Bool) (code : List W32) (n : Nat) (p : PassDir) : Bool :=
  let ends := p.pro code ++ p.epi code
  decide (1 ≤ p.bodyLen) && decide (p.start + p.words ≤ 8192) && p.block == (n != 0) && (p.pre || !p.preSplit) &&
    (g.isBlock || (!p.pre && !p.preSplit)) && !(n == 0 && p.pre) &&
    ends.all (fun w => wOp w != 0x10 && wOp w != 0x11) &&
    (p.body code).all (fun w =>
      wOp w != 0x16 && (wOp w != 0x10 || loadOk g.isBlock n pb (wA w)) && (wOp w != 0x11 || storeOk g.isBlock lean n (wD w))) &&
    (g.usesS || (ends ++ p.body code).all fun w => wOp w != 0x12 && wOp w != 0x13)

/-- Stores of a stream in the bodies of a program. -/
def storesOf (g : ProgEntry) (code : List W32) (id : Nat) : Nat :=
  (g.passes.map fun p => ((p.body code).filter fun w => wOp w == 0x11 && wD w == id).length).sum

/-- Passes that accumulate into a register. -/
def accPasses (g : ProgEntry) (code : List W32) (a : Nat) : Nat :=
  (g.passes.filter fun p =>
    (p.pro code ++ p.body code ++ p.epi code).any fun w => (wOp w == 0x14 || wOp w == 0x15) && wD w == a).length

/-- A directory entry against R195 and R201. -/
def progOk (lean : Bool) (code : List W32) (g : ProgEntry) : Bool :=
  let n := g.passes.length
  !g.reservedBad && decide (g.prog ≤ 1023) && (if g.isBlock then decide (2 ≤ n) && decide (n ≤ 4) else n == 1) &&
    decide ((g.passes.filter PassDir.pre).length ≤ 1) &&
    (g.passes.mapIdx fun i p => passOk g lean ((g.passes.take (i + 1)).any PassDir.pre) code i p).all id &&
    [8, 9, 10].all (fun i => storesOf g code i == 1) && storesOf g code 11 == (if lean then 0 else 1) &&
    storesOf g code 1 == (if g.isBlock then 1 else 0) && [0, 1, 2].all fun a => decide (accPasses g code a ≤ 1)

/-- The program directory and code (R201). -/
def programsOk (img : RunImage) (t : LiveTables) : Bool :=
  t.code.all codeWordOk && t.progs.all (progOk img.decl.lean t.code) && img.catalogue.all (catProgOk t)

/-! ### The other live tables -/

/-- Coefficient sets and curves (R216, R217). -/
def coefsOk (t : LiveTables) : Bool :=
  (t.coefSets.all fun s => s.2.all fun e => !e.reservedBad && decide (e.mode ≤ 3) && (e.mode != 1 || (tabGet e.curve t.coefCurves).isSome)) &&
  t.coefCurves.all fun c =>
    decide (1 ≤ c.2.length) && decide (c.2.length ≤ 64) && c.2.all (fun b => !b.reservedBad) && rising (c.2.map CoefBp.start)

/-- Damping curves and factor coefficients (R167, R178). -/
def dampOk (img : RunImage) (t : LiveTables) : Bool :=
  (t.damping.all fun c => !c.2.isEmpty && rising (c.2.map DampBp.start)) &&
  img.catalogue.all fun c => c.cls != 0 || ((tabGet c.dampCurve t.damping).isSome && (tabGet c.fcoef t.factCoefs).isSome)

/-- A Mover parameter-table entry (R296). -/
def moverParamOk (m : MoverParam) : Bool :=
  let ctl := m.ctl.toNat
  let c : Chan := { Chan.reset with ctl := m.ctl, pace := m.pace }
  !m.reservedBad && decide (m.src < 2 ^ 48) && decide (m.dst < 2 ^ 48) && bitsAt ctl 0 3 == 0 && bitsAt ctl 15 17 == 0 &&
    bitsAt m.pace.toNat 5 3 == 0 && decide (c.srcSpace ≤ 4) && decide (c.dstSpace ≤ 4) &&
    (if c.sg then (if c.sgDst then m.dst else m.src) % 16 == 0 else m.cnt % swapLen c.swap == 0) &&
    (!c.paceEn || decide (c.low < c.high))
where
  /-- the multiple R301 asks of a transfer length -/
  swapLen (k : Nat) : Nat := if k = 0 then 1 else if k = 1 then 2 else 4

/-- A prefix-code table (R315); Σ 2^(−len) in units of 2^(−12). -/
def prefixOk (p : PrefixTable) : Bool :=
  !p.reservedBad && decide (p.kind ≤ 1) && decide (p.lens.length ≤ 512) && p.lens.all (fun n => decide (n ≤ 12)) &&
    (p.kind != 1 || (p.lens.drop 256).all (fun n => n == 0)) && p.lens.any (fun n => n != 0) &&
    decide ((p.lens.map fun n => if n = 0 then 0 else 2 ^ (12 - n)).sum ≤ 2 ^ 12)

/-- A codec-region entry against R307 (R314: kind 0 codes BF16, kind 1 codes FP8). -/
def regionOk (t : LiveTables) (r : RegionEntry) : Bool :=
  r.fmt == 3 ||
    (!r.reservedBad && !(r.fmt == 0 && r.slot == 0) &&
      (List.range 4).all (fun n => !r.tmask.getLsbD n ||
        ((tabGet n t.prefixes).map PrefixTable.kind) == some (if r.fmt = 0 then 0 else 1)) &&
      (!r.isSealed || (r.slot == 0 && r.tmask == 0 && r.spill == 0)))

/-- The load check of each live-swappable section type, over one copy of the live tables. -/
def liveCheck (img : RunImage) (t : LiveTables) (typ : Nat) : Bool :=
  match typ with
  | 0x02 => scheduleOk t
  | 0x14 => scheduleOk t
  | 0x03 => phasesOk t && scheduleOk t
  | 0x08 => t.reds.all (redOk img)
  | 0x09 => densityOk img t
  | 0x0A => programsOk img t
  | 0x0C => coefsOk t
  | 0x0E => dampOk img t
  | 0x10 => (List.range 4).all (fun n => (tabGet n t.prefixes).isSome) && t.prefixes.all fun p => decide (p.1 < 4) && prefixOk p.2
  | 0x11 => t.moverParams.all moverParamOk
  | _ => true

/-- The load check of each section type (check 7 of R327). -/
def loadCheck (img : RunImage) (typ : Nat) : Bool :=
  match typ with
  | 0x01 => declOk img
  | 0x04 => img.catalogue.all (catOk img img.live)
  | 0x05 => (img.chunks.mapIdx fun i e => chunkOk img i e).all id
  | 0x06 => img.domains.all (domOk img.decl.torus)
  | 0x07 => img.gathers.all gatherOk && img.xfers.all (xferOk img)
  | 0x0B => img.regionC.length % 256 == 0 && decide (img.regionC.length ≤ 2097152)
  | 0x0F => img.regions.all fun r => decide (r.num < 256) && regionOk img.live r
  | _ => liveCheck img img.live typ

/-- Check 7 of R327 over the BOOT sections, in manifest order. -/
def loadFail (img : RunImage) (l : List ManEntry) : Option ImgFail :=
  (l.find? fun m => !loadCheck img m.typ).map fun m => ⟨8, m.typ, m.index, m.offset⟩

/-- Checks 1–7 of R327 at boot: the first failure. -/
def SxiFile.bootFail (f : SxiFile) (fuses : List W64) : Option ImgFail :=
  match f.fail15 fuses with
  | some x => some x
  | none =>
    let l := f.entries.filter ManEntry.boot
    match hashFail l with
    | some x => some x
    | none => loadFail f.tables l

/-- Checks 1–6 of R327 over a whole file, as IMAGE_WRITE applies them when it reads a bank back (R330). -/
def SxiFile.readBackOk (f : SxiFile) (fuses : List W64) : Bool :=
  (f.fail15 fuses).isNone && (hashFail f.entries).isNone

/-! ### Commit records (R328) -/

/-- What a valid commit record names. -/
structure CommitRec where
  bank : Bool
  seq : Nat
  imageLen : Nat
  mhash : List Byte
  deriving DecidableEq, Repr

/-- A copy of the commit record, if it is valid (R328). -/
def commitRec (l : List Byte) : Option CommitRec :=
  let seq := leAt l 8 8
  if l.length == 128 && leAt l 0 4 == 0x3252434A && leAt l 4 1 == 1 && decide (leAt l 5 1 ≤ 1) && zeroAt l 6 2 &&
      zeroAt l 20 4 && zeroAt l 72 52 && (crc32c (l.take 124)).toNat == leAt l 124 4 && decide (1 ≤ seq) &&
      decide (seq ≤ 2 ^ 64 - 2) then
    some ⟨leAt l 5 1 == 1, seq, leAt l 16 4, (l.drop 24).take 48⟩
  else none

/-- The 128 bytes of a commit record. -/
def CommitRec.pack (r : CommitRec) : List Byte :=
  let l := bytesLE 4 0x3252434A ++ [1, if r.bank then 1 else 0, 0, 0] ++ bytesLE 8 r.seq ++ bytesLE 4 r.imageLen ++
    [0, 0, 0, 0] ++ r.mhash ++ List.replicate 52 0
  l ++ bytesLE 4 (crc32c l).toNat

/-- An erased copy. -/
def erasedRecord : List Byte := List.replicate 128 0xFF

/-- The boot copy (R329): the valid copy with the higher SEQ, CR0 when they are equal; true = CR1. -/
def bootCopy (nvm : NvmBlock) : Option (Bool × CommitRec) :=
  match commitRec nvm.cr0, commitRec nvm.cr1 with
  | some a, some b => if a.seq < b.seq then some (true, b) else some (false, a)
  | some a, none => some (false, a)
  | none, some b => some (true, b)
  | none, none => none

def NvmBlock.bank (n : NvmBlock) (b : Bool) : Option SxiFile := if b then n.bankB else n.bankA

def NvmBlock.setBank (n : NvmBlock) (b : Bool) (f : Option SxiFile) : NvmBlock :=
  if b then { n with bankB := f } else { n with bankA := f }

def NvmBlock.setRecord (n : NvmBlock) (cr1 : Bool) (l : List Byte) : NvmBlock :=
  if cr1 then { n with cr1 := l } else { n with cr0 := l }

/-- NVM address of a bank (R323). -/
def bankBase (b : Bool) : Nat := if b then 0x06100000 else 0x00100000

/-- SHA-384 of a bank's header and manifest (R328). -/
def SxiFile.mhash (f : SxiFile) : List Byte := sha384 (f.header ++ f.manifest)

end Sys2Proof.Machine
end

