-- ==== Sys2Proof/Machine/Net.lean ====
section
/-!
DEFINITION. Scale-out RDMA (spec/10_scale_out_rdma.md R266–R285): queue contexts, the requester and the responder, PFC,
congestion control, on-demand paging, and the meanings of the Ethernet and RDMA commands.
-/

namespace Sys2Proof.Machine

/-! ### Queue contexts (R271) -/

/-- Bytes lo to lo + n − 1 of a context as a number. -/
def ctxNat (b : List Byte) (lo n : Nat) : Nat := natLE ((b.drop lo).take n)

def ctxZero (b : List Byte) (lo n : Nat) : Bool := ctxNat b lo n == 0

/-- The size named by MTU. -/
def mtuBytes (code : Nat) : Nat := 1024 * 2 ^ code

/-- The context's state and fields; none when a reserved value or byte is not as it must be. -/
def parseCtx (b : List Byte) : Option (Nat × QpCtx) :=
  let flags := ctxNat b 2 1
  let r := ctxNat b 42 1
  let tmo := ctxNat b 43 1
  let c : QpCtx :=
    { eport := BitVec.ofNat 1 (ctxNat b 1 1), ipv6 := bitAt flags 0, relaxed := bitAt flags 1, odpRnr := bitAt flags 2,
      ccEn := bitAt flags 3, prio := BitVec.ofNat 3 (ctxNat b 3 1), destQpn := BitVec.ofNat 24 (ctxNat b 4 3),
      sqPsn := BitVec.ofNat 24 (ctxNat b 8 3), rqPsn := BitVec.ofNat 24 (ctxNat b 12 3),
      dmac := BitVec.ofNat 48 (ctxNat b 16 6), vlan := BitVec.ofNat 12 (ctxNat b 22 2),
      dip := BitVec.ofNat 128 (ctxNat b 24 16), dscp := BitVec.ofNat 6 (ctxNat b 40 1),
      mtu := mtuBytes (ctxNat b 41 1), retry := r % 8, rnrRetry := r / 16 % 8, timeout := tmo,
      rnrTimer := BitVec.ofNat 16 (ctxNat b 44 2), sqBase := ctxNat b 48 6, sqLog2 := ctxNat b 54 1,
      rqBase := ctxNat b 56 6, rqLog2 := ctxNat b 62 1, cqBase := ctxNat b 64 6, cqLog2 := ctxNat b 70 1,
      wMax := ctxNat b 72 4 }
  let logOk := fun n => decide (4 ≤ n) && decide (n ≤ 16)
  let ok := decide (ctxNat b 0 1 ≤ 2) && decide (ctxNat b 1 1 ≤ 1) && decide (flags < 16) && decide (ctxNat b 3 1 < 8) &&
    ctxZero b 7 1 && ctxZero b 11 1 && ctxZero b 15 1 && decide (ctxNat b 22 2 < 4096) && decide (ctxNat b 40 1 < 64) &&
    decide (ctxNat b 41 1 ≤ 2) && decide (c.retry ≠ 0) && decide (r / 8 % 2 = 0) && decide (r / 128 = 0) &&
    decide (1 ≤ tmo) && decide (tmo ≤ 20) && ctxZero b 46 2 && decide (c.sqBase % 64 = 0) && logOk c.sqLog2 && ctxZero b 55 1 &&
    logOk c.rqLog2 && ctxZero b 63 1 && logOk c.cqLog2 && ctxZero b 71 1 && decide (c.mtu ≤ c.wMax) &&
    decide (c.wMax ≤ 2 ^ 24) && ctxZero b 76 52
  if ok then some (ctxNat b 0 1, c) else none

def QpCtx.zero : QpCtx :=
  { eport := 0, ipv6 := false, relaxed := false, odpRnr := false, ccEn := false, prio := 0, destQpn := 0, sqPsn := 0,
    rqPsn := 0, dmac := 0, vlan := 0, dip := 0, dscp := 0, mtu := 1024, retry := 1, rnrRetry := 0, timeout := 1,
    rnrTimer := 0, sqBase := 0, sqLog2 := 4, rqBase := 0, rqLog2 := 4, cqBase := 0, cqLog2 := 4, wMax := 1024 }

/-- A queue as a context load leaves it. -/
def freshQueue (num : Nat) (state : BitVec 2) (c : QpCtx) (wInit : Nat) (count : W32) : Queue :=
  { num := num, state := state, ctx := c, sqPi := 0, sqCi := 0, rqPi := 0, rqCi := 0, cqCount := 0, posted := [],
    ops := [], nextPsn := c.sqPsn, expPsn := c.rqPsn, nakFor := none, tries := 0, rnrTries := 0, rnrWait := false,
    window := if c.ccEn then wInit * c.mtu else c.wMax, carry := 0, halvedAt := none, completions := count,
    stalled := false, msgBytes := 0, msgVa := 0, msgKey := 0 }

/-! ### Completions (R272, R273) -/

/-- Write a completion entry; the phase bit starts at 1 and inverts on each lap (notes/assumptions/24.md). -/
def State.writeCqe (s : State) (q : Queue) (wrId : W64) (bytes : Nat) (imm : W32) (status opcode : Nat) : State × Queue :=
  let n := 2 ^ q.ctx.cqLog2
  let addr := q.ctx.cqBase + 32 * (q.cqCount % n)
  let phase := 1 - q.cqCount / n % 2
  let e := bytes64 wrId ++ bytesLE 4 bytes ++ bytes32 imm ++ bytesLE 2 q.num ++ bytesLE 1 status ++ bytesLE 1 opcode
    ++ List.replicate 11 0 ++ bytesLE 1 phase
  (s.hostWrite 0x30 addr e, { q with cqCount := q.cqCount + 1 })

/-- The running EXPORT command ends (R343). -/
def State.exportEnds (s : State) (q : Nat) (result : Nat) : State :=
  if s.je.exports.any fun e => e.queue == q && !e.done then
    let s := { s with je := { s.je with exports := s.je.exports.map fun e => if e.queue = q then { e with done := true } else e } }
    if s.js.cmd.busy && s.js.cmd.code == 0x07 then
      { s with js := { s.js with cmd := { s.js.cmd with outcome := some (BitVec.ofNat 3 result) } } }
    else s
  else s

/-- One send-ring entry completes with a status: the count always rises (R273). -/
def State.completeEntry (s : State) (q : Queue) (e : SqEntry) (status : Nat) : State × Queue :=
  let q := { q with completions := q.completions + 1 }
  let s := if e.exportLast then s.exportEnds q.num (if status = 0 then 0 else 6) else s
  if e.signal then s.writeCqe q e.wrId e.length e.imm status e.opcode else (s, q)

/-! ### Send-ring entries (R272) -/

def parseSq (b : List Byte) : SqEntry :=
  let w := natLE b
  { opcode := bitsAt w 0 3, signal := bitAt w 3, isFinal := bitAt w 4, wait := bitAt w 5, lspace := bitsAt w 6 2,
    length := bitsAt w 32 32, laddr := bitsAt w 64 48, raddr := BitVec.ofNat 64 (bitsAt w 128 64),
    rkey := BitVec.ofNat 32 (bitsAt w 192 32), imm := BitVec.ofNat 32 (bitsAt w 224 32), waitQ := bitsAt w 256 16,
    waitCount := BitVec.ofNat 32 (bitsAt w 288 32), wrId := BitVec.ofNat 64 (bitsAt w 320 64), inline := none,
    exportLast := false }

/-- The entry at the head of a queue: one posted by EXPORT, else the next of the send ring. -/
def State.headEntry (s : State) (q : Queue) : Option SqEntry :=
  match q.posted with
  | e :: _ => some e
  | [] =>
    if q.sqCi = q.sqPi then none
    else some (parseSq (memRead s.hostMem (q.ctx.sqBase + 64 * (q.sqCi.toNat % 2 ^ q.ctx.sqLog2)) 64))

def Queue.takeHead (q : Queue) : Queue :=
  match q.posted with
  | _ :: rest => { q with posted := rest }
  | [] => { q with sqCi := q.sqCi + 1 }

/-- The chain condition (R280). -/
def State.chainHolds (s : State) (e : SqEntry) : Bool :=
  let c := match s.queue e.waitQ with | some x => x.completions | none => 0
  !e.wait || !(c - e.waitCount).getLsbD 31

/-- Does the queue's next entry wait on its chain condition, whatever else holds the queue (R280)? -/
def State.chainWaits (s : State) (q : Queue) : Bool :=
  q.state == 1 && match s.headEntry q with | some e => !s.chainHolds e | none => false

def Queue.packetsOf (q : Queue) (e : SqEntry) : Nat := max 1 ((e.length + q.ctx.mtu - 1) / q.ctx.mtu)

/-- Payload bytes of packet i of an entry. -/
def Queue.packetLen (q : Queue) (e : SqEntry) (i : Nat) : Nat := min q.ctx.mtu (e.length - i * q.ctx.mtu)

/-- Bytes sent and not yet acknowledged; READ bytes requested count as sent (R276). -/
def Queue.outstanding (q : Queue) : Nat :=
  q.ops.foldl (fun a o =>
    if o.entry.opcode = 4 then a + (if o.sent > 0 then o.entry.length - o.got else 0)
    else a + ((List.range (o.sent - o.acked)).map fun i => q.packetLen o.entry (o.acked + i)).foldl (· + ·) 0) 0

/-- Operations in flight on all queues (R273). -/
def State.opsInFlight (s : State) : Nat :=
  s.je.queues.foldl (fun a q => a + (q.ops.filter SqOp.started).length) 0

/-- The packet kind of packet i of n (R266). -/
def packetOp (opcode i n : Nat) : RoceOp :=
  let only := n = 1
  let first := i = 0
  let last := i + 1 = n
  match opcode with
  | 0 => if only then .sendOnly else if first then .sendFirst else if last then .sendLast else .sendMiddle
  | 1 => if only then .sendOnlyImm else if first then .sendFirst else if last then .sendLastImm else .sendMiddle
  | 2 => if only then .writeOnly else if first then .writeFirst else if last then .writeLast else .writeMiddle
  | 3 => if only then .writeOnlyImm else if first then .writeFirst else if last then .writeLastImm else .writeMiddle
  | _ => .readReq

/-- The bytes of packet i: inline data, host memory or state tier. -/
def State.packetBytes (s : State) (q : Queue) (e : SqEntry) (i : Nat) : List Byte :=
  let n := q.packetLen e i
  let off := i * q.ctx.mtu
  match e.inline with
  | some b => (b.drop off).take n
  | none => if e.lspace = 1 then memRead s.stateMem (e.laddr + off) n else memRead s.hostMem (e.laddr + off) n

/-- May a port send frames of a priority now (R274, R281, R283)? -/
def EthPort.maySend (p : EthPort) (prio : BitVec 3) : Bool := p.state == 2 && !p.paused.getLsbD prio.toNat

/-- Send a RoCE packet, or hold it while the link is lost or its priority is paused (R274, R281). -/
def State.emitRoce (s : State) (q : Queue) (pkt : RoceOut) : State :=
  let n := q.ctx.eport.toNat
  if (s.eth n).maySend q.ctx.prio then s.emit (.roce n q.num pkt)
  else s.setEth n fun p => { p with txHeld := p.txHeld ++ [(q.ctx.prio, .roce n q.num pkt)] }

/-- A queue's held request packets are given up: the queue sends them again, or no more (R275, R281). -/
def State.dropTx (s : State) (num : Nat) : State :=
  { s with je := { s.je with ports := s.je.ports.map fun p => { p with txHeld := p.txHeld.filter fun x => match x.2 with
    | .roce _ n (.request ..) => n != num
    | _ => true } } }

/-- Let go what a port held, once it may be sent. -/
def State.releaseEth (s : State) (n : Nat) : State :=
  let p := s.eth n
  let go := p.txHeld.filter fun x => p.maySend x.1
  let s := s.setEth n fun p => { p with txHeld := p.txHeld.filter fun x => !p.maySend x.1 }
  { s with out := s.out ++ go.map Prod.snd }

def State.emitRequest (s : State) (q : Queue) (o : SqOp) (i : Nat) : State :=
  let e := o.entry
  let n := o.packets
  let payload := if e.opcode = 4 then [] else s.packetBytes q e i
  let s := if e.opcode = 4 || e.inline.isSome then s
    else s.portRead 0x30 0 (e.lspace == 1) (e.laddr + i * q.ctx.mtu) (q.packetLen e i)
  s.emitRoce q
    (.request (packetOp e.opcode i n) (o.psn + BitVec.ofNat 24 i) e.raddr e.rkey e.length e.imm
      (e.opcode == 4 || i + 1 == n) payload)

/-! ### Errors (R275, R285) -/

/-- Complete every remaining entry of the send ring as flushed, in ring order; fuel bounds the ring. -/
def State.flushRing : Nat → State × Queue → State × Queue
  | 0, x => x
  | k + 1, x =>
    match x.1.headEntry x.2 with
    | none => x
    | some e => State.flushRing k (x.1.completeEntry x.2.takeHead e 1)

/-- Complete the operations in flight: the first with a status, the rest flushed. -/
def State.flushOps : List SqOp → Nat → State × Queue → State × Queue
  | [], _, x => x
  | o :: rest, status, x => State.flushOps rest 1 (x.1.completeEntry x.2 o.entry status)

/-- The queue moves to ERROR: the failed entry completes with its status, every later one flushed in ring order. -/
def State.queueError (s : State) (q : Queue) (cause status : Nat) : State :=
  let y := State.flushRing (65536 + q.posted.length) (State.flushOps q.ops status (s, q))
  let wr := match q.ops with | o :: _ => o.entry.wrId.toNat | [] => 0
  let psn := match q.ops with | o :: _ => (o.psn + BitVec.ofNat 24 o.acked).toNat | [] => q.nextPsn.toNat
  let s := (y.1.setQueue { y.2 with state := 2, ops := [], rnrWait := false, stalled := false }).dropTx q.num
  let s := s.exportEnds q.num 6
  let s := { s with je := { s.je with
    errQueue := BitVec.ofNat 16 q.num, errCause := BitVec.ofNat 3 cause, errValid := true, errCount := stick s.je.errCount 1,
    parked := s.je.parked.filter fun p => p.queue != q.num } }
  s.event 0x30 0x0801 1 [i2 q.num, i1 cause, i4 psn, i8 wr]

/-! ### The requester -/

/-- What the requester can do next on a queue. -/
inductive SqNext where
  /-- nothing may be sent now -/
  | wait
  /-- take the head entry into flight -/
  | take (e : SqEntry)
  /-- send the next packet of operation n -/
  | send (n : Nat) (o : SqOp)
  /-- the head entry is not one of R272 (notes/assumptions/25.md) -/
  | bad (e : SqEntry)

/-- An entry with a reserved OPCODE or LSPACE, or LENGTH above 2^31. -/
def SqEntry.bad (e : SqEntry) : Bool := decide (e.opcode > 4) || decide (e.lspace > 1) || decide (e.length > 2 ^ 31)

/-- May the operation send its first packet: the limits of R273, and FINAL of R279? -/
def State.mayStart (s : State) (q : Queue) (n : Nat) (o : SqOp) : Bool :=
  decide (s.opsInFlight < 4096) &&
    (o.entry.opcode != 4 || decide ((q.ops.filter fun x => x.entry.opcode == 4 && x.started).length < 16)) &&
    (!(o.entry.isFinal && (o.entry.opcode == 1 || o.entry.opcode == 3)) || n == 0)

/-- Does the window leave room for the operation's next packet (R276)? -/
def Queue.fits (q : Queue) (o : SqOp) : Bool :=
  decide (q.outstanding + (if o.entry.opcode = 4 then 0 else q.packetLen o.entry o.sent) ≤ q.window)

def State.nextSq (s : State) (q : Queue) : SqNext :=
  if q.state ≠ 1 ∨ q.rnrWait ∨ !(s.eth q.ctx.eport.toNat).maySend q.ctx.prio then .wait
  else
    match q.ops.findIdx? fun o => decide (o.sent < o.packets) with
    | some n =>
      match q.ops[n]? with
      | some o => if (o.started || s.mayStart q n o) && q.fits o then .send n o else .wait
      | none => .wait
    | none =>
      match s.headEntry q with
      | none => .wait
      | some e =>
        if e.bad then (if q.ops.isEmpty then .bad e else .wait)
        else if !s.chainHolds e then .wait
        else .take e

/-- The packets of an entry: one request for a READ, whose responses take the PSNs. -/
def Queue.opOf (q : Queue) (e : SqEntry) : SqOp :=
  { entry := e, psn := q.nextPsn, packets := if e.opcode = 4 then 1 else q.packetsOf e, started := false, sent := 0, acked := 0, got := 0 }

/-- Send what may be sent on a queue (R273, R276, R279, R280). -/
def State.kickN : Nat → Nat → State → State
  | 0, _, s => s
  | k + 1, num, s =>
    match s.queue num with
    | none => s
    | some q =>
      match s.nextSq q with
      | .wait => s
      | .take e =>
        State.kickN k num (s.setQueue { q.takeHead with
          ops := q.ops ++ [q.opOf e], nextPsn := q.nextPsn + BitVec.ofNat 24 (q.packetsOf e) })
      | .send n o =>
        State.kickN k num ((s.emitRequest q o o.sent).setQueue
          { q with ops := modifyNth (fun x => { x with sent := x.sent + 1, started := true }) n q.ops })
      | .bad e => s.queueError { q.takeHead with ops := [q.opOf e] } 5 5

/-- The window holds at most 2^24 bytes, so a queue sends fewer than 2^16 packets in a row. -/
def State.kick (s : State) (num : Nat) : State := State.kickN 65536 num s

/-- Retest every queue that has something to send, in ascending number (R280); again for what that completes. -/
def State.kickRounds : Nat → State → State
  | 0, s => s
  | k + 1, s => State.kickRounds k (s.je.queues.foldl (fun s q => s.kick q.num) s)

def State.kickAll (s : State) : State := State.kickRounds (s.je.queues.length + 1) s

/-- PSN a is at or after b on the 24-bit circle. -/
def psnAtOrAfter (a b : BitVec 24) : Bool := decide ((a - b).toNat < 2 ^ 23)

/-- Packets of an operation that a cumulative acknowledgement of psn covers. -/
def SqOp.covered (o : SqOp) (psn : BitVec 24) : Nat :=
  if psnAtOrAfter psn o.psn then min o.sent ((psn - o.psn).toNat + 1) else 0

/-- Bytes that rise from acked to k packets. -/
def Queue.bytesTo (q : Queue) (o : SqOp) (k : Nat) : Nat :=
  ((List.range (k - o.acked)).map fun i => q.packetLen o.entry (o.acked + i)).foldl (· + ·) 0

/-- Take an acknowledgement into the operations, from the oldest; it stops at a READ whose data has not come. Answers
the bytes it covers. -/
def Queue.ackOps (q : Queue) (psn : BitVec 24) : List SqOp → Nat × List SqOp
  | [] => (0, [])
  | o :: rest =>
    if o.entry.opcode = 4 then (0, o :: rest)
    else
      let k := max o.acked (o.covered psn)
      let r := if k = o.packets then q.ackOps psn rest else (0, rest)
      (q.bytesTo o k + r.1, { o with acked := k } :: r.2)

/-- Window growth for a bytes acknowledged (R276). -/
def Queue.grow (q : Queue) (a : Nat) : Queue :=
  if q.ctx.ccEn && decide (a > 0) then
    let t := q.ctx.mtu * a + q.carry
    { q with window := min (q.window + t / q.window) q.ctx.wMax, carry := t % q.window }
  else q

/-- Is the operation complete: every packet acknowledged, or the READ's data all here? -/
def SqOp.finished (o : SqOp) : Bool :=
  if o.entry.opcode = 4 then o.started && o.acked == 1 else o.acked == o.packets

/-- Complete the finished operations at the head, in order. -/
def State.retireOps : Nat → State × Queue → State × Queue
  | 0, x => x
  | k + 1, x =>
    match x.2.ops with
    | o :: rest =>
      if o.finished then State.retireOps k (x.1.completeEntry { x.2 with ops := rest } o.entry 0) else x
    | [] => x

/-- An acknowledgement of every PSN up to psn (R275, R276). -/
def State.ackUpTo (s : State) (q : Queue) (psn : BitVec 24) : State × Queue :=
  let r := q.ackOps psn q.ops
  let q := { q with ops := r.2, tries := if r.1 > 0 then 0 else q.tries, rnrTries := if r.1 > 0 then 0 else q.rnrTries,
                    halvedAt := match q.halvedAt with
                      | some h => if psnAtOrAfter psn h then none else some h
                      | none => none }
  State.retireOps q.ops.length (s, q.grow r.1)

/-- Go back to the first unacknowledged packet (R275). -/
def Queue.goBack (q : Queue) : Queue :=
  { q with ops := q.ops.map fun o => if o.entry.opcode = 4 then { o with sent := o.acked, got := 0 } else { o with sent := o.acked } }

/-- One more try: resend, or ERROR past the retry limit (R275). -/
def State.retryQueue (s : State) (q : Queue) : State :=
  let n := q.tries + 1
  if n > q.ctx.retry then s.queueError q 2 2
  else ((s.dropTx q.num).setQueue { q.goBack with tries := n }).kick q.num

/-! ### Doorbells (R270, R271, R285) -/

/-- JE_SQ_DB with CTX = 1 (R271). -/
def State.loadCtx (s : State) (port : Mgmt) (num : Nat) : State :=
  let b := memRead s.hostMem (s.img.rdma.ctxBase + 128 * num) 128
  let s := s.portRead 0x30 0 false (s.img.rdma.ctxBase + 128 * num) 128
  let old := s.queue num
  let rts := match old with | some q => q.state == 1 | none => false
  if rts && ctxNat b 0 1 != 0 then s.reject port 0x080000
  else
    let count := match old with | some q => q.completions | none => 0
    match parseCtx b with
    | some (st, c) =>
      (((s.setQueue (freshQueue num (BitVec.ofNat 2 st) c s.je.wInit.toNat count)).exportEnds num 6).dropTx num).ok port
    | none =>
      let q := match old with | some q => q | none => freshQueue num 0 QpCtx.zero 1 0
      (s.queueError q 1 1).ok port

/-- Every write to the control word of JE_SQ_DB. -/
def State.wrSqDb (s : State) (port : Mgmt) (value : W32) : State :=
  let num := value.toNat % 65536
  s.guarded port 0x080000 fun s =>
    if value.getLsbD 16 then (s.loadCtx port num).kickAll
    else if num ≥ 61440 then s.reject port 0x080000
    else
      match s.queue num with
      | none => s.ok port
      | some q =>
        if value.getLsbD 17 then (s.setQueue { q with rqPi := s.je.pi }).ok port
        else
          let q := { q with sqPi := s.je.pi }
          if q.state = 2 then
            let y := State.flushRing 65536 (s, q)
            ((y.1.setQueue y.2).kickAll).ok port
          else ((s.setQueue q).kickAll).ok port

/-- Reads the queue's context (R271). -/
def execQpContextLoad (port : Mgmt) (value : W32) (s : State) : Host.Outcome State Fault Refusal :=
  run (fun s => if value.getLsbD 16 then s.wrSqDb port value else s) s

/-- Posts the send-ring producer index (R272). -/
def execSqDoorbell (port : Mgmt) (value : W32) (s : State) : Host.Outcome State Fault Refusal :=
  run (fun s => if !value.getLsbD 16 && !value.getLsbD 17 then s.wrSqDb port value else s) s

/-- Posts the receive-ring producer index (R285). -/
def execRqDoorbell (port : Mgmt) (value : W32) (s : State) : Host.Outcome State Fault Refusal :=
  run (fun s => if !value.getLsbD 16 && value.getLsbD 17 then s.wrSqDb port value else s) s

/-! ### Received frames (R267–R269, R274, R283) -/

/-- A NAK for the expected PSN, once for each (R269, R275). -/
def State.nakOnce (s : State) (q : Queue) : State :=
  if q.nakFor = some q.expPsn then s
  else (s.emitRoce q (.nak q.expPsn .psnSequence)).setQueue { q with nakFor := some q.expPsn }

/-- The priority's use of the receive buffer, and the XOFF or XON that follows (R274). -/
def State.bufferUse (s : State) (e : Nat) (prio : BitVec 3) (kib : Nat) : State :=
  let p := s.eth e
  let i := prio.toNat
  let s := s.setEth e fun p => { p with fill := modifyNth (fun _ => kib) i p.fill }
  if kib > p.xoff.toNat ∧ !p.xoffSent.getLsbD i then
    (s.setEth e fun p => { p with xoffSent := p.xoffSent ||| BitVec.ofNat 8 (2 ^ i) }).emit (.pfc e i true)
  else if kib + 64 < p.xoff.toNat ∧ p.xoffSent.getLsbD i then
    (s.setEth e fun p => { p with xoffSent := p.xoffSent &&& ~~~ BitVec.ofNat 8 (2 ^ i) }).emit (.pfc e i false)
  else s

/-- The queue of a port that a received header names, if it is connected. -/
def State.connected (s : State) (e : Nat) (qpn : BitVec 24) : Option Queue :=
  if qpn.toNat < 0x100000 then none
  else
    match s.queue (qpn.toNat - 0x100000) with
    | some q => if q.state = 1 ∧ q.ctx.eport.toNat = e then some q else none
    | none => none

/-- The MAC's checks of a RoCE frame (R266–R269, R283), the use of the receive buffer (R274), then what a connected queue of the port does
with it. -/
def State.macIn (s : State) (e : Nat) (i : EthIn) (qpn : BitVec 24) (f : State → Queue → State) : State :=
  let p := s.eth e
  let bump := fun (f : EthPort → EthPort) => s.setEth e f
  if p.state = 0 then s
  else if !s.je.loaded then bump fun p => { p with cntEarly := stick p.cntEarly 1 }
  else if i.len < 64 ∨ i.len > 9216 then
    let s := bump fun p => { p with cntSize := stick p.cntSize 1 }
    match s.connected e qpn with
    | some q => if i.parses then s.nakOnce q else s
    | none => s
  else if !i.fcsOk then bump fun p => { p with cntFcs := stick p.cntFcs 1 }
  else if !i.supported || !i.parses || i.dmac != (s.img.rdma.ports.map EthDecl.mac).getD e 0 then
    bump fun p => { p with cntUnsup := stick p.cntUnsup 1 }
  else
    let s := s.bufferUse e i.pcp i.fillKiB
    if !i.icrcOk then s
    else
      match s.connected e qpn with
      | none => s
      | some q => f s q

/-! ### Packets received by the requester -/

/-- Completes what is acknowledged and grows the window (R273, R275, R276). -/
def execRoceAck (rx : EthRx) (qpn psn : BitVec 24) (s : State) : Host.Outcome State Fault Refusal :=
  run (fun s => s.macIn rx.eport.toNat rx.mac qpn fun s q =>
    let y := s.ackUpTo q psn
    (y.1.setQueue y.2).kickAll) s

def State.nakIn (s : State) (q : Queue) (psn : BitVec 24) (code : NakCode) : State :=
  let y := s.ackUpTo q (psn - 1)
  match code with
  | .psnSequence => (y.1.retryQueue y.2).kickAll
  | .remoteAccess => (y.1.queueError y.2 4 3).kickAll

/-- Resends from the first unacknowledged PSN (R275), or fails the entry on a remote access error (R277, R285). -/
def execRoceNak (rx : EthRx) (qpn psn : BitVec 24) (code : NakCode) (s : State) : Host.Outcome State Fault Refusal :=
  run (fun s => s.macIn rx.eport.toNat rx.mac qpn fun s q => s.nakIn q psn code) s

def State.rnrIn (s : State) (q : Queue) (psn : BitVec 24) : State :=
  let y := s.ackUpTo q (psn - 1)
  let q := y.2
  let n := q.rnrTries + 1
  if q.ctx.rnrRetry ≠ 7 ∧ n > q.ctx.rnrRetry then (y.1.queueError q 3 4).kickAll
  else ((y.1.dropTx q.num).setQueue { q.goBack with rnrTries := n, rnrWait := true }).kickAll

/-- The requester resends after the timer (R277); past the RNR retry limit the queue moves to ERROR (R285). The timer's
value only sets when RNR_TIMER_EXPIRY comes. -/
def execRnrNak (rx : EthRx) (qpn psn : BitVec 24) (_timer : BitVec 5) (s : State) : Host.Outcome State Fault Refusal :=
  run (fun s => s.macIn rx.eport.toNat rx.mac qpn fun s q => s.rnrIn q psn) s

/-- Write READ data at its place (R272). -/
def State.placeRead (s : State) (e : SqEntry) (off : Nat) (b : List Byte) : State :=
  if e.lspace = 1 then s.stateWrite 0x30 (e.laddr + off) b else s.hostWrite 0x30 (e.laddr + off) b

def State.readIn (s : State) (q : Queue) (psn : BitVec 24) (b : List Byte) (last : Bool) : State :=
  match q.ops.find? fun o => o.entry.opcode == 4 && o.acked == 0 && decide (o.sent > 0) with
  | none => s
  | some o =>
    if psn ≠ o.psn + BitVec.ofNat 24 (o.got / q.ctx.mtu) then s
    else
      let y := s.ackUpTo q (o.psn - 1)
      let s := y.1
      let q := y.2
      match q.ops with
      | [] => s.setQueue q
      | r :: rest =>
        if r.psn ≠ o.psn then s.setQueue q
        else if b.length ≠ q.packetLen r.entry (r.got / q.ctx.mtu) || last != decide (r.got + b.length = r.entry.length) then
          (s.queueError q 5 5).kickAll
        else
          let s := s.placeRead r.entry r.got b
          let r := { r with got := r.got + b.length, acked := if last then 1 else 0 }
          let q := ({ q with ops := r :: rest, tries := 0, rnrTries := 0 }).grow b.length
          let q := match q.halvedAt with
            | some h => if psnAtOrAfter psn h then { q with halvedAt := none } else q
            | none => q
          let y := State.retireOps q.ops.length (s, q)
          (y.1.setQueue y.2).kickAll

/-- Places READ data and completes the READ (R273). -/
def execReadResponse (rx : EthRx) (qpn psn : BitVec 24) (b : List Byte) (last : Bool) (s : State) :
    Host.Outcome State Fault Refusal :=
  run (fun s => s.macIn rx.eport.toNat rx.mac qpn fun s q => s.readIn q psn b last) s

/-- The PSN that is next to be sent. -/
def Queue.nextToSend (q : Queue) : BitVec 24 :=
  match q.ops.find? fun o => decide (o.sent < o.packets) with
  | some o => o.psn + BitVec.ofNat 24 o.sent
  | none => q.nextPsn

/-- A CNP: the window halves, once per round trip (R276). -/
def Queue.halve (q : Queue) : Queue :=
  if q.ctx.ccEn && q.halvedAt.isNone then
    { q with window := max (q.window / 2) q.ctx.mtu, halvedAt := some q.nextToSend }
  else q

def execCnp (rx : EthRx) (qpn : BitVec 24) (s : State) : Host.Outcome State Fault Refusal :=
  run (fun s => s.macIn rx.eport.toNat rx.mac qpn fun s q => s.setQueue q.halve) s

/-! ### The responder (R274–R279) -/

/-- The operation's packet carries immediate data. -/
def roceHasImm : RoceOp → Bool
  | .sendLastImm | .sendOnlyImm | .writeLastImm | .writeOnlyImm => true
  | _ => false

def roceIsSend : RoceOp → Bool
  | .sendFirst | .sendMiddle | .sendLast | .sendLastImm | .sendOnly | .sendOnlyImm => true
  | _ => false

/-- The packet begins a message. -/
def roceStarts : RoceOp → Bool
  | .sendFirst | .sendOnly | .sendOnlyImm | .writeFirst | .writeOnly | .writeOnlyImm | .readReq => true
  | _ => false

/-- The packet ends a message. -/
def roceEnds : RoceOp → Bool
  | .sendLast | .sendLastImm | .sendOnly | .sendOnlyImm | .writeLast | .writeLastImm | .writeOnly | .writeOnlyImm | .readReq => true
  | _ => false

/-- The packet takes a posted receive: every SEND, and a WRITE with immediate. -/
def roceTakesRecv (o : RoceOp) : Bool := (roceIsSend o) || (roceHasImm o)

/-- The opcode a receive completion names (R272): 0 = SEND, 1 = SEND with immediate, 3 = WRITE with immediate. -/
def roceRecvCode (o : RoceOp) : Nat := if (roceIsSend o) then (if (roceHasImm o) then 1 else 0) else 3

/-- What the memory region table makes of an access (R277). -/
inductive Xlat where
  /-- beyond a region, or without the right -/
  | denied
  /-- the page's present bit is 0 -/
  | fault (region page : Nat)
  /-- the pieces of host memory that the access covers, in order: address and length -/
  | good (pieces : List (Nat × Nat))

/-- n bytes from an offset of a region, page by page; force names a page that counts as present. -/
def MemRegion.translate (r : MemRegion) (force : Option Nat) : Nat → Nat → Nat → Xlat
  | 0, _, _ => .good []
  | k + 1, off, n =>
    if n = 0 then .good []
    else
      let pg := off / 2 ^ 21
      let e := r.pages.getD pg (false, 0)
      if !e.1 && force != some pg then .fault r.num pg
      else
        let m := min n (2 ^ 21 - off % 2 ^ 21)
        match r.translate force k (off + m) (n - m) with
        | .good l => .good ((e.2 + off % 2 ^ 21, m) :: l)
        | x => x

/-- Look an access up in the memory region table: key, address, length and right (R277). -/
def State.lookup (s : State) (key : W32) (va n : Nat) (write : Bool) (force : Option Nat) : Xlat :=
  match s.je.regions.find? fun r => r.key == key with
  | none => .denied
  | some r =>
    if va < r.base ∨ r.base + r.length < va + n ∨ !(if write then r.canWrite else r.canRead) then .denied
    else r.translate force (n / 2 ^ 21 + 2) (va - r.base) n

/-- The receive-ring entry that the next SEND or WRITE with immediate takes. -/
def State.recvEntry (s : State) (q : Queue) : Nat := memNat s.hostMem (q.ctx.rqBase + 16 * (q.rqCi.toNat % 2 ^ q.ctx.rqLog2)) 16

/-- Where a packet's data lies: a READ's source, the next bytes of a WRITE, or those of the receive buffer that a SEND fills (R277). -/
def State.packetMem (s : State) (q : Queue) (pkt : RocePacket) (force : Option Nat) : Xlat :=
  let at_ := if roceStarts pkt.op then 0 else q.msgBytes
  if pkt.op = .readReq then s.lookup pkt.rkey pkt.va.toNat pkt.dmaLen.toNat false force
  else if roceIsSend pkt.op then
    s.lookup (Config.recvKey (s.recvEntry q)) ((Config.recvVa (s.recvEntry q)).toNat + at_) pkt.payload.length true force
  else if roceStarts pkt.op then s.lookup pkt.rkey pkt.va.toNat pkt.payload.length true force
  else s.lookup q.msgKey (q.msgVa + at_) pkt.payload.length true force

/-- Write bytes to pieces of memory in order. -/
def State.scatter (s : State) : List (Nat × Nat) → List Byte → State
  | [], _ => s
  | p :: rest, b => (s.hostWrite 0x30 p.1 (b.take p.2)).scatter rest (b.drop p.2)

/-- READ responses, cut at the MTU (R266). -/
def State.sendReadData (s : State) (q : Queue) (pkt : RocePacket) (pieces : List (Nat × Nat)) : State :=
  let data := pieces.flatMap fun p => memRead s.hostMem p.1 p.2
  let s := pieces.foldl (fun s p => s.portRead 0x30 0 false p.1 p.2) s
  let n := pkt.dmaLen.toNat
  let k := max 1 ((n + q.ctx.mtu - 1) / q.ctx.mtu)
  (List.range k).foldl
    (fun s i => s.emitRoce q (.readResp (pkt.psn + BitVec.ofNat 24 i)
      ((data.drop (i * q.ctx.mtu)).take q.ctx.mtu) (i + 1 == k))) s

/-- Write the completion of a receive (R272, R278); what WR_ID a receive entry gives is not stated
(notes/assumptions/26.md). -/
def State.recvDone (s : State) (q : Queue) (pkt : RocePacket) : State × Queue :=
  let y := s.writeCqe q (Config.recvWrId (s.recvEntry q)) q.msgBytes (if (roceHasImm pkt.op) then pkt.imm else 0) 0 ((roceRecvCode pkt.op) + 128)
  (y.1, { y.2 with rqCi := y.2.rqCi + 1 })

/-- Place a packet whose PSN, rights and page are good; the queue continues from the next PSN. -/
def State.placePacket (s : State) (q : Queue) (pkt : RocePacket) (pieces : List (Nat × Nat)) : State × Queue :=
  if pkt.op = .readReq then
    let k := max 1 ((pkt.dmaLen.toNat + q.ctx.mtu - 1) / q.ctx.mtu)
    (s.sendReadData q pkt pieces, { q with expPsn := pkt.psn + BitVec.ofNat 24 k, nakFor := none })
  else
    let s := s.scatter pieces pkt.payload
    let starts := roceStarts pkt.op
    let q := { q with msgBytes := (if starts then 0 else q.msgBytes) + pkt.payload.length,
                      msgVa := if starts then pkt.va.toNat else q.msgVa, msgKey := if starts then pkt.rkey else q.msgKey,
                      expPsn := pkt.psn + 1, nakFor := none }
    let y := if (roceTakesRecv pkt.op) && (roceEnds pkt.op) then s.recvDone q pkt else (s, q)
    (if pkt.ackReq then y.1.emitRoce y.2 (.ack pkt.psn) else y.1, y.2)

/-- Does the packet name memory? -/
def roceNeedsMem (pkt : RocePacket) : Bool :=
  if pkt.op = .readReq then decide (pkt.dmaLen.toNat > 0) else !pkt.payload.isEmpty

/-- Rights, page and posted receive of the packet expected next (R277); force names a page that software has made present. -/
def State.takePacket (s : State) (q : Queue) (pkt : RocePacket) (force : Option Nat) : State :=
  if (roceTakesRecv pkt.op) && ((roceStarts pkt.op) || !(roceIsSend pkt.op)) && q.rqPi == q.rqCi then
    s.emitRoce q (.rnrNak pkt.psn q.ctx.rnrTimer)
  else
    let place := fun (s : State) l => let y := s.placePacket q pkt l; y.1.setQueue y.2
    if !(roceNeedsMem pkt) then place s []
    else
      match s.packetMem q pkt force with
      | .denied => s.emitRoce q (.nak pkt.psn .remoteAccess)
      | .good l => place s l
      | .fault region page =>
        let e := q.ctx.eport.toNat
        if q.ctx.odpRnr || decide ((s.je.parked.filter fun p => p.eport == e).length ≥ 16) then
          s.emitRoce q (.rnrNak pkt.psn q.ctx.rnrTimer)
        else
          let s := { s with je := { s.je with parked := s.je.parked ++ [Parked.mk e q.num region (BitVec.ofNat 32 page) pkt] } }
          let s := s.setQueue { q with stalled := true }
          s.event 0x30 0x0802 1 [i1 e, i2 q.num, i2 region, i4 page]

/-- The PSN test of the responder (R275, R277). -/
def State.onPacket (s : State) (q : Queue) (pkt : RocePacket) : State :=
  if pkt.psn = q.expPsn then (if q.stalled then s else s.takePacket q pkt none)
  else if psnAtOrAfter pkt.psn q.expPsn then s.nakOnce q
  else if pkt.op = .readReq then
    match s.packetMem q pkt none with
    | .good l => s.sendReadData q pkt l
    | _ => s
  else s.emitRoce q (.ack (q.expPsn - 1))

/-- A request packet: a congestion mark is answered by a CNP (R276), then the queue takes it. -/
def State.roceIn (s : State) (e : Nat) (pkt : RocePacket) : State :=
  s.macIn e pkt.eth pkt.qpn fun s q =>
    let s := if pkt.eth.ecnCe && pkt.eth.gapPassed then s.emitRoce q .cnp else s
    (s.onPacket q pkt).kickAll

/-- Checked, translated and placed, or NAKed (R266–R269, R274–R279). -/
def execRoceRequestPacket (e : BitVec 1) (pkt : RocePacket) (s : State) : Host.Outcome State Fault Refusal :=
  run (fun s => s.roceIn e.toNat pkt) s

/-! ### Pause, timers, pages, link -/

/-- A received PFC frame: each enabled priority pauses, or resumes at zero quanta (R274). -/
def State.pfcIn (s : State) (e : Nat) (enable : BitVec 8) (quanta : List W16) : State :=
  let p := s.eth e
  if p.state = 0 then s
  else if !s.je.loaded then s.setEth e fun p => { p with cntEarly := stick p.cntEarly 1 }
  else
    let on := ((List.range 8).filter fun i => enable.getLsbD i && quanta.getD i 0 != 0).foldl (fun a i => a + 2 ^ i) 0
    (((s.setEth e fun p => { p with paused := (p.paused &&& ~~~ enable) ||| BitVec.ofNat 8 on }).releaseEth e).kickAll)

def execPfcFrame (e : BitVec 1) (enable : BitVec 8) (quanta : List W16) (s : State) : Host.Outcome State Fault Refusal :=
  run (fun s => s.pfcIn e.toNat enable quanta) s

/-- The quanta of a pause run out: the priority resumes (R274, R285). -/
def execPfcPauseExpiry (e : BitVec 1) (prio : BitVec 3) (s : State) : Host.Outcome State Fault Refusal :=
  run (fun s =>
    if (s.eth e.toNat).paused.getLsbD prio.toNat then
      (((s.setEth e.toNat fun p => { p with paused := p.paused &&& ~~~ BitVec.ofNat 8 (2 ^ prio.toNat) }).releaseEth e.toNat).kickAll)
    else s) s

/-- Resend, or ERROR at the retry limit (R275). -/
def execRoceAckTimeout (num : W16) (s : State) : Host.Outcome State Fault Refusal :=
  run (fun s =>
    match s.queue num.toNat with
    | some q => if q.state = 1 ∧ q.ops.any SqOp.started then (s.retryQueue q).kickAll else s
    | none => s) s

/-- The requester resends (R277). -/
def execRnrTimerExpiry (num : W16) (s : State) : Host.Outcome State Fault Refusal :=
  run (fun s =>
    match s.queue num.toNat with
    | some q => if q.state = 1 ∧ q.rnrWait then (s.setQueue { q with rnrWait := false }).kickAll else s
    | none => s) s

/-- XOFF is repeated every 20 µs while it holds; a priority whose use of the buffer has fallen gets XON instead (R274, R283). -/
def State.xoffRepeat (s : State) (e : Nat) (fillKiB : List Nat) : State :=
  if (s.eth e).state = 0 then s
  else
    let s := if s.je.loaded then fillKiB.zipIdx.foldl (fun s x => s.bufferUse e (BitVec.ofNat 3 x.2) x.1) s else s
    ((List.range 8).filter fun i => (s.eth e).xoffSent.getLsbD i).foldl (fun s i => s.emit (.pfc e i true)) s

def execPfcXoffRepeat (tick : PfcTick) (s : State) : Host.Outcome State Fault Refusal :=
  run (fun s => s.xoffRepeat tick.eport.toNat tick.fillKiB) s

/-- Place the oldest parked packet and resume its queue (R277). -/
def State.placeParked (s : State) : State :=
  match s.je.parked with
  | [] => s
  | k :: rest =>
    let s := { s with je := { s.je with parked := rest } }
    match s.queue k.queue with
    | none => s
    | some q =>
      let q := { q with stalled := false }
      ((s.setQueue q).takePacket q k.pkt (some k.page.toNat)).kickAll

/-- A write to JE_PAGE. -/
def State.wrPage (s : State) (port : Mgmt) (value : W32) : State :=
  s.guarded port 0x080018 fun s => (if value.getLsbD 30 then s.placeParked else s).ok port

def execPageDone (port : Mgmt) (value : W32) (s : State) : Host.Outcome State Fault Refusal :=
  run (fun s => if value.getLsbD 30 then s.wrPage port value else s) s

/-- PCS lock lost or regained: the port's state, EV_ETH_LINK, and what was held (R281, R283, R284). -/
def State.ethLink (s : State) (e : Nat) (locked : Bool) : State :=
  if (s.eth e).locked = locked then s
  else
    let st : BitVec 2 := if !locked then 0 else if s.je.loaded then 2 else 1
    let s := s.setEth e fun p => { p with locked := locked, state := st }
    ((s.event (0x49 + e) 0x0803 0 [i1 e, i1 st.toNat]).releaseEth e).kickAll

def execEthLinkChange (e : BitVec 1) (locked : Bool) (s : State) : Host.Outcome State Fault Refusal :=
  run (fun s => s.ethLink e.toNat locked) s

/-- A priority paused longer than PFC_HOLD_MS (R284). -/
def execPfcHoldTimeout (e : BitVec 1) (prio : BitVec 3) (s : State) : Host.Outcome State Fault Refusal :=
  run (fun s =>
    if (s.eth e.toNat).paused.getLsbD prio.toNat then s.event (0x49 + e.toNat) 0x0804 1 [i1 e.toNat, i1 prio.toNat] else s) s

/-- XON on every priority of one port, and its state after (R283). -/
def State.ethOpen (s : State) (e : Nat) : State :=
  let locked := (s.eth e).locked
  let s := if locked then (List.range 8).foldl (fun s i => s.emit (.pfc e i false)) s else s
  s.setEth e fun p => { p with xoffSent := 0, state := if locked then 2 else 0 }

/-- The RDMA engine loads its configuration from the verified image (R283). -/
def State.ethConfig (s : State) : State :=
  if !s.js.boot.verified || s.je.loaded then s
  else
    let s := { s with je := { s.je with loaded := true, queues := [], parked := [] } }
    (s.ethOpen 0).ethOpen 1

def execEthConfigLoad (s : State) : Host.Outcome State Fault Refusal := run State.ethConfig s

end Sys2Proof.Machine
end

