-- ==== Sys2Proof/Machine/Codec.lean ====
section
/-!
DEFINITION. The block codec and the operand expander (spec/12_block_codec.md R306–R321), and the meanings of their
commands.
-/

namespace Sys2Proof.Machine

/-! ### Regions (R306, R308) -/

/-- S in bytes. -/
def slotBytes (code : Nat) : Nat := 2048 + 512 * code

/-- The 256 bits of a region-table entry. -/
def RegionEntry.bits (r : RegionEntry) : Nat :=
  r.home + r.nblkM1 * 2 ^ 64 + r.fmt * 2 ^ 88 + r.slot * 2 ^ 90 + b2n r.isSealed * 2 ^ 92 + r.tmask.toNat * 2 ^ 96
    + r.spill * 2 ^ 128 + r.flag * 2 ^ 192

/-- Region r of the image; before an image every entry has its reset value. -/
def State.region (s : State) (r : Nat) : RegionEntry := (s.img.regions.find? fun e => e.num == r).getD (RegionEntry.empty r)

def RegionEntry.homeOf (r : RegionEntry) (block : Nat) : Nat := r.home + 4096 * block
def RegionEntry.spillOf (r : RegionEntry) (block : Nat) : Nat := r.spill + 16 * block

/-! ### Prefix codes (R315, R316) -/

def PrefixTable.nsym (t : PrefixTable) : Nat := if t.kind = 0 then 512 else 256

/-- A coded symbol. -/
structure SymCode where
  sym : Nat
  len : Nat
  code : Nat
  deriving DecidableEq, Repr

/-- First code of each length 0 to 12 (R316). -/
def firstCodes (lens : List Nat) : List Nat :=
  let count := fun n => (lens.filter fun x => x == n && x != 0).length
  ((List.range 12).foldl
    (fun (a : Nat × List Nat) i => let c := (a.1 + count i) * 2; (c, a.2 ++ [c])) (0, [0])).2

def PrefixTable.codes (t : PrefixTable) : List SymCode :=
  let lens := (List.range t.nsym).map fun i => t.lens.getD i 0
  ((List.range t.nsym).foldl
    (fun (a : List Nat × List SymCode) i =>
      let n := lens.getD i 0
      if n = 0 then a else (modifyNth (· + 1) n a.1, a.2 ++ [⟨i, n, a.1.getD n 0⟩]))
    (firstCodes lens, [])).2

/-- The bits of a code, most significant first (R314). -/
def codeBits (c : SymCode) : List Bool := (List.range c.len).map fun i => bitAt c.code (c.len - 1 - i)

/-! ### The pod (R313, R314) -/

/-- Symbols of a raw block: BF16 bits [15:7], or the byte. -/
def symbolsOfRaw (fmt : Nat) (raw : List Byte) : List Nat :=
  if fmt = 0 then (groupsOf 2 raw).map fun b => natLE b / 128 else raw.map BitVec.toNat

/-- Mantissa plane of a BF16 block. -/
def mantissas (raw : List Byte) : List Byte :=
  bitmapBytes ((groupsOf 2 raw).flatMap fun b => (List.range 7).map fun j => bitAt (natLE b) j)

/-- The elements of sub-stream k. -/
def subStream {α : Type} (k : Nat) (l : List α) : List α :=
  (groupsOf 8 l).flatMap fun g => (g.drop k).take 1

/-- The coded bits of a symbol list; none when a symbol has no code. -/
def codeStream (codes : List SymCode) : List Nat → Option (List Bool)
  | [] => some []
  | x :: rest =>
    match codes.find? fun c => c.sym == x, codeStream codes rest with
    | some c, some more => some (codeBits c ++ more)
    | _, _ => none

/-- The eight sub-streams of a block under a table, as bytes. -/
def podBody (t : PrefixTable) (fmt : Nat) (raw : List Byte) : Option (List (List Byte)) :=
  let codes := t.codes
  let syms := symbolsOfRaw fmt raw
  let subs := (List.range 8).map fun k => codeStream codes (subStream k syms)
  if subs.any Option.isNone then none else some (subs.map fun b => bitmapBytes (b.getD []))

/-- Bytes of the pod: 16 + Σ LEN_k + M (R310). -/
def podTotal (fmt : Nat) (body : List (List Byte)) : Nat :=
  16 + body.foldl (fun a b => a + b.length) 0 + (if fmt = 0 then 1792 else 0)

/-- The 16-byte header (R313). -/
def podHeader (mode fmt tsel tepoch : Nat) (lens : List Nat) (raw : List Byte) : List Byte :=
  let ln := (lens.zipIdx.map fun p => p.1 * 2 ^ (16 + 10 * p.2)).foldl (· + ·) 0
  bytesLE 16 (0xA7 + mode * 2 ^ 8 + fmt * 2 ^ 9 + tsel * 2 ^ 11 + tepoch * 2 ^ 13 + ln + (crc32c raw).toNat * 2 ^ 96)

def podBytes (fmt tsel tepoch : Nat) (body : List (List Byte)) (raw : List Byte) : List Byte :=
  podHeader 0 fmt tsel tepoch (body.map List.length) raw ++ body.flatten ++ (if fmt = 0 then mantissas raw else [])

/-- A choice of table: its number and sub-streams. -/
structure PodChoice where
  table : Nat
  body : List (List Byte)

/-- The usable table with the smallest total, ties to the lower number (R310). -/
def choosePod (tables : List (Nat × PrefixTable)) (r : RegionEntry) (raw : List Byte) : Option PodChoice :=
  ((List.range 4).filter fun n => r.tmask.getLsbD n).foldl
    (fun best n =>
      match tabGet n tables with
      | none => best
      | some t =>
        match podBody t r.fmt raw with
        | none => best
        | some body =>
          match best with
          | none => some ⟨n, body⟩
          | some b => if podTotal r.fmt body < podTotal r.fmt b.body then some ⟨n, body⟩ else best)
    none

/-! ### Decoding (R317, R318) -/

/-- What decoding gives: the raw block, or the cause of poison. -/
inductive PodResult where
  | raw (b : List Byte)
  | bad (cause : Nat)
  deriving DecidableEq, Repr

/-- Decode n symbols from a bit list: the symbols and the bits left; none when a string has no code or the bits end. -/
def decodeBits (codes : List SymCode) : Nat → Nat → Nat → Nat → List Bool → Option (List Nat × List Bool)
  | _, 0, _, _, bits => some ([], bits)
  | 0, _, _, _, _ => none
  | _, _, _, _, [] => none
  | fuel + 1, n + 1, len, acc, b :: rest =>
    let acc := 2 * acc + b2n b
    let len := len + 1
    match codes.find? fun c => c.len == len && c.code == acc with
    | some c => (decodeBits codes fuel n 0 0 rest).map fun p => (c.sym :: p.1, p.2)
    | none => if len ≥ 12 then none else decodeBits codes fuel (n + 1) len acc rest

/-- One sub-stream: every symbol coded, the bits after the last code zero, no byte unused. -/
def decodeSub (codes : List SymCode) (n : Nat) (b : List Byte) : Option (List Nat) :=
  let bits := bitsOf b
  match decodeBits codes bits.length n 0 0 bits with
  | some (syms, rest) => if rest.length < 8 && rest.all (fun x => !x) then some syms else none
  | none => none

/-- The element at place e of eight interleaved sub-streams. -/
def interleave (subs : List (List Nat)) (n : Nat) : List Nat :=
  (List.range n).map fun e => (subs.getD (e % 8) []).getD (e / 8) 0

/-- The sub-streams of a pod's body. -/
def cutBody : List Nat → List Byte → List (List Byte)
  | [], _ => []
  | n :: rest, b => b.take n :: cutBody rest (b.drop n)

/-- Decode a COMPRESSED slot with its table. -/
def decodePod (t : PrefixTable) (fmt slot : Nat) (pod : List Byte) : PodResult :=
  let h := natLE (pod.take 16)
  let lens := (List.range 8).map fun k => bitsAt h (16 + 10 * k) 10
  let sum := lens.foldl (· + ·) 0
  let m := if fmt = 0 then 1792 else 0
  let n := if fmt = 0 then 2048 else 4096
  if 16 + sum + m > slot then .bad 3
  else
    let codes := t.codes
    let subs := (cutBody lens (pod.drop 16)).map (decodeSub codes (n / 8))
    if subs.any Option.isNone then .bad 3
    else
      let syms := interleave (subs.map fun x => x.getD []) n
      let man := bitsOf ((pod.drop (16 + sum)).take m)
      let raw := if fmt = 0 then
          (syms.zip (groupsOf 7 man)).flatMap fun p => bytesLE 2 (p.1 * 128 + bitsNatOf p.2)
        else syms.map fun x => BitVec.ofNat 8 x
      if crc32c raw = BitVec.ofNat 32 (bitsAt h 96 32) then .raw raw else .bad 4
where
  bitsNatOf (l : List Bool) : Nat := l.foldr (fun b a => b2n b + 2 * a) 0

/-! ### Writing a block (R309–R312) -/

/-- The writes of one block (R311). -/
def State.writeBlock (s : State) (r : RegionEntry) (tables : List (Nat × PrefixTable)) (q : KvReq) : State :=
  let home := r.homeOf q.block
  let cell := fun (b : State) a l => b.hostWrite (q.block % 40) a l
  let putRaw := fun (s : State) =>
    let s := cell s home (podHeader 1 r.fmt 0 q.epoch.toNat [] q.raw)
    let s := cell s (home + 16) (q.raw.drop 16)
    let s := cell s (r.spillOf q.block) (q.raw.take 16)
    { s with jc := { s.jc with raw := stick s.jc.raw 1 } }
  if r.isSealed then cell s home q.raw
  else
    match choosePod tables r q.raw with
    | none => putRaw s
    | some c =>
      let slot := slotBytes r.slot
      let pod := podBytes r.fmt c.table q.epoch.toNat c.body q.raw
      if podTotal r.fmt c.body > slot then putRaw s
      else if s.jc.verify && decodePod ((tabGet c.table tables).getD ⟨0, [], false⟩) r.fmt slot pod != .raw q.raw then
        let s := { s with jc := { s.jc with verifyFail := stick s.jc.verifyFail 1 } }
        (putRaw s).event (q.block % 40) 0x0A02 1 [i2 (q.block % 40), i2 q.region, i4 q.block]
      else
        let s := cell s home (pod ++ List.replicate (slot - pod.length) 0)
        { s with jc := { s.jc with compressed := stick s.jc.compressed 1 } }

/-- Mark the first request that f picks. -/
def markFirst (f : KvReq → Bool) : List KvReq → List KvReq
  | [] => []
  | q :: rest => if f q then { q with issued := true } :: rest else q :: markFirst f rest

/-- The oldest request of a lane is encoded and its writes issued, with the tables of its epoch; a lane waits for a block whose payload
is still coming (R309). -/
def State.encodeBlock (s : State) (t : Nat) : State :=
  let mine := fun (q : KvReq) => q.block % 40 == t && !q.issued
  match s.jc.reqs.find? mine with
  | none => s
  | some q =>
    if q.queue.isSome then s
    else
    let s := s.writeBlock (s.region q.region) (s.tables q.epoch).prefixes q
    let s := s.setWin t fun w => { w with tensor := BitVec.ofNat 18 q.region }
    { s with jc := { s.jc with reqs := markFirst mine s.jc.reqs } }

/-- A codec lane encodes an accepted block and writes it (R310–R312). -/
def execKvBlockEncode (t : Nat) (s : State) : Host.Outcome State Fault Refusal :=
  runUnit (decide (t < 40)) (fun s => s.encodeBlock t) s

/-- Drop the first request that f picks. -/
def dropFirst (f : KvReq → Bool) : List KvReq → List KvReq
  | [] => []
  | q :: rest => if f q then rest else q :: dropFirst f rest

/-- Every write of the block is acknowledged: the region's count rises and is written (R311). -/
def State.blockWritten (s : State) (region block : Nat) : State :=
  let this := fun (q : KvReq) => q.region == region && q.block == block && q.issued
  if s.jc.reqs.any this then
    let n := (tabGet region s.jc.written).getD 0 + 1
    let s := { s with jc := { s.jc with written := tabSet region n s.jc.written, reqs := dropFirst this s.jc.reqs } }
    let flag := (s.region region).flag
    if flag = 0 then s else s.hostWrite (block % 40) flag (bytes64 n)
  else s

def execKvBlockWritten (region : BitVec 8) (block : BitVec 24) (s : State) : Host.Outcome State Fault Refusal :=
  run (fun s => s.blockWritten region.toNat block.toNat) s

/-! ### The expanders (R317–R321) -/

/-- Words of one prefix-code table (R315). -/
def tableWords (t : PrefixTable) : List W32 :=
  let b := BitVec.ofNat 8 t.kind :: List.replicate 15 (0 : Byte) ++
    (List.range 256).map fun j => BitVec.ofNat 8 (t.lens.getD (2 * j) 0 + 16 * t.lens.getD (2 * j + 1) 0)
  (groupsOf 4 b).map w32LE

/-- The whole configuration space that Jalos writes (R321). -/
def RunImage.xtRegionWords (img : RunImage) : List (Nat × W32) :=
  (List.range 256).flatMap fun r =>
    let e := (img.regions.find? fun e => e.num == r).getD (RegionEntry.empty r)
    ((groupsOf 4 (bytesLE 32 e.bits)).map w32LE).mapIdx fun k w => (8 * r + k, w)

def xtTableWords (tables : List (Nat × PrefixTable)) : List (Nat × W32) :=
  (List.range 4).flatMap fun n =>
    match tabGet n tables with
    | some t => (tableWords t).mapIdx fun k w => (0x800 + 68 * n + k, w)
    | none => (List.replicate 68 (0 : W32)).mapIdx fun k w => (0x800 + 68 * n + k, w)

def State.xeWord (s : State) (a : Nat) : W32 := (tabGet a s.jc.xeWords).getD 0

def State.xeRegion (s : State) (r : Nat) : RegionEntry :=
  regionOfBits r (natLE ((List.range 8).flatMap fun k => bytes32 (s.xeWord (8 * r + k))))

/-- The tables that the staged words hold. -/
def State.xeStaged (s : State) : List (Nat × PrefixTable) :=
  (List.range 4).map fun n =>
    let b := (List.range 68).flatMap fun k => bytes32 (s.xeWord (0x800 + 68 * n + k))
    (n, prefixOfBytes b)

/-- XE_ERR: a report goes out when XE_ERR_READY is high, after one that waited; while it is low the first report waits and later ones
are dropped (R319, R321). -/
def State.xeReport (s : State) (xe : Nat) (ready : Bool) (info : Option W64) : State :=
  let waits := (tabGet xe s.jc.xeHeld).toList
  if ready then
    let s := { s with jc := { s.jc with xeHeld := s.jc.xeHeld.filter fun p => p.1 != xe } }
    (waits ++ info.toList).foldl (fun s i => s.emit (.xeErr i)) s
  else
    match info with
    | some i => if waits.isEmpty then { s with jc := { s.jc with xeHeld := s.jc.xeHeld ++ [(xe, i)] } } else s
    | none => s

/-- Output of a block: poison stands for its cause, and its data is undefined (R320; notes/assumptions/4.md). -/
def State.expand (s : State) (xe region block : Nat) (ready : Bool) (r : PodResult) : State :=
  match r with
  | .raw b => (s.emit (.expanded xe b false)).xeReport xe ready none
  | .bad cause =>
    let d := s.draw
    let s := d.2.emit (.expanded xe ((List.range 4096).map (Config.poisonByte d.1)) true)
    s.xeReport xe ready (some (BitVec.ofNat 64 (cause + region * 2 ^ 3 + block * 2 ^ 11 + xe * 2 ^ 35)))

/-- The tables an epoch names at the expander, or none (R318). -/
def State.xeTables (s : State) (epoch : BitVec 2) : Option (List (Nat × PrefixTable)) :=
  if epoch = s.pins.xtEpoch then some s.jc.xeCur
  else if epoch = s.pins.xtEpoch - 1 then some s.jc.xePrev
  else none

/-- Is the header as R318 cause 1 wants it? -/
def headerOk (r : RegionEntry) (h : Nat) : Bool :=
  decide (bitsAt h 0 8 = 0xA7) && decide (bitsAt h 9 2 = r.fmt) && decide (r.fmt ≠ 3) && !bitAt h 15 &&
    (!bitAt h 8 || (decide (bitsAt h 11 2 = 0) && decide (bitsAt h 16 80 = 0)))

/-- A slot enters as S ÷ 64 beats, or as 64 for a sealed region; a RAW block asks for its spill line and its remainder (R317–R319). -/
def State.expandSlot (s : State) (xe region block : Nat) (slot : List Byte) (ready : Bool) : State :=
  let r := s.xeRegion region
  let slot := slot.take (if r.isSealed then 4096 else slotBytes r.slot)
  if r.isSealed then s.expand xe region block ready (.raw slot)
  else
    let h := natLE (slot.take 16)
    if !headerOk r h then s.expand xe region block ready (.bad 1)
    else
      match s.xeTables (BitVec.ofNat 2 (bitsAt h 13 2)) with
      | none => s.expand xe region block ready (.bad 2)
      | some tables =>
        if bitAt h 8 then
          let n := slotBytes r.slot
          let s := s.emit (.fetch xe (BitVec.ofNat 48 (r.spillOf block / 64 * 64)) 0)
          let s := s.emit (.fetch xe (BitVec.ofNat 48 (r.homeOf block + n)) (BitVec.ofNat 6 ((4096 - n) / 64 - 1)))
          { s with jc := { s.jc with xeWait := s.jc.xeWait ++ [⟨xe, region, block, slot⟩] } }
        else
          match tabGet (bitsAt h 11 2) tables with
          | none => s.expand xe region block ready (.bad 3)
          | some t => s.expand xe region block ready (decodePod t r.fmt (slotBytes r.slot) slot)

/-- An expander takes a slot (R317–R320). -/
def execExpanderSlot (xe : XeAt) (region : BitVec 8) (block : BitVec 24) (slot : List Byte) (s : State) : Host.Outcome State Fault Refusal :=
  run (fun s => s.expandSlot xe.xe.toNat region.toNat block.toNat slot xe.errReady) s

/-- The spill line and the remainder of a RAW block (R317). -/
def joinRaw (r : RegionEntry) (block : Nat) (slot line rest : List Byte) : List Byte :=
  (line.drop (r.spillOf block % 64)).take 16 ++ (slot.take (slotBytes r.slot)).drop 16 ++ rest

/-- Drop the first waiting block of an expander. -/
def dropWait (xe : Nat) : List XeWait → List XeWait
  | [] => []
  | w :: rest => if w.xe = xe then rest else w :: dropWait xe rest

def State.fetchDone (s : State) (xe : Nat) (line rest : List Byte) (status : BitVec 2) (ready : Bool) : State :=
  match s.jc.xeWait.find? fun w => w.xe == xe with
  | none => s
  | some w =>
    let s := { s with jc := { s.jc with xeWait := dropWait xe s.jc.xeWait } }
    let raw := joinRaw (s.xeRegion w.region) w.block w.slot line rest
    s.expand xe w.region w.block ready
      (if status ≠ 0 then .bad 5
       else if crc32c raw = BitVec.ofNat 32 (bitsAt (natLE (w.slot.take 16)) 96 32) then .raw raw
       else .bad 4)

/-- The fetches of a RAW block are answered (R317, R318). -/
def execExpanderFetchResponse (xe : XeAt) (line rest : List Byte) (status : BitVec 2) (s : State) : Host.Outcome State Fault Refusal :=
  run (fun s => s.fetchDone xe.xe.toNat line rest status xe.errReady) s

/-- The next word due over XT; STAGED follows the last one of a swap, and after JWRST_N the first whole write also
fills the copies in use (R321; notes/assumptions/30.md). -/
def State.xtWrite (s : State) : State :=
  match s.jc.xtDue with
  | [] => s
  | (a, w) :: rest =>
    let s := (s.emit (.xt (BitVec.ofNat 12 a) w))
    let s := { s with jc := { s.jc with xeWords := tabSet a w s.jc.xeWords, xtDue := rest } }
    if !rest.isEmpty then s
    else
      let s := if s.jc.xeLoaded then s
        else { s with jc := { s.jc with xeLoaded := true, xeCur := s.xeStaged, xePrev := s.xeStaged } }
      if s.live.staged.isSome then { s with jg := { s.jg with epoch := { s.jg.epoch with staged := true } } } else s

def execXtConfigWrite (s : State) : Host.Outcome State Fault Refusal := run State.xtWrite s

/-- XT_EPOCH follows the table epoch, and the expanders rename their copies (R321). -/
def State.xtAdvance (s : State) : State :=
  if s.pins.xtEpoch = s.jg.epoch.current then s
  else
    { s with pins := { s.pins with xtEpoch := s.jg.epoch.current },
             jc := { s.jc with xePrev := s.jc.xeCur, xeCur := s.xeStaged } }

def execXtEpochAdvance (s : State) : Host.Outcome State Fault Refusal := run State.xtAdvance s

/-- An expander's report reaches XR: EV_POD_BAD, and the first is kept in `JC_BAD` (R321). -/
def State.xrIn (s : State) (info : Nat) : State :=
  let c := s.jc
  let c := { c with badCount := stick c.badCount 1 }
  let c := if c.badValid then c else
    { c with badValid := true, badCause := BitVec.ofNat 3 (bitsAt info 0 3), badRegion := BitVec.ofNat 8 (bitsAt info 3 8),
             badBlock := BitVec.ofNat 24 (bitsAt info 11 24), badXe := BitVec.ofNat 4 (bitsAt info 35 4) }
  ({ s with jc := c }).event 0x4B 0x0A01 1
    [i1 (bitsAt info 35 4), i2 (bitsAt info 3 8), i4 (bitsAt info 11 24), i1 (bitsAt info 0 3)]

def execXrReport (info : BitVec 64) (s : State) : Host.Outcome State Fault Refusal := run (fun s => s.xrIn info.toNat) s

end Sys2Proof.Machine
end

