-- ==== Sys2Proof/Machine/Intake.lean ====
section
/-!
DEFINITION. Intake and the tile queues (spec/03_intake_selection_quantisation.md R75–R83, spec/06 R170–R172,
spec/11 R286–R290, spec/12 R309), and the meanings of their commands.
-/

namespace Sys2Proof.Machine

/-! ### Blocks and kept sample rows (R166–R171) -/

/-- Block edge b of a CLASS 0 tensor. -/
def CatEntry.edge (c : CatEntry) : Nat := 128 * (c.blockQ + 1)

/-- Column strips of blocks. -/
def CatEntry.blockCols (c : CatEntry) : Nat := c.cols / c.edge

def CatEntry.blocks (c : CatEntry) : Nat := if c.cls = 0 then c.rows / c.edge * c.blockCols else 0

/-- Kept rows n of a block. -/
def CatEntry.strata (c : CatEntry) : Nat := c.sampN / 2 ^ c.subs

/-- Where the part of a per-block region that is a block's begins: the region holds `size` bytes for each block of the CLASS 0 tensors,
in catalogue order (notes/assumptions/52.md). -/
def State.blockBase (s : State) (base : Nat) (size : CatEntry → Nat) (tensor block : Nat) : Nat :=
  match s.cat tensor with
  | some c => base + ((s.img.catalogue.take tensor).map fun c => c.blocks * size c).foldl (· + ·) 0 + block * size c
  | none => base

/-- Bytes of one side of a sample-buffer slot of a block: n rows of b BF16 values. -/
def CatEntry.sampleBytes (c : CatEntry) : Nat := 2 * c.edge * c.strata

/-- The state-tier address of kept row j in a block's sample buffer: slot 0 then 1, output-gradient rows then activation rows
(R171; notes/assumptions/52.md). -/
def State.sampleAddr (s : State) (tensor : Nat) (c : CatEntry) (block : Nat) (side : Side) (slot j : Nat) : Nat :=
  s.blockBase s.decl.sampleBase (fun c => 4 * c.sampleBytes) tensor block + 2 * slot * c.sampleBytes +
    (match side with | .L => 0 | .R => c.sampleBytes) + 2 * c.edge * j

/-- The first group of a block. -/
def CatEntry.blockGroup (c : CatEntry) (block : Nat) : Nat :=
  (block / c.blockCols * c.edge * c.cols + block % c.blockCols * c.edge) / 32

/-- The chunk-map entry that names a block's owner and tile (R167). -/
def State.blockChunk (s : State) (tensor : Nat) (c : CatEntry) (block : Nat) : Option ChunkEntry :=
  match s.chunkOfGroup tensor (c.blockGroup block) with
  | some k => s.chunk k
  | none => none

/-- Does this member own the block? -/
def State.ownsBlock (s : State) (tensor : Nat) (c : CatEntry) (block : Nat) : Bool :=
  match s.blockChunk tensor c block with
  | some e => e.owner == s.me
  | none => false

/-- The offered row that a stratum keeps (R171). -/
def State.keptRow (s : State) (tensor : Nat) (c : CatEntry) (block j : Nat) : Nat :=
  let r := (srValue s.ju.seed .sample tensor (block * 2 ^ 16 + j) s.jq.step 0).toNat
  j * 2 ^ c.subs + r % 2 ^ c.subs

/-- The columns of a factor's range: rows of the tensor for L, columns for R. -/
def CatEntry.rangeStart (c : CatEntry) (side : Side) (block : Nat) : Nat :=
  match side with
  | .L => block / c.blockCols * c.edge
  | .R => block % c.blockCols * c.edge

/-- The pieces of one offered row that owned blocks keep. -/
def State.keepPieces (s : State) (tensor : Nat) (c : CatEntry) (side : Side) (row col0 : Nat) (vals : List W16) : List KeptRow :=
  let j := row / 2 ^ c.subs
  (List.range c.blocks).filterMap fun b =>
    let lo := c.rangeStart side b
    let a := max lo col0
    let e := min (lo + c.edge) (col0 + vals.length)
    if a < e ∧ j < c.strata ∧ s.ownsBlock tensor c b ∧ s.keptRow tensor c b j = row then
      some { tensor := tensor, side := side, block := b, stratum := j, col := a - lo,
             vals := (vals.drop (a - col0)).take (e - a) }
    else none

/-- The kept row of a stratum, if every one of its columns has arrived. -/
def State.fullRow (s : State) (tensor : Nat) (c : CatEntry) (side : Side) (block j : Nat) : Option (List W16) :=
  let ps := s.ji.kept.filter fun k => k.tensor == tensor && k.side == side && k.block == block && k.stratum == j
  let at_ := fun i => (ps.find? fun k => decide (k.col ≤ i) && decide (i < k.col + k.vals.length)).map fun k => k.vals.getD (i - k.col) 0
  let vs := (List.range c.edge).filterMap at_
  if vs.length = c.edge then some vs else none

/-- One kept row of the step: tensor, entry, factor, block, stratum. -/
structure RowKey where
  tensor : Nat
  cat : CatEntry
  side : Side
  block : Nat
  stratum : Nat

/-- Every kept row that this member's blocks take in a step, in order. -/
def State.rowKeys (s : State) : List RowKey :=
  s.img.catalogue.zipIdx.flatMap fun p =>
    let c := p.1
    if c.cls ≠ 0 then []
    else ((List.range c.blocks).filter fun b => s.ownsBlock p.2 c b).flatMap fun b =>
      [Side.L, Side.R].flatMap fun side => (List.range c.strata).map fun j => ⟨p.2, c, side, b, j⟩

/-! ### Discards (R76, R77) -/

/-- Why a descriptor fails. -/
inductive Reason where
  | tag
  | kind
  | dup
  deriving DecidableEq, Repr

def Reason.code : Reason → Nat
  | .tag => 0
  | .kind => 1
  | .dup => 2

/-- Count and record a failed descriptor; a DUP discard with DUP_FAULT sets FAULT (R76, R77). -/
def State.discard (s : State) (tq : Nat) (d : BitVec 512) (r : Reason) : State :=
  let j := s.ji
  let j := match r with
    | .tag => { j with discTag := stick j.discTag 1 }
    | .kind => { j with discKind := stick j.discKind 1 }
    | .dup => { j with discDup := stick j.discDup 1 }
  let s := ({ s with ji := j }).event 0x2D 0x0201 0 [i8 (d.toNat % 2 ^ 64), i1 tq, i1 r.code]
  if r = .dup ∧ s.ji.dupFault then s.fault else s

def State.setTq (s : State) (n : Nat) (st : TqState) : State :=
  { s with ji := { s.ji with tqs := modifyNth (fun q => { q with st := st }) n s.ji.tqs } }

def State.tq (s : State) (n : Nat) : Tq := s.ji.tqs.getD n ⟨false, .idle⟩

/-- A tile is cut short: counted, none of its groups marked (R77, R289). -/
def State.cutShort (s : State) (n : Nat) : State :=
  let s := { s with ji := { s.ji with discPartial := stick s.ji.discPartial 1 },
                    jc := { s.jc with reqs := s.jc.reqs.filter fun q => q.queue != some n } }
  s.setTq n .idle

/-! ### Descriptor tests (R76, R309) -/

/-- Groups of a gradient rectangle. -/
def DescHdr.groups (d : DescHdr) (c : CatEntry) : List Nat :=
  (List.range d.nrows).flatMap fun r =>
    (List.range ((d.ncols + 31) / 32)).map fun k => ((d.row0 + r) * c.cols + d.col0) / 32 + k

/-- Is a group received, or part of a tile that is open on another queue? DESIGN CHOICE (notes/assumptions/57.md): the groups of a
tile that is still open on another queue count for the DUP test, and a copy discarded for them is not brought back when that tile is
cut short (R77). -/
def State.groupTaken (s : State) (tensor group tq : Nat) : Bool :=
  (s.gPrime tensor group).isSome ||
    (List.range 4).any fun n => n != tq &&
      match (s.tq n).st with
      | .isOpen d _ =>
        let h := descHdr d
        h.kind == 0 && h.tensor == tensor &&
          (match s.cat tensor with | some c => (h.groups c).contains group | none => false)
      | _ => false

def State.isDup (s : State) (tq : Nat) (d : DescHdr) : Bool :=
  d.kind == 0 && match s.cat d.tensor with
    | some c => (d.groups c).any fun g => s.groupTaken d.tensor g tq
    | none => false

/-- The rectangle lies in the tensor, or in the offered sample rows (R76, R170). -/
def DescHdr.inside (d : DescHdr) (c : CatEntry) : Bool :=
  match d.kind with
  | 0 => decide (d.row0 + d.nrows ≤ c.rows) && decide (d.col0 + d.ncols ≤ c.cols) && d.col0 % 32 == 0 &&
      (d.ncols % 32 == 0 || d.col0 + d.ncols == c.cols)
  | 1 => c.cls == 0 && decide (d.row0 + d.nrows ≤ c.sampN) && decide (d.col0 + d.ncols ≤ c.cols)
  | _ => c.cls == 0 && decide (d.row0 + d.nrows ≤ c.sampN) && decide (d.col0 + d.ncols ≤ c.rows)

/-- The conditions of R309 on a KV descriptor. -/
def State.kvOk (s : State) (d : DescHdr) : Bool :=
  match s.img.regions.find? fun e => e.num == d.tensor with
  | none => false
  | some r => decide (r.fmt ≠ 3) && d.fmt == r.fmt + 1 && decide (d.row0 ≤ r.nblkM1) && d.col0 == 0 && d.nrows == 1 &&
      d.ncols == (if r.fmt = 0 then 2048 else 4096)

/-- The KIND conditions that do not wait for a release. -/
def State.kindOk (s : State) (d : DescHdr) : Bool :=
  d.reserved && decide (d.kind ≤ 3) && d.bytes == d.nrows * d.ncols * fmtBytes d.fmt &&
    (if d.kind = 3 then s.phase 6 && s.kvOk d
     else decide (d.fmt ≤ 1) && match s.cat d.tensor with | some c => d.inside c | none => false)

/-- Does the descriptor wait for INTAKE of its step (R22, R288)? -/
def State.mustHold (s : State) (d : DescHdr) : Bool :=
  decide (d.kind ≤ 2) && !(s.phase 0 && d.step == s.jq.step.toNat % 2 ^ 16)

/-! ### Payload (R80, R82, R83) -/

/-- Element k of a payload as FP32 (R48, R53). -/
def elemAt (fmt : Nat) (b : List Byte) (k : Nat) : W32 :=
  if fmt = 0 then w32LE (b.drop (4 * k)) else bf16Up (w16LE (b.drop (2 * k)))

/-- All-ones exponent of element k as it arrived (R82). -/
def elemNonFinite (fmt : Nat) (b : List Byte) (k : Nat) : Bool :=
  if fmt = 0 then f32NonFinite (w32LE (b.drop (4 * k))) else bf16NonFinite (w16LE (b.drop (2 * k)))

/-- Is payload element k in a padding column of a gradient tensor? -/
def DescHdr.padAt (d : DescHdr) (c : CatEntry) (k : Nat) : Bool :=
  d.kind == 0 && decide (c.cols - c.padCols ≤ d.col0 + k % d.ncols)

/-- Examine the elements that arrived: indices lo to hi − 1 (R82). -/
def State.scan (s : State) (d : DescHdr) (b : List Byte) (lo hi : Nat) : State :=
  let pad := match s.cat d.tensor with | some c => d.padAt c | none => fun _ => false
  let bad := ((List.range (hi - lo)).filter fun i => elemNonFinite d.fmt b (lo + i) && !pad (lo + i)).length
  if bad = 0 then s
  else
    let j := s.ji
    let j := if j.nfValid then j else { j with nfValid := true, nfFirst := BitVec.ofNat 18 d.tensor }
    ({ s with ji := { j with nfCount := stick j.nfCount bad } }).nonFinite .intake

/-- g′ of one received group, and the tiles' sticky bit (R64, R83); a group whose chunk has gone on without it settles its
residual as it comes (R91, R92, R94, R119). -/
def State.storeGroup (s : State) (tensor : Nat) (c : CatEntry) (group : Nat) (g : List W32) : State :=
  if (s.gPrime tensor group).isSome then s
  else
  let vals := g.mapIdx fun i x => f32Add x (s.residual c (32 * group + i))
  let ovf := vals.any f32NonFinite
  let s := { s with ji := { s.ji with grads := s.ji.grads ++ [GradGroup.mk tensor group vals] } }
  let s := s.nonFiniteIf ovf .tiles
  match s.chunkOfGroup tensor group with
  | some i =>
    if s.jx.withheld.contains i then s.withheldGroup tensor c i group vals
    else if s.jx.expired.any (fun x => x.1 == i) then s.poisonedGroup tensor c i group vals
    -- the chunk went on without this member's mask: its groups count as unselected (R91, R92, R94)
    else if s.jx.added.any (fun x => x.1 == i) then s.putResiduals tensor c (vals.mapIdx fun k x => (32 * group + k, x))
    else s
  | none => s

/-- The groups of a whole gradient tile. -/
def State.takeGradient (s : State) (d : DescHdr) (c : CatEntry) (b : List Byte) : State :=
  (List.range (d.nrows * ((d.ncols + 31) / 32))).foldl
    (fun s k =>
      let r := k / ((d.ncols + 31) / 32)
      let q := k % ((d.ncols + 31) / 32)
      let g := (List.range 32).map fun i =>
        let e := r * d.ncols + 32 * q + i
        if d.padAt c e || decide (d.ncols ≤ 32 * q + i) then 0 else elemAt d.fmt b e
      s.storeGroup d.tensor c (((d.row0 + r) * c.cols + d.col0) / 32 + q) g) s

/-- The rows of a sample tile that owned blocks keep (R170, R171). -/
def State.takeSamples (s : State) (d : DescHdr) (c : CatEntry) (b : List Byte) : State :=
  let side : Side := if d.kind = 1 then .R else .L
  let word := fun k => if d.fmt = 0 then bf16Rne (w32LE (b.drop (4 * k))) else w16LE (b.drop (2 * k))
  let pieces := (List.range d.nrows).flatMap fun r =>
    s.keepPieces d.tensor c side (d.row0 + r) d.col0 ((List.range d.ncols).map fun i => word (r * d.ncols + i))
  -- a conversion of the tiles that gives or takes an infinity or a NaN (R64)
  let s := s.nonFiniteIf (pieces.any fun p => p.vals.any bf16NonFinite) .tiles
  { s with ji := { s.ji with kept := s.ji.kept ++ pieces } }

/-- The logical tile that holds a block. -/
def State.blockTile (s : State) (tensor : Nat) (c : CatEntry) (block : Nat) : Nat :=
  ((s.blockChunk tensor c block).map ChunkEntry.tile).getD 0

/-- Share element e goes to lane e mod 64, and the lanes combine in the tree (R71). -/
def welfordTile (l : List W32) : Welford :=
  treeFold welfordMerge Welford.zero
    ((List.range 64).map fun lane => ((groupsOf 64 l).filterMap fun g => g[lane]?).foldl welfordAdd Welford.zero)

/-- The statistic of a tensor's kept activation rows: each tile's share in ascending block, stratum and column, then the tree over the
tiles (R69–R72; notes/assumptions/58.md). -/
def State.sampleStat (s : State) (tensor : Nat) (rows : List (RowKey × Option (List W16))) : SampleStat :=
  let mine := rows.filter fun r => r.1.tensor == tensor && r.1.side == .R
  let tiles := (List.range 40).map fun t =>
    welfordTile ((mine.filter fun r => s.blockTile tensor r.1.cat r.1.block == t).flatMap fun r => (r.2.getD []).map bf16Up)
  let w := treeFold welfordMerge Welford.zero tiles
  ⟨tensor, w, welfordVar false w⟩

/-- The end of INTAKE: groups not received take g = +0.0, kept rows go to the sample buffer, missing rows as zeros
(R21, R78, R172). -/
def State.endIntake (s : State) : State :=
  if !s.phase 0 then s
  else
    let s := s.setPhase 0 false
    let s := s.img.catalogue.zipIdx.foldl
      (fun s p => (List.range p.1.groups).foldl
        (fun s g => if (s.gPrime p.2 g).isSome then s else s.storeGroup p.2 p.1 g (List.replicate 32 0)) s) s
    let slot := s.jq.step.toNat % 2
    let rows := s.rowKeys.map fun k => (k, s.fullRow k.tensor k.cat k.side k.block k.stratum)
    let missing := (rows.filter fun r => r.2.isNone).length
    let stats := (List.range s.img.catalogue.length).filterMap fun t =>
      if rows.any fun r => r.1.tensor == t && r.1.side == .R then some (s.sampleStat t rows) else none
    let s := rows.foldl (fun s r =>
      s.stateWrite (s.blockTile r.1.tensor r.1.cat r.1.block) (s.sampleAddr r.1.tensor r.1.cat r.1.block r.1.side slot r.1.stratum)
        ((r.2.getD (List.replicate r.1.cat.edge 0)).flatMap bytes16)) s
    { s with ji := { s.ji with kept := [], stats := stats }, jk := { s.jk with missing := stick s.jk.missing missing } }

/-- Every tile of the step's catalogue has been accepted (R21). -/
def State.intakeFull (s : State) : Bool :=
  (s.img.catalogue.zipIdx.all fun p => (List.range p.1.groups).all fun g => (s.gPrime p.2 g).isSome) &&
    s.rowKeys.all fun k => (s.fullRow k.tensor k.cat k.side k.block k.stratum).isSome

/-- A whole tile of queue n is in: route it (R81). DESIGN CHOICE (notes/assumptions/57.md): a tile that is still open when
INTAKE ends, or when a new attempt begins, counts in the attempt in which its last beat comes (R78). -/
def State.tileDone (s : State) (n : Nat) (d : DescHdr) (b : List Byte) : State :=
  if d.kind = 3 then
    { s with jc := { s.jc with reqs := s.jc.reqs.map fun q => if q.queue = some n then { q with raw := b, queue := none } else q } }
  else
    match s.cat d.tensor with
    | none => s
    | some c =>
      let s := if d.kind = 0 then s.takeGradient d c b else s.takeSamples d c b
      if s.intakeFull then s.endIntake else s

/-- Payload beats after a descriptor: kept, examined, and routed when the last is in; LAST on an earlier beat cuts the
tile short, and beats beyond the last are payload without a descriptor (R287, R289). -/
def State.payloadIn (s : State) (n : Nat) (raw : BitVec 512) (got more : List Byte) (last : Bool) : State :=
  let d := descHdr raw
  let b := got ++ more
  let sz := fmtBytes d.fmt
  let s := if d.kind = 3 then s else s.scan d b (min got.length d.bytes / sz) (min b.length d.bytes / sz)
  if b.length < d.bytes then (if last then s.cutShort n else s.setTq n (.isOpen raw b))
  else
    let s := (s.setTq n .idle).tileDone n d (b.take d.bytes)
    if b.length > (d.bytes + 63) / 64 * 64 then
      ({ s with ji := { s.ji with discKind := stick s.ji.discKind 1 } }).setTq n .junk
    else s

/-- An accepted descriptor opens its tile; a KV block takes its place among the encode requests with the table epoch of its
acceptance (R309). -/
def State.openTile (s : State) (n : Nat) (raw : BitVec 512) (payload : List Byte) (last : Bool) : State :=
  let d := descHdr raw
  let s := { s with ji := { s.ji with lastDesc := raw.extractLsb' 0 256 } }
  let s := if d.kind = 3 then
      { s with jc := { s.jc with reqs := s.jc.reqs ++ [KvReq.mk d.tensor d.row0 s.jg.epoch.current [] (some n) false] } }
    else s
  s.payloadIn n raw [] payload last

/-- A descriptor fails: it and its payload are discarded. -/
def State.failDesc (s : State) (n : Nat) (raw : BitVec 512) (r : Reason) (last : Bool) : State :=
  (s.discard n raw r).setTq n (if last then .idle else .discard)

/-- A descriptor beat transfers: the tests of R76, a hold, or an open tile. -/
def State.descIn (s : State) (n : Nat) (raw : BitVec 512) (payload : List Byte) (last : Bool) : State :=
  let d := descHdr raw
  let t := s.jq.step.toNat
  if d.kind ≤ 2 ∧ d.step ≠ t % 2 ^ 16 ∧ d.step ≠ (t + 1) % 2 ^ 16 then s.failDesc n raw .tag last
  else if !s.kindOk d then s.failDesc n raw .kind last
  else if s.mustHold d then s.setTq n (.held raw)
  else if s.isDup n d then s.failDesc n raw .dup last
  else s.openTile n raw payload last

/-- Payload beats without a descriptor beat. -/
def State.beatsIn (s : State) (n : Nat) (payload : List Byte) (last : Bool) : State :=
  match (s.tq n).st with
  | .idle => ({ s with ji := { s.ji with discKind := stick s.ji.discKind 1 } }).setTq n .junk
  | .isOpen d got => s.payloadIn n d got payload last
  | .discard => if last then s.setTq n .idle else s
  | .held _ => s
  | .junk => s

/-- May beats transfer on a queue? A producer withdraws a held descriptor with a new one (R288). -/
def State.tqTakes (s : State) (n : Nat) (desc : Bool) : Bool :=
  s.tqReady n || (desc && !s.inReset && s.ji.tqEn.getLsbD n && (s.tq n).pup)

def State.tileReceive (s : State) (n : Nat) (desc : Option (BitVec 512)) (payload : List Byte) (last : Bool) : State :=
  if !s.tqTakes n desc.isSome then s
  else
    match desc with
    | none => s.beatsIn n payload last
    | some d =>
      let s := match (s.tq n).st with
        | .isOpen _ _ => s.cutShort n
        | _ => s
      s.descIn n d payload last

/-- A tile arrives on a tile queue and is tested and routed (R76, R287–R290). -/
def execTileReceive (n : BitVec 2) (desc : Option (BitVec 512)) (payload : List Byte) (last : Bool) (s : State) :
    Host.Outcome State Fault Refusal :=
  run (fun s => s.tileReceive n.toNat desc payload last) s

/-- A held descriptor is released into INTAKE: the conditions tested on release (R76, R288). -/
def State.heldRelease (s : State) (n : Nat) (payload : List Byte) (last : Bool) : State :=
  match (s.tq n).st with
  | .held raw =>
    if !s.phase 0 || !(s.tq n).pup || !s.ji.tqEn.getLsbD n || s.inReset then s
    else
      let d := descHdr raw
      let t := s.jq.step.toNat
      if d.step = (t + 1) % 2 ^ 16 then s
      else if d.step ≠ t % 2 ^ 16 then s.failDesc n raw .tag last
      else if s.jq.gen then s.failDesc n raw .kind last
      else if s.isDup n d then s.failDesc n raw .dup last
      else s.openTile n raw payload last
  | _ => s

/-- At the commit pulse a held descriptor of the old step fails TAG (R288). -/
def State.failHeld (s : State) : State :=
  (List.range 4).foldl (fun s n =>
    match (s.tq n).st with
    | .held raw =>
      let d := (descHdr raw).step
      if d = s.jq.step.toNat % 2 ^ 16 ∨ d = (s.jq.step.toNat + 1) % 2 ^ 16 then s else s.failDesc n raw .tag false
    | _ => s) s

def execHeldDescriptorRelease (n : BitVec 2) (payload : List Byte) (last : Bool) (s : State) : Host.Outcome State Fault Refusal :=
  run (fun s => s.heldRelease n.toNat payload last) s

/-- TQn_PUP sampled low: an open tile is cut short, READY is low (R289). -/
def State.producerReset (s : State) (n : Nat) : State :=
  let s := match (s.tq n).st with
    | .isOpen _ _ => s.cutShort n
    | _ => s.setTq n .idle
  { s with ji := { s.ji with tqs := modifyNth (fun q => { q with pup := false }) n s.ji.tqs } }

def execProducerReset (n : BitVec 2) (s : State) : Host.Outcome State Fault Refusal := run (fun s => s.producerReset n.toNat) s

/-- TQn_PUP rises: READY follows, and the first beat must be a descriptor beat (R289). -/
def execProducerUp (n : BitVec 2) (s : State) : Host.Outcome State Fault Refusal :=
  run (fun s => { s with ji := { s.ji with tqs := modifyNth (fun q => { q with pup := true }) n.toNat s.ji.tqs } }) s

end Sys2Proof.Machine
end

