-- ==== Sys2Proof/Machine/Rs.lean ====
section
/-!
DEFINITION. The lane stream of a peer link (spec/09_olubiow_peer_links.md R238–R242): RS(136,128) over GF(2^10),
the additive scrambler, the lane interleave and the alignment marker.
-/

namespace Sys2Proof.Machine

/-! ### GF(2^10) with x^10 + x^3 + 1 (R238) -/

/-- One step of multiplication: double with reduction, then add a where bit i of b is set. -/
def gfStep (a b : Nat) (r : Nat) (i : Nat) : Nat :=
  let d := if r / 512 % 2 = 1 then Nat.xor (r * 2 % 1024) 9 else r * 2
  if b / 2 ^ i % 2 = 1 then Nat.xor d a else d

def gfMul (a b : Nat) : Nat := [9, 8, 7, 6, 5, 4, 3, 2, 1, 0].foldl (gfStep a b) 0

/-- a^(2^n) by squaring. -/
def gfSquares : Nat → Nat → Nat
  | 0, a => a
  | k + 1, a => gfSquares k (gfMul a a)

/-- a^n for n below 2^k. -/
def gfPow : Nat → Nat → Nat → Nat
  | 0, _, _ => 1
  | k + 1, a, n =>
    let h := gfPow k (gfMul a a) (n / 2)
    if n % 2 = 1 then gfMul a h else h

/-- α^n, α = 2 (R238). -/
def gfAlpha (n : Nat) : Nat := gfPow 10 2 (n % 1023)

/-- The inverse of a non-zero element, a^1022. -/
def gfInv (a : Nat) : Nat := gfPow 10 a 1022

/-- Polynomials as coefficient lists, constant term first. -/
def polyAdd : List Nat → List Nat → List Nat
  | [], q => q
  | p, [] => p
  | a :: p, b :: q => Nat.xor a b :: polyAdd p q

def polyScale (c : Nat) (p : List Nat) : List Nat := p.map (gfMul c)

def polyMul : List Nat → List Nat → List Nat
  | [], _ => []
  | a :: p, q => polyAdd (polyScale a q) (0 :: polyMul p q)

/-- The value of a polynomial at x. -/
def polyEval (p : List Nat) (x : Nat) : Nat := p.foldr (fun c acc => Nat.xor c (gfMul x acc)) 0

/-- g(x) without its leading term, highest power first: the product of (x − α^i), i = 0–7. -/
def rsGen : List Nat :=
  (((List.range 8).foldl (fun g i => polyMul g [gfAlpha i, 1]) [1]).take 8).reverse

/-- One step of the division of m(x)·x^8 by g(x): the register holds 8 symbols, highest power first. -/
def rsStep (g : List Nat) (reg : List Nat) (m : Nat) : List Nat :=
  let f := Nat.xor m (reg.headD 0)
  List.zipWith (fun r c => Nat.xor r (gfMul f c)) (reg.drop 1 ++ [0]) g

/-- The 136 symbols c_0–c_135 of a codeword from its 128 message symbols (R238). -/
def rsEncode (msg : List Nat) : List Nat :=
  msg ++ msg.foldl (rsStep rsGen) (List.replicate 8 0)

/-- Horner's rule over the symbols c_0–c_135. -/
def rsSyndrome (cw : List Nat) (j : Nat) : Nat :=
  let x := gfAlpha j
  cw.foldl (fun acc c => Nat.xor c (gfMul acc x)) 0

def rsSyndromes (cw : List Nat) : List Nat := (List.range 8).map (rsSyndrome cw)

/-- The state of Berlekamp and Massey's iteration. -/
structure BmState where
  c : List Nat
  b : List Nat
  len : Nat
  m : Nat
  d0 : Nat

def bmStep (syn : List Nat) (st : BmState) (n : Nat) : BmState :=
  let d := (List.range (st.len + 1)).foldl
    (fun acc i => if i ≤ n then Nat.xor acc (gfMul (st.c.getD i 0) (syn.getD (n - i) 0)) else acc) 0
  if d = 0 then { st with m := st.m + 1 }
  else
    let shifted := List.replicate st.m 0 ++ polyScale (gfMul d (gfInv st.d0)) st.b
    let c := polyAdd st.c shifted
    if 2 * st.len ≤ n then ⟨c, st.c, n + 1 - st.len, 1, d⟩ else { st with c := c, m := st.m + 1 }

/-- What the decoder makes of a received codeword (R239, R240). -/
inductive RsResult where
  | clean
  | corrected (cw : List Nat)
  | failed
  deriving DecidableEq, Repr

/-- Correct the symbol at exponent p of the codeword. -/
def rsFix (loc ev : List Nat) (cw : List Nat) (p : Nat) : List Nat :=
  let xi := gfAlpha (1023 - p)
  let deriv := (List.range loc.length).filterMap fun i => if i % 2 = 1 then some (loc.getD i 0) else none
  let x2 := gfMul xi xi
  let e := gfMul (gfAlpha p) (gfMul (polyEval ev xi) (gfInv (polyEval deriv x2)))
  cw.mapIdx fun i c => if i = 135 - p then Nat.xor c e else c

/-- Decode up to 4 symbol errors (R239). -/
def rsDecode (cw : List Nat) : RsResult :=
  let syn := rsSyndromes cw
  if syn.all (· == 0) then .clean
  else
    let st := (List.range 8).foldl (bmStep syn) ⟨[1], [1], 0, 1, 1⟩
    let roots := (List.range 136).filter fun p => polyEval st.c (gfAlpha (1023 - p)) == 0
    if st.len = 0 ∨ st.len > 4 ∨ roots.length ≠ st.len then .failed
    else
      let ev := (polyMul syn st.c).take 8
      let out := roots.foldl (rsFix st.c ev) cw
      if (rsSyndromes out).all (· == 0) then .corrected out else .failed

/-! ### Symbols and bytes -/

/-- Bits as numbers, least significant first. -/
def bitsNat (l : List Bool) : Nat := l.foldr (fun b a => (if b then 1 else 0) + 2 * a) 0

def natBits (n x : Nat) : List Bool := (List.range n).map fun i => decide (x / 2 ^ i % 2 = 1)

/-- The message symbols of 160 bytes (R238). -/
def symbolsOf (bytes : List Byte) : List Nat := (groupsOf 10 (bitsOf bytes)).map bitsNat

/-- The 160 bytes of 128 message symbols. -/
def symbolBytes (syms : List Nat) : List Byte := bitmapBytes (syms.flatMap (natBits 10))

/-! ### The scrambler (R241) -/

/-- The scrambler state after a marker slot: all ones. -/
def scrReset : BitVec 58 := BitVec.allOnes 58

/-- The next output bit and state: the bit enters at stage 1; taps at stages 39 and 58. -/
def scrStep (s : BitVec 58) : Bool × BitVec 58 :=
  let o := s.getLsbD 38 != s.getLsbD 57
  (o, (s <<< 1) ||| (if o then 1 else 0))

/-- XOR a bit list with the scrambler's output. -/
def scramble : BitVec 58 → List Bool → List Bool × BitVec 58
  | s, [] => ([], s)
  | s, b :: rest =>
    let p := scrStep s
    let q := scramble p.2 rest
    ((b != p.1) :: q.1, q.2)

/-! ### Lanes and markers -/

/-- The pairs of a block of two codewords, dealt to w lanes in ascending pair number (R239, R259). -/
def laneBits (w : Nat) (a b : List Nat) (lane : Nat) : List Bool :=
  ((List.zip a b).zipIdx.filter fun p => p.2 % w == lane).flatMap fun p => natBits 10 p.1.1 ++ natBits 10 p.1.2

/-- One block scrambled and encoded: its two codewords (R238, R241). -/
def encodeBlock (s : BitVec 58) (bytes : List Byte) : (List Nat × List Nat) × BitVec 58 :=
  let p := scramble s (bitsOf bytes)
  let syms := (groupsOf 10 p.1).map bitsNat
  ((rsEncode (syms.take 128), rsEncode (syms.drop 128)), p.2)

/-- Fold lane bits into the bit-interleaved parity (R242). -/
def bipOf (l : List Bool) : Byte :=
  (groupsOf 8 l).foldl (fun acc g => acc ^^^ BitVec.ofNat 8 (bitsNat g)) 0

/-- The 60-bit marker pattern (R242). -/
def markerPattern : Nat := 0x5A3C96F0E1B7D24

/-- A lane's marker (R242). -/
def markerBits (lane : Nat) (bip : Byte) : BitVec 340 :=
  BitVec.ofNat 340 (markerPattern + lane * 2 ^ 60 + bip.toNat * 2 ^ 64 + (255 - bip.toNat) * 2 ^ 72)

/-- One codeword out of the bits that w lanes, in LANE order, received in a block slot: pair j is the (j div w)-th of lane j mod w, its
first symbol codeword A's and its second codeword B's (R239, R243, R259). -/
def laneSymbols (lanes : List (List Bool)) (second : Bool) : List Nat :=
  (List.range 136).map fun j =>
    bitsNat ((((lanes.getD (j % lanes.length) []).drop (20 * (j / lanes.length) + if second then 10 else 0))).take 10)

/-- Whole 160-bit lane words from a lane's bits, bit 0 first, and the bits left over (R237). -/
def laneWords (bits : List Bool) : List (BitVec 160) × List Bool :=
  let n := bits.length / 160
  ((groupsOf 160 (bits.take (160 * n))).map fun g => BitVec.ofNat 160 (bitsNat g), bits.drop (160 * n))

/-- The lane bits of the blocks between two markers, lane by lane. -/
def laneStreams (w : Nat) : BitVec 58 → List (List Byte) → List (List Bool)
  | _, [] => List.replicate w []
  | s, blk :: rest =>
    let p := encodeBlock s blk
    List.zipWith (fun l more => laneBits w p.1.1 p.1.2 l ++ more) (List.range w) (laneStreams w p.2 rest)

end Sys2Proof.Machine
end

