-- ==== Sys2Proof/Machine/Link.lean ====
section
/-!
DEFINITION. The peer links (spec/09_olubiow_peer_links.md R236–R265): frames, retry, credits, identity, lanes, degrade
and training, and the meanings of the link commands.
-/

namespace Sys2Proof.Machine

/-! ### Frames (R245) -/

/-- The fields of a frame header. -/
structure FrameHdr where
  sof : Nat
  typ : Nat
  vc : Nat
  first : Bool
  last : Bool
  ackv : Bool
  len : Nat
  fseq : W16
  ack : W16
  hcrc : W32

def frameHdr (h : BitVec 128) : FrameHdr :=
  let n := h.toNat
  { sof := bitsAt n 0 8, typ := bitsAt n 8 3, vc := bitsAt n 11 2, first := bitAt n 13, last := bitAt n 14,
    ackv := bitAt n 15, len := bitsAt n 16 13, fseq := h.extractLsb' 32 16, ack := h.extractLsb' 48 16,
    hcrc := h.extractLsb' 96 32 }

/-- HCRC: CRC-32C of header bytes 0–11. -/
def headerCrc (h : Nat) : W32 := crc32c (bytesLE 12 h)

def makeHdr (typ vc : Nat) (first last ackv : Bool) (len : Nat) (fseq ack : W16) : BitVec 128 :=
  let low := 0xD5 + typ * 2 ^ 8 + vc * 2 ^ 11 + b2n first * 2 ^ 13 + b2n last * 2 ^ 14 + b2n ackv * 2 ^ 15
    + len * 2 ^ 16 + fseq.toNat * 2 ^ 32 + ack.toNat * 2 ^ 48
  BitVec.ofNat 128 (low + (headerCrc low).toNat * 2 ^ 96)

/-- FCRC: CRC-32C of frame bytes 0 to LEN − 9, the header and the payload. -/
def frameCrc (h : BitVec 128) (payload : List Byte) : W32 := crc32c (bytesLE 16 h.toNat ++ payload)

def makeTrailer (h : BitVec 128) (payload : List Byte) (eof : Nat) : BitVec 64 :=
  BitVec.ofNat 64 ((frameCrc h payload).toNat + eof * 2 ^ 32)

/-- The image's declaration of a port. -/
def State.peer (s : State) (p : Nat) : Option PeerDecl := s.decl.peers.find? fun d => d.port == p

/-- The words of a frame: its bytes from a word boundary, padded to the next (R245). -/
def frameWords (h : BitVec 128) (payload : List Byte) (trailer : BitVec 64) : List (List Byte) :=
  (groupsOf 8 (bytesLE 16 h.toNat ++ payload ++ bytesLE 8 trailer.toNat)).map fun w => w ++ List.replicate (8 - w.length) 0

/-- Drive one frame into the port's frame stream; it carries the latest cumulative ACK, ACKV = 1 (R251). A replay's first frame starts a
block (R248). -/
def State.driveFrame (s : State) (p typ vc : Nat) (first last : Bool) (fseq : W16) (payload : List Byte) (eof : Nat) (atBlock : Bool) :
    State :=
  let h := makeHdr typ vc first last true (24 + payload.length) fseq ((s.port p).rx.expect - 1)
  let tr := makeTrailer h payload eof
  let s := s.setPort p fun q => { q with
    rx := { q.rx with ackDue := false }, tx := { q.tx with wire := q.tx.wire ++ [⟨frameWords h payload tr, atBlock, false⟩] } }
  s.emit (.frame p h payload tr)

def State.sendFrame (s : State) (p typ vc : Nat) (first last : Bool) (fseq : W16) (payload : List Byte) : State :=
  s.driveFrame p typ vc first last fseq payload 0xFD false

/-- Drive a DATA frame, which ends with EOF 0xFE when it is aborted (R252). -/
def State.driveFrag (s : State) (p : Nat) (fseq : W16) (f : TxFrag) (atBlock : Bool) : State :=
  s.driveFrame p 0 f.vc f.first f.last fseq f.payload (if f.aborted then 0xFE else 0xFD) atBlock

/-- A control frame with its 8-byte payload (R246). -/
def State.sendCtl (s : State) (p typ : Nat) (payload : Nat) : State :=
  s.sendFrame p typ 0 false false 0 (bytesLE 8 payload)

/-- CREDIT: the four cumulative counts (R246, R254). -/
def State.sendCredit (s : State) (p : Nat) : State :=
  s.sendCtl p 3 (((s.port p).rx.granted.map BitVec.toNat).foldr (fun c a => c + 65536 * a) 0)

/-- Grant one credit on a VC: the count rises and a CREDIT frame follows the change (R253, R254). -/
def State.grantCredit (s : State) (p vc : Nat) : State :=
  (s.setPort p fun q => { q with rx := { q.rx with granted := modifyNth (· + 1) vc q.rx.granted } }).sendCredit p

/-! ### The transmit side -/

/-- Cut a chunk into fragments of 4,096 bytes; a remainder of 1–7 bytes takes 8 from the fragment before it (R246). -/
def cutChunk (bytes : List Byte) : List (List Byte) :=
  let n := bytes.length
  let r := n % 4096
  if n > 4096 ∧ 1 ≤ r ∧ r ≤ 7 then
    let k := n / 4096 - 1
    groupsOf 4096 (bytes.take (k * 4096)) ++
      [(bytes.drop (k * 4096)).take 4088, (bytes.drop (k * 4096)).drop 4088]
  else groupsOf 4096 bytes

/-- The table epoch an item carries: chunk header bits [15:14], cell header bits [11:10] (R109, R143); a state copy on VC3 carries none
and is sent under the current one. -/
def itemEpoch (current : BitVec 2) (vc : Nat) (bytes : List Byte) : BitVec 2 :=
  let w := natLE (bytes.take 2)
  if vc = 3 then current else BitVec.ofNat 2 (if vc = 0 then w / 2 ^ 10 else w / 2 ^ 14)

def makeFrags (current : BitVec 2) (vc : Nat) (bytes : List Byte) : List TxFrag :=
  let cuts := cutChunk bytes
  cuts.mapIdx fun i b => ⟨vc, i == 0, i + 1 == cuts.length, b, itemEpoch current vc bytes, false⟩

/-- Is the port admitted in the copy that this epoch names (R261)? -/
def State.admits (s : State) (p : Nat) (epoch : BitVec 2) : Bool := (s.copyOf epoch).portAdmit.getLsbD p

/-- Bytes held in the replay buffer: header, payload and trailer of each frame (R251). -/
def replayBytes (t : PortTx) : Nat := t.replay.foldl (fun a f => a + 24 + f.frag.payload.length) 0

/-- Is a frame waiting that the replay buffer has no room for (R251)? -/
def PeerPort.replayFull (q : PeerPort) : Bool :=
  q.tx.queues.any fun l => match l with
    | f :: _ => decide (262144 < replayBytes q.tx + 24 + f.payload.length)
    | [] => false

/-- May the head frame of a VC be sent now (R251, R253, R261, R363)? -/
def State.maySend (s : State) (p : Nat) (f : TxFrag) : Bool :=
  let port := s.port p
  let m := s.jg.member
  (port.state == 4 || port.state == 5) && !(m.state == 2 && !m.donor) &&
    (!f.first || (s.admits p f.tepoch && port.tx.recv.getD f.vc 0 != port.tx.used.getD f.vc 0)) &&
    decide (replayBytes port.tx + 24 + f.payload.length ≤ 262144)

/-- The weights in force (R133, R134); VC0 has priority. -/
def State.vcWeight (s : State) (vc : Nat) : Nat :=
  let w := if s.jx.copyStep then s.jx.wtCk else s.jx.wt
  match vc with
  | 1 => w.w1.toNat
  | 2 => w.w2.toNat
  | _ => w.w3.toNat

/-- Frame bytes of a fragment: header, payload, trailer (R245). -/
def fragSize (f : TxFrag) : Nat := 24 + f.payload.length

/-- The turn passes from a VC to the next of VC1 to VC3: an idle VC keeps no deficit, and the next one gains its quantum if it has
traffic. DESIGN CHOICE (notes/assumptions/55.md): a quantum is 64 bytes for each 1/64 of weight. -/
def State.nextTurn (s : State) (t : PortTx) : PortTx :=
  let vc := t.turn
  let nxt := if vc = 3 then 1 else vc + 1
  let d := if (t.queues.getD vc []).isEmpty then modifyNth (fun _ => 0) vc t.deficit else t.deficit
  { t with turn := nxt, deficit := if (t.queues.getD nxt []).isEmpty then d else modifyNth (· + 64 * s.vcWeight nxt) nxt d }

/-- Deficit-weighted round robin over VC1 to VC3 (R133): the VC in turn sends while its head frame fits its deficit. -/
def State.dwrr (s : State) (ready : Nat → Bool) : Nat → PortTx → Option Nat × PortTx
  | 0, t => (none, t)
  | k + 1, t =>
    match t.queues.getD t.turn [] with
    | f :: _ =>
      if ready t.turn && decide (fragSize f ≤ t.deficit.getD t.turn 0) then (some t.turn, t) else s.dwrr ready k (s.nextTurn t)
    | [] => s.dwrr ready k (s.nextTurn t)

/-- Turns after which any ready VC of weight 1 or more has gained the deficit of a whole frame. -/
def dwrrTurns : Nat := 3 * 66

/-- The VC to send from, and the arbiter's new turn and deficits: VC0 strictly first, else by weight (R133). -/
def State.pickVc (s : State) (p : Nat) : Option Nat × PortTx :=
  let t := (s.port p).tx
  let ready := fun vc => match t.queues.getD vc [] with
    | [] => false
    | f :: _ => s.maySend p f
  if ready 0 then (some 0, t)
  else if [1, 2, 3].any ready then s.dwrr ready dwrrTurns t
  else (none, t)

/-- Send one DATA frame from a VC: FSEQ, credit, replay buffer (R251, R253). -/
def State.sendData (s : State) (p vc : Nat) : State :=
  let t := (s.port p).tx
  match t.queues.getD vc [] with
  | [] => s
  | f :: rest =>
    let n := fragSize f
    let s := s.driveFrag p t.next f false
    -- the link has the last byte in its replay buffer: the TX or FWD buffer is free (R131)
    let s := if f.last && (vc == 1 || vc == 2) then s.stageTake fun b => b.leaves p && b.vc == vc else s
    s.setPort p fun q => { q with tx := { q.tx with
      next := t.next + 1, replay := t.replay ++ [⟨t.next, f⟩], queues := modifyNth (fun _ => rest) vc t.queues,
      used := if f.first then modifyNth (· + 1) vc t.used else t.used,
      deficit := modifyNth (· - n) vc t.deficit } }

/-- Send while a frame may be sent; the fuel is the number of frames queued. -/
def State.pumpN (p : Nat) : Nat → State → State
  | 0, s => s
  | k + 1, s =>
    match s.pickVc p with
    | (none, _) => s
    | (some vc, t) => State.pumpN p k ((s.setPort p fun q => { q with tx := t }).sendData p vc)

def State.pump (s : State) (p : Nat) : State :=
  let q := (s.port p).tx.queues
  State.pumpN p (q.foldl (fun a l => a + l.length) 0) s

/-- Queue an item (a chunk or a cell) on a VC of a port and send what may be sent. -/
def State.queueItem (s : State) (p vc : Nat) (bytes : List Byte) : State :=
  (s.setPort p fun q => { q with tx := { q.tx with
    queues := modifyNth (fun l => l ++ makeFrags s.jg.epoch.current vc bytes) vc q.tx.queues } }).pump p

/-- Drop every frame that a cumulative ACK covers (R251). -/
def dropAcked (ack : W16) (l : List SentFrag) : List SentFrag :=
  l.filter fun f => decide ((ack - f.fseq).toNat ≥ 32768)

def State.takeAck (s : State) (p : Nat) (h : FrameHdr) : State :=
  if h.ackv then (s.setPort p fun q => { q with tx := { q.tx with replay := dropAcked h.ack q.tx.replay } }).pump p
  else s

/-! ### Port failure and fencing -/

/-- Link-up state of both directions: FSEQ 0, no credits, empty replay (R254, R255). -/
def PeerPort.fresh (q : PeerPort) : PeerPort :=
  { q with
    rx := { PortRx.reset with scr := q.rx.scr, decoded := q.rx.decoded, decodedBad := q.rx.decodedBad, cut := q.rx.cut,
                              cutter := q.rx.cutter },
    tx := { PortTx.reset with wire := q.tx.wire, rest := q.tx.rest } }

/-- `JL_FEC` and `JL_FRAME` as words. -/
def PeerPort.fecWord (q : PeerPort) : Nat := q.fecCorr.toNat + q.fecUncorr.toNat * 2 ^ 16
def PeerPort.frameWord (q : PeerPort) : Nat :=
  q.cntSize.toNat + q.cntHcrc.toNat * 2 ^ 8 + q.cntFcrc.toNat * 2 ^ 16 + q.cntSeq.toNat * 2 ^ 24

/-- A port fails (R250, R255, R259, R362). One fenced for a duplicate identity stays fenced until a resume (R264). -/
def State.portFail (s : State) (p cause : Nat) : State :=
  let q := s.port p
  if q.state = 7 ∨ (q.state = 6 ∧ q.cause = 2) then s
  else
    let s := s.stageClear p
    let s := s.event (0x41 + p) 0x0701 1
      [i1 p, i1 cause, i2 (q.rx.expect - 1).toNat, i4 q.fecWord, i4 q.frameWord]
    let s := s.setPort p fun x =>
      { x.fresh with state := 7, cause := BitVec.ofNat 3 cause, realign := false, widen := false, attempt := 0, partnerValid := false }
    match s.peer p with
    | some _ => if p < 6 then s.memberFail 2 else s.donorPorts
    | none => s.donorPorts

/-- Fence a port (R255, R257, R258). -/
def State.fence (s : State) (p cause : Nat) : State :=
  ((s.stageClear p).setPort p fun x =>
    { x.fresh with state := 6, cause := BitVec.ofNat 3 cause, realign := false, widen := false, attempt := 0 }).donorPorts

/-! ### The share of VC0 (R152, R158) -/

/-- Frame bytes that VC0 may use on a port in a window: 5 % of the link time of 32 slots (R152). -/
def State.capBytes (s : State) : Nat := 491520000000 / s.decl.jclkKHz

/-- n frame bytes of VC0 go out on a port in the present window, replayed ones among them: the window's use and the highest share of a
window's link time (R152, R158). -/
def State.useVc0 (s : State) (port n : Nat) : State :=
  let used := s.jz.used.getD port 0 + n
  let peak := min 255 (used * 256 / (20 * s.capBytes))
  { s with jz := { s.jz with used := modifyNth (fun _ => used) port s.jz.used,
                             capPeak := if s.jz.capPeak.toNat < peak then BitVec.ofNat 8 peak else s.jz.capPeak } }

/-! ### Retry (R248–R250) -/

/-- Ask for a retry of the expected FSEQ, once until it arrives or the timer repeats it. -/
def State.askRetry (s : State) (p : Nat) : State :=
  let q := s.port p
  let n := q.rx.retryCount + 1
  let s := s.setPort p fun x =>
    { x with rx := { x.rx with retryOut := true, retryAt := some s.jq.slot, retryCount := n }, retrySent := stick x.retrySent 1 }
  let s := s.sendCtl p 2 q.rx.expect.toNat
  if n ≥ s.jl.retryLimit.toNat then s.portFail p 3 else s

def State.needRetry (s : State) (p : Nat) : State := if (s.port p).rx.retryOut then s else s.askRetry p

/-- Enter resync (R248). -/
def State.enterResync (s : State) (p : Nat) : State :=
  (s.setPort p fun q => { q with rx := { q.rx with resync := true } }).needRetry p

/-- Resend from f every frame in the replay buffer in its original order; the first of them starts a block, and the frames driven before it
end first (R248, R250). -/
def State.replay (s : State) (p : Nat) (f : W16) : State :=
  let t := (s.port p).tx
  let again := t.replay.filter fun x => decide ((x.fseq - f).toNat < 32768)
  let s := s.setPort p fun q => { q with replayed := stick q.replayed 1 }
  let s := again.zipIdx.foldl (fun s x =>
    (if x.1.frag.vc = 0 then s.useVc0 p (fragSize x.1.frag) else s).driveFrag p x.1.fseq x.1.frag (x.2 == 0)) s
  s.pump p

/-! ### The checks every frame takes (R240, R247–R249) -/

/-- The frame as the delineation of decoded blocks left it, if it came that way. -/
def State.cutOf (s : State) (p : Nat) (f : Frame) : Option CutFrame := (s.port p).rx.cut.find? fun c => c.frame == f

/-- In resync only a header that starts a block, with SOF and HCRC passing, is a frame's (R248); a frame cut out of blocks has met that
rule already. -/
def State.inResync (s : State) (p : Nat) (f : Frame) : Bool :=
  let h := frameHdr f.hdr
  (s.port p).rx.resync && (s.cutOf p f).isNone && !(f.atBlock && decide (h.sof = 0xD5) && headerCrc f.hdr.toNat == h.hcrc)

/-- What a frame's checks leave. -/
inductive FrameTest where
  /-- the frame is not this row's, or the port cannot receive -/
  | notDue
  | bad
  /-- its header and size pass and its FCRC does not (R249) -/
  | badCrc (h : FrameHdr)
  | good (h : FrameHdr)

/-- Can the port receive frames: aligned, so at least ALIGNED, or fenced or failed and relocked (R261)? -/
def PeerPort.hears (q : PeerPort) : Bool := !(q.state == 0 || q.state == 1) && q.lanes.any Lane.locked

/-- Size and end-code check (R247). -/
def frameSizeOk (h : FrameHdr) (f : Frame) : Bool :=
  let eof := bitsAt f.trailer.toNat 32 8
  decide (32 ≤ h.len) && decide (h.len ≤ 4120) && decide (f.payload.length + 24 = h.len) && (eof == 0xFD || eof == 0xFE)

/-- Run the checks of a frame on a row for frame type typ. -/
def State.testFrame (s : State) (p typ : Nat) (f : Frame) : State × FrameTest :=
  let h := frameHdr f.hdr
  let errored := match s.cutOf p f with | some c => c.errored | none => false
  if !(s.port p).hears || s.inResync p f then (s, .notDue)
  else
    let s := s.setPort p fun q => { q with
      lastFrame := f.hdr, rx := { q.rx with cut := q.rx.cut.eraseP fun c => c.frame == f } }
    if h.sof ≠ 0xD5 then (s.enterResync p, .bad)
    else if headerCrc f.hdr.toNat ≠ h.hcrc then
      ((s.setPort p fun q => { q with cntHcrc := stick q.cntHcrc 1 }).enterResync p, .bad)
    else if h.typ ≠ typ then (s, .notDue)
    else
      let s := s.setPort p fun q => { q with rx := { q.rx with resync := false } }
      if !frameSizeOk h f then
        ((s.setPort p fun q => { q with cntSize := stick q.cntSize 1 }).enterResync p, .bad)
      else if errored || frameCrc f.hdr f.payload != f.trailer.extractLsb' 0 32 then
        let s := s.setPort p fun q => { q with cntFcrc := stick q.cntFcrc 1 }
        (if typ = 0 then s.needRetry p else s, .badCrc h)
      else (s.takeAck p h, .good h)

/-- A frame row: its checks, then what the row does with a good frame. -/
def State.onFrame (s : State) (p typ : Nat) (f : Frame) (act : State → FrameHdr → State) : State :=
  match s.testFrame p typ f with
  | (_, .notDue) => s
  | (s', .bad) => s'
  | (s', .badCrc _) => s'
  | (s', .good h) => act s' h

/-! ### DATA frames -/

/-- Take the content of a DATA frame into its VC's item (R246). -/
def State.assemble (s : State) (p : Nat) (h : FrameHdr) (payload : List Byte) : State :=
  s.setPort p fun q =>
    let a := q.rx.asm.getD h.vc ⟨false, [], 0⟩
    let bytes := if h.first then payload else a.bytes ++ payload
    if !h.first && !a.isOpen then q
    else if h.last then
      { q with rx := { q.rx with
          asm := modifyNth (fun x => { x with isOpen := false, bytes := [] }) h.vc q.rx.asm, items := q.rx.items ++ [(h.vc, bytes)] } }
    else { q with rx := { q.rx with asm := modifyNth (fun x => { x with isOpen := true, bytes := bytes }) h.vc q.rx.asm } }

/-- The table epoch of the frame's chunk or cell, from its first fragment. -/
def State.rxEpoch (s : State) (p : Nat) (h : FrameHdr) (payload : List Byte) : BitVec 2 :=
  if h.first then itemEpoch s.jg.epoch.current h.vc payload else ((s.port p).rx.asm.getD h.vc ⟨false, [], 0⟩).tepoch

/-- The content of a DATA frame in sequence is dropped: an open chunk ends, and the buffer that a FIRST frame took is free again, so its
credit is granted back (R252, R253, R261). -/
def State.dropContent (s : State) (p : Nat) (h : FrameHdr) : State :=
  let s := s.setPort p fun q => { q with rx := { q.rx with asm := modifyNth (fun x => { x with isOpen := false, bytes := [] }) h.vc q.rx.asm } }
  if h.first then s.grantCredit p h.vc else s

/-- A DATA frame whose HCRC, FCRC and size pass (R249, R252, R261). -/
def State.dataIn (s : State) (p : Nat) (f : Frame) (h : FrameHdr) : State :=
  let rx := (s.port p).rx
  let ahead := (h.fseq - rx.expect).toNat
  if !((s.port p).state == 4 || (s.port p).state == 5) then
    s.setPort p fun q => { q with noAdmit := stick q.noAdmit 1 }
  else if ahead ≥ 32768 then s
  else if ahead > 0 then
    (s.setPort p fun q => { q with cntSeq := stick q.cntSeq 1 }).needRetry p
  else
    let epoch := s.rxEpoch p h f.payload
    let s := s.setPort p fun q => { q with rx := { q.rx with
      expect := rx.expect + 1, any := true, retryOut := false, retryAt := if rx.retryOut then some s.jq.slot else rx.retryAt,
      retryCount := 0, ackDue := true, asm := modifyNth (fun x => { x with tepoch := epoch }) h.vc rx.asm } }
    if bitsAt f.trailer.toNat 32 8 = 0xFE then s.dropContent p h
    else if !s.admits p epoch then (s.setPort p fun q => { q with noAdmit := stick q.noAdmit 1 }).dropContent p h
    else s.assemble p h f.payload

/-- ACK: cumulative, taken with the header (R249, R251). -/
def execAckFrame (p : BitVec 3) (f : Frame) (s : State) : Host.Outcome State Fault Refusal :=
  run (fun s => s.onFrame p.toNat 1 f fun s _ => s) s

/-- RETRY(f) received (R250). -/
def State.retryIn (s : State) (p : Nat) (f : W16) : State :=
  let t := (s.port p).tx
  let n := if t.reqSeq = f ∧ t.reqCount > 0 then t.reqCount + 1 else 1
  let s := s.setPort p fun q => { q with tx := { q.tx with reqSeq := f, reqCount := n } }
  if n ≥ s.jl.retryLimit.toNat then s.portFail p 3
  else if f = t.next then s
  else if t.replay.any fun x => x.fseq == f then s.replay p f
  else s.portFail p 4

def execRetryFrame (p : BitVec 3) (f : Frame) (s : State) : Host.Outcome State Fault Refusal :=
  run (fun s => s.onFrame p.toNat 2 f fun s _ => s.retryIn p.toNat (BitVec.ofNat 16 (natLE (f.payload.take 2)))) s

/-- CREDIT received: the four cumulative counts, and what they let go (R254). -/
def State.creditIn (s : State) (p : Nat) (payload : List Byte) : State :=
  let counts := (List.range 4).map fun i => BitVec.ofNat 16 (natLE ((payload.drop (2 * i)).take 2))
  (s.setPort p fun q => { q with tx := { q.tx with recv := counts } }).pump p

def execCreditFrame (p : BitVec 3) (f : Frame) (s : State) : Host.Outcome State Fault Refusal :=
  run (fun s => s.onFrame p.toNat 3 f fun s _ => s.creditIn p.toNat f.payload) s

/-! ### Identity (R256–R258) -/

/-- The instance has a verified image and is not in SAFE (R256, R333). -/
def State.verified (s : State) : Bool := s.js.boot.verified

/-- The 40-byte IDENT payload. -/
def State.identPayload (s : State) (p : Nat) : List Byte :=
  let d := s.decl
  bytesLE 2 d.member ++ bytesLE 1 d.coord.x ++ bytesLE 1 d.coord.y ++ bytesLE 1 d.coord.z ++ bytesLE 1 p ++ bytesLE 2 0
    ++ bytes64 s.imageHdr.systemId ++ bytes64 s.imageHdr.topoDigest ++ List.replicate 16 0

def State.sendIdent (s : State) (p : Nat) : State := s.sendFrame p 4 0 false false 0 (s.identPayload p)

/-- Answer to an IDENT: own IDENT, or NOT_READY with its reason (R256). -/
def State.answerIdent (s : State) (p : Nat) : State :=
  if !s.verified then s.sendCtl p 5 1
  else if (s.peer p).isNone then s.sendCtl p 5 2
  else s.sendIdent p

/-- The fields of a received IDENT. -/
structure IdentIn where
  id : Nat
  x : Nat
  y : Nat
  z : Nat
  port : Nat
  systemId : W64
  topo : W64

def identIn (b : List Byte) : IdentIn :=
  { id := natLE (b.take 2), x := natLE ((b.drop 2).take 1), y := natLE ((b.drop 3).take 1),
    z := natLE ((b.drop 4).take 1), port := natLE ((b.drop 5).take 1),
    systemId := BitVec.ofNat 64 (natLE ((b.drop 8).take 8)), topo := BitVec.ofNat 64 (natLE ((b.drop 16).take 8)) }

/-- R257. -/
def State.identPasses (s : State) (d : PeerDecl) (i : IdentIn) : Bool :=
  decide (i.id = d.member) && decide (i.x = d.coord.x) && decide (i.y = d.coord.y) && decide (i.z = d.coord.z) &&
    decide (i.port = d.far) && i.systemId == s.imageHdr.systemId && i.topo == s.imageHdr.topoDigest

/-- Another port that has announced the same member id, where the two are not declared as a pair (R258). -/
def State.dupPort (s : State) (p id : Nat) : Option Nat :=
  (List.range 8).find? fun q =>
    let x := s.port q
    q != p && x.partnerValid && x.partner.toNat == id &&
      !(match s.peer p, s.peer q with
        | some a, some b => a.pair && b.pair && a.member == id && b.member == id
        | _, _ => false)

/-- A declaration failed its check: EV_DECL_MISMATCH (R332); items: what was declared, both values. -/
def State.declMismatch (s : State) (item declared observed : Nat) : State :=
  s.event 0x4D 0x0B02 2 [i1 item, i8 declared, i8 observed]

/-- SAFE with its cause: the planes stay idle (R333). -/
def State.enterSafe (s : State) (cause : Nat) : State :=
  { s with
    js := { s.js with boot := { s.js.boot with state := 6, cause := BitVec.ofNat 8 cause, verified := false } },
    jq := { s.jq with running := false, quiesced := true, phases := 0, acts := [], held := [], carried := [] } }

/-- The port comes UP on its 8 aligned lanes, not yet admitted; both directions start from R254 (R255, R257, R261). -/
def State.portUp (s : State) (p : Nat) : State :=
  let q := s.port p
  let bufs := match s.peer p with | some d => d.rxBufs | none => []
  if q.state = 4 ∨ q.state = 5 then s
  else
    let s := (s.stageClear p).setPort p fun x =>
      let y := x.fresh
      { y with state := 4, half := false, lanes := y.lanes.map fun l => { l with bad := false, bipRun := 0 }, cause := 0, attempt := 0, failed := 0, lastFail := 0, trainSeen := false,
               rx := { y.rx with granted := 32 :: (bufs.map (BitVec.ofNat 16 ·)).take 3 ++ List.replicate (3 - bufs.length) 0 } }
    s.sendCredit p

/-- A received IDENT: answered, then checked (R256–R258, R332). -/
def State.identFrameIn (s : State) (p : Nat) (payload : List Byte) : State :=
  let i := identIn payload
  let s := s.answerIdent p
  let s := s.setPort p fun q => { q with partner := BitVec.ofNat 16 i.id, partnerPort := BitVec.ofNat 3 i.port, partnerValid := true }
  if !s.verified then s
  else
    match s.dupPort p i.id with
    | some q =>
      let dup := fun (x : PeerPort) => x.state == 6 && x.cause == 2
      if dup (s.port p) && dup (s.port q) then s
      else
        let s := (s.fence p 2).fence q 2
        s.event (0x41 + min p q) 0x0703 1 [i1 (min p q), i1 (max p q), i2 i.id]
    | none =>
      match s.peer p with
      | none => s
      | some d =>
        if (s.port p).state = 6 ∧ (s.port p).cause = 2 then s
        else if s.identPasses d i then s.portUp p
        else
          let s := s.fence p 1
          let s := s.event (0x41 + p) 0x0702 1 [i1 p, i2 i.id, i1 i.x, i1 i.y, i1 i.z, i1 i.port, i2 d.member]
          if s.js.boot.state = 4 then (s.declMismatch 5 d.member i.id).enterSafe 10 else s

def execIdentFrame (p : BitVec 3) (f : Frame) (s : State) : Host.Outcome State Fault Refusal :=
  run (fun s => s.onFrame p.toNat 4 f fun s _ => s.identFrameIn p.toNat f.payload) s

/-! ### Training (R262) -/

/-- A failed attempt; eight in a row are recorded once. -/
def State.attemptFails (s : State) (p why : Nat) : State :=
  let s := s.setPort p fun q => { q with attempt := 0, failed := q.failed + 1, lastFail := why }
  let q := s.port p
  if q.failed ≥ 8 ∧ !q.trainSeen then
    (s.setPort p fun q => { q with trainSeen := true }).event (0x41 + p) 0x0705 0 [i1 p, i4 q.failed, i1 why]
  else s

def execNotReadyFrame (p : BitVec 3) (f : Frame) (s : State) : Host.Outcome State Fault Refusal :=
  run (fun s => s.onFrame p.toNat 5 f fun s _ =>
    if (s.port p.toNat).attempt = 2 then s.attemptFails p.toNat 3 else s) s

/-! ### Lanes (R243, R244, R259, R260) -/

/-- The lanes in use: all 8, or the half kept. -/
def PeerPort.active (q : PeerPort) : List Nat :=
  if (q.state = 5 ∨ q.realign) ∧ !q.widen then (if q.half then [4, 5, 6, 7] else [0, 1, 2, 3]) else List.range 8

/-- Aligned: every active lane locked, complete LANE ids, markers within 20 ns (R243). -/
def PeerPort.aligned (q : PeerPort) : Bool :=
  let ls := q.active.map fun l => q.lanes.getD l Lane.reset
  ls.all (fun l => l.locked && l.inSkew) && (List.range ls.length).all fun i => ls.any fun l => l.id.toNat == i

/-- Failed lanes as a bitmap. -/
def PeerPort.badMap (q : PeerPort) : Nat :=
  (q.lanes.zipIdx.map fun l => if l.1.bad then 2 ^ l.2 else 0).foldl (· + ·) 0

def PeerPort.lockMap (q : PeerPort) : Nat :=
  (q.lanes.zipIdx.map fun l => if l.1.locked then 2 ^ l.2 else 0).foldl (· + ·) 0

/-- A lane that has to lock anew. -/
def Lane.relock (l : Lane) : Lane := { l with locked := false, good := 0, miss := 0, bipRun := 0 }

/-- The port runs on one half: state 5, lanes relock, EV_LANE_DEGRADE (R259). -/
def State.toHalf (s : State) (p : Nat) (half : Bool) (cause : Nat) : State :=
  let bad := (s.port p).badMap
  let s := s.setPort p fun q => { q with
    state := 5, half := half, realign := true, widen := false, lanes := q.lanes.map Lane.relock }
  s.event (0x41 + p) 0x0704 1 [i1 p, i1 (b2n half), i1 bad, i1 cause]

/-- A lane of a port in service has failed (R259, R260). Causes: 1 lost lock, 2 loss of signal, 3 BIP. -/
def State.degrade (s : State) (p cause : Nat) : State :=
  let bad := (s.port p).badMap
  let low := bad % 16 ≠ 0
  let high := bad / 16 ≠ 0
  if low ∧ high then s.portFail p 5
  else
    match s.peer p with
    | some d =>
      if !d.degraded then s.portFail p 5
      else
        let half := decide low
        let s := s.sendCtl p 6 (b2n half)
        (s.toHalf p half cause).needRetry p
    | none => s.portFail p 5

/-- A lane fails in a receive direction (R244, R259): a lost lock or a lost signal unlocks it, a BIP count that keeps rising does not. A
port in service degrades; one that trains is no longer aligned when its lock is gone. -/
def State.laneFails (s : State) (p l cause : Nat) : State :=
  let lost := cause != 3
  let s := s.setPort p fun q => { q with
    lanes := modifyNth (fun x => { x with locked := x.locked && !lost, good := if lost then 0 else x.good, bad := true }) l q.lanes }
  if (s.port p).state = 4 ∨ (s.port p).state = 5 then (if (s.port p).active.contains l then s.degrade p cause else s)
  else s.setPort p fun q => { q with state := if lost ∧ (q.state = 2 ∨ q.state = 3) then 1 else q.state }

/-- At a resume from quiesce a port fenced for a duplicate identity trains again, and a degraded port lets all 8 lanes lock, which
takes it back to 8 lanes if they do (R260, R264). -/
def PeerPort.resumed (p : PeerPort) : PeerPort :=
  if p.state = 6 ∧ p.cause = 2 then { p with state := 0, partnerValid := false }
  else if p.state = 5 ∧ !p.realign then { p with widen := true, lanes := p.lanes.map Lane.relock }
  else p

/-- One expected marker on a lane: counts towards lock, or checks a locked lane (R243, R244). -/
def laneMarker (l : Lane) (m : Marker) : Lane :=
  let n := m.bits.toNat
  let pat := decide (bitsAt n 0 60 = markerPattern)
  let id : BitVec 3 := BitVec.ofNat 3 (bitsAt n 60 3)
  let bip : Byte := BitVec.ofNat 8 (bitsAt n 64 8)
  let nb := decide (bitsAt n 72 8 + bip.toNat = 255)
  let same := bip == bipOf m.interval
  let l := { l with inSkew := m.inSkew, los := false }
  if l.locked then
    if pat && id == l.id then
      if same then { l with miss := 0, bipRun := 0 }
      else { l with miss := 0, bip := stick l.bip 1, bipRun := l.bipRun + 1 }
    else { l with miss := l.miss + 1, bipRun := 0 }
  else if pat && nb then
    if l.good > 0 && m.onTime && id == l.id && same then
      { l with good := l.good + 1, locked := decide (l.good + 1 ≥ 3), miss := 0, bipRun := 0 }
    else { l with good := 1, id := id }
  else { l with good := 0 }

/-- The port has just become aligned: a port that trains sends IDENT, a degraded one has relocked on its half or, after a resume, on all
8 lanes (R243, R256, R259, R260, R262). -/
def State.nowAligned (s : State) (p : Nat) : State :=
  let q := s.port p
  if q.widen then s.setPort p fun q => { q with
    state := 4, half := false, widen := false, realign := false, lanes := q.lanes.map fun l => { l with bad := false, bipRun := 0 } }
  else if q.realign then s.setPort p fun q => { q with realign := false }
  else if q.state = 0 ∨ q.state = 1 then
    let s := s.setPort p fun q => { q with state := 2 }
    if s.verified then
      (s.setPort p fun q => { q with state := 3, attempt := if q.attempt = 1 then 2 else q.attempt }).sendIdent p
    else s
  else s

def doMarkerReceive (p lane : BitVec 3) (m : Marker) (s : State) : State :=
  let p := p.toNat
  let l := lane.toNat
  let s := s.setPort p fun q =>
    { q with lanes := modifyNth (fun x => laneMarker x m) l q.lanes, rx := { q.rx with scr := scrReset } }
  let x := (s.port p).lanes.getD l Lane.reset
  if x.locked && decide (x.miss ≥ 3) then s.laneFails p l 1
  else if x.locked && decide (x.bipRun ≥ 16) then s.laneFails p l 3
  else if (s.port p).aligned then s.nowAligned p
  else s

/-- A lane marker is checked for lock, loss of lock and parity (R243, R244, R259). -/
def execMarkerReceive (p lane : BitVec 3) (m : Marker) (s : State) : Host.Outcome State Fault Refusal :=
  run (doMarkerReceive p lane m) s

/-- Words of the frame stream: an idle word is eight zero bytes (R245). -/
def idleWord : List Byte := List.replicate 8 0

/-- The next k words of a port's frame stream, from word pos of the blocks after a marker, and what stays to be sent: a frame starts on a
word boundary after the idle words that its gap gives, and one that must start a block waits for the next (R245, R248). -/
def txWords : Nat → Nat → List Nat → List WireFrame → List (List Byte) × List WireFrame
  | 0, _, _, wire => ([], wire)
  | k + 1, pos, gaps, wire =>
    match wire with
    | [] => let r := txWords k (pos + 1) [] []; (idleWord :: r.1, r.2)
    | f :: more =>
      match f.words with
      | [] => let r := txWords k (pos + 1) gaps more; (idleWord :: r.1, r.2)
      | x :: xs =>
        if !f.started && gaps.headD 0 != 0 then
          let r := txWords k (pos + 1) ((gaps.headD 0 - 1) :: gaps.drop 1) wire; (idleWord :: r.1, r.2)
        else if !f.started && f.atBlock && pos % 40 != 0 then
          let r := txWords k (pos + 1) gaps wire; (idleWord :: r.1, r.2)
        else
          let gaps := if f.started then gaps else gaps.drop 1
          let r := txWords k (pos + 1) gaps (if xs.isEmpty then more else ⟨xs, false, true⟩ :: more); (x :: r.1, r.2)

/-- Block slots between two marker slots (R242). -/
def markerSlots : Nat := 8192

/-- A lane's bits join those that wait, and its whole 160-bit words are sent (R237). -/
def State.sendLane (s : State) (p lane : Nat) (bits : List Bool) : State :=
  let r := laneWords ((s.port p).tx.rest.getD lane [] ++ bits)
  (s.setPort p fun q => { q with tx := { q.tx with rest := modifyNth (fun _ => r.2) lane q.tx.rest } }).emit (.txd p lane r.1)

/-- n block slots of the frame stream and the marker slot after them: the blocks are scrambled, encoded and dealt to the lanes in use,
and each lane sends its share and then its marker, whose BIP covers that share (R238, R239, R241, R242, R259). -/
def State.sendBlocks (s : State) (p n : Nat) (gaps : List Nat) : State :=
  let act := (s.port p).active
  let w := txWords (40 * n) 0 gaps (s.port p).tx.wire
  let s := s.setPort p fun q => { q with tx := { q.tx with wire := w.2 } }
  let streams := laneStreams act.length scrReset (groupsOf 320 w.1.flatten)
  (List.zip act streams).zipIdx.foldl
    (fun s x => s.sendLane p x.1.1 (x.1.2 ++ natBits 340 (markerBits x.2 (bipOf x.1.2)).toNat)) s

/-- After 8,192 block slots each lane in use sends its marker; the gaps say how many idle words came before each frame of those slots
(R242, R245). -/
def execMarkerTransmit (p : BitVec 3) (gaps : List Nat) (s : State) : Host.Outcome State Fault Refusal :=
  run (fun s => s.sendBlocks p.toNat markerSlots gaps) s

/-- One word of a block enters the delineation (R245, R247, R248): its place in the block, its bytes, and whether they are marked errored.
A frame, or the header that ends delineation, comes out. -/
def Cutter.word (c : Cutter) (i : Nat) (w : List Byte) (err : Bool) : Cutter × Option CutFrame :=
  if c.part.isEmpty then
    if w.all (· == 0) || (c.hunt && i != 0) then (c, none)
    else ({ c with part := w, errored := err, atBlock := i == 0 }, none)
  else
    let b := c.part ++ w
    let bad := c.errored || err
    let hdr := BitVec.ofNat 128 (natLE (b.take 16))
    let h := frameHdr hdr
    let lost : Cutter := ⟨true, [], false, false⟩
    if b.length = 16 then
      if h.sof ≠ 0xD5 ∨ headerCrc hdr.toNat ≠ h.hcrc then (lost, if c.hunt then none else some ⟨⟨hdr, [], 0, c.atBlock⟩, bad⟩)
      else if h.len < 32 ∨ h.len > 4120 then (lost, some ⟨⟨hdr, [], 0, c.atBlock⟩, bad⟩)
      else ({ c with hunt := false, part := b, errored := bad }, none)
    else if b.length < h.len then ({ c with part := b, errored := bad }, none)
    else
      let tr := BitVec.ofNat 64 (natLE ((b.drop (h.len - 8)).take 8))
      let f : Frame := ⟨hdr, (b.drop 16).take (h.len - 24), tr, c.atBlock⟩
      let eof := bitsAt tr.toNat 32 8
      (if eof = 0xFD ∨ eof = 0xFE then ⟨false, [], false, false⟩ else lost, some ⟨f, bad⟩)

/-- A decoded block's 40 words, the first 20 codeword A's and the others codeword B's, cut into frames (R240, R245). -/
def Cutter.block (c : Cutter) (bytes : List Byte) (badA badB : Bool) : Cutter × List CutFrame :=
  (groupsOf 8 bytes).zipIdx.foldl (fun a x =>
    let r := a.1.word x.2 x.1 (if x.2 < 20 then badA else badB)
    (r.1, a.2 ++ r.2.toList)) (c, [])

/-- The bits of the active lanes in the order of their LANE ids (R243). -/
def PeerPort.inOrder (q : PeerPort) (bits : List (List Bool)) : List (List Bool) :=
  (List.range q.active.length).map fun i =>
    ((List.zip q.active bits).find? fun x => (q.lanes.getD x.1 Lane.reset).id.toNat == i).elim [] Prod.snd

/-- A received codeword, taken out of the bits of its block slot lane by lane, is decoded and descrambled; a codeword the decoder cannot
correct has its 160 bytes marked errored, and codeword B completes the block, whose frames are cut (R238–R241, R243, R245). -/
def doCodewordDecode (p : BitVec 3) (second : Bool) (bits : List (List Bool)) (s : State) : State :=
  let p := p.toNat
  let cw := laneSymbols ((s.port p).inOrder bits) second
  let r := rsDecode cw
  let data := match r with
    | .corrected c => c.take 128
    | _ => cw.take 128
  let d := scramble (s.port p).rx.scr (data.flatMap (natBits 10))
  let bytes := bitmapBytes d.1
  let bad := r == .failed
  s.setPort p fun q =>
    let q := { q with rx := { q.rx with scr := d.2 } }
    let q := match r with
      | .clean => q
      | .corrected _ => { q with fecCorr := stick q.fecCorr 1 }
      | .failed => { q with fecUncorr := stick q.fecUncorr 1 }
    if second then
      let c := q.rx.cutter.block (q.rx.decoded ++ bytes) q.rx.decodedBad bad
      { q with rx := { q.rx with decoded := [], decodedBad := false, cutter := c.1, cut := q.rx.cut ++ c.2 } }
    else { q with rx := { q.rx with decoded := bytes, decodedBad := bad } }

def execCodewordDecode (p : BitVec 3) (second : Bool) (low high : List (List Bool)) (s : State) : Host.Outcome State Fault Refusal :=
  run (doCodewordDecode p second (low ++ high)) s

/-- Pp_Ll_LOS asserted (R259). -/
def execLaneLos (p lane : BitVec 3) (s : State) : Host.Outcome State Fault Refusal :=
  run (fun s =>
    let s := s.setPort p.toNat fun q => { q with lanes := modifyNth (fun x => { x with los := true }) lane.toNat q.lanes }
    s.laneFails p.toNat lane.toNat 2) s

/-- DEGRADE received: the far end's half is taken (R259, R260). -/
def State.degradeIn (s : State) (p : Nat) (half : Bool) : State :=
  let q := s.port p
  if !(q.state == 4 || q.state == 5) then s
  else if q.state = 5 ∧ q.half = half then s
  else if q.state = 5 then s.portFail p 5
  else
    match s.peer p with
    | some d => if d.degraded then (s.toHalf p half 4).needRetry p else s.portFail p 5
    | none => s

def execDegradeFrame (p : BitVec 3) (f : Frame) (s : State) : Host.Outcome State Fault Refusal :=
  run (fun s => s.onFrame p.toNat 6 f fun s _ => s.degradeIn p.toNat (bitAt (natLE (f.payload.take 1)) 0)) s

/-- DEGRADE is repeated every 10 µs by the receiver that detected the failed lane (R259). -/
def execDegradeRepeat (p : BitVec 3) (s : State) : Host.Outcome State Fault Refusal :=
  run (fun s =>
    let q := s.port p.toNat
    if q.realign && q.lanes.any Lane.bad then s.sendCtl p.toNat 6 (b2n q.half) else s) s

/-- Not aligned again within 1 ms: the port fails (R259); one that a resume let relock on 8 lanes goes back to its half (R260). -/
def State.realignTimeout (s : State) (p : Nat) : State :=
  if (s.port p).widen then
    s.setPort p fun q => { q with widen := false, realign := true, lanes := q.lanes.map Lane.relock }
  else if (s.port p).realign then s.portFail p 6
  else s

def execDegradeRealignTimeout (p : BitVec 3) (s : State) : Host.Outcome State Fault Refusal := run (fun s => s.realignTimeout p.toNat) s

/-! ### Timers and training -/

/-- RETRY_TO passed without the requested frame (R250). -/
def execRetryTimeout (p : BitVec 3) (s : State) : Host.Outcome State Fault Refusal :=
  run (fun s => if (s.port p.toNat).rx.retryOut then s.askRetry p.toNat else s) s

/-- 64 ns without another frame: an ACK frame (R251). -/
def execAckTimer (p : BitVec 3) (s : State) : Host.Outcome State Fault Refusal :=
  run (fun s => if (s.port p.toNat).rx.ackDue then s.sendCtl p.toNat 1 0 else s) s

/-- A CREDIT frame at least once every 1 µs (R254). -/
def execCreditTimer (p : BitVec 3) (s : State) : Host.Outcome State Fault Refusal :=
  run (fun s => if (s.port p.toNat).state = 4 ∨ (s.port p.toNat).state = 5 then s.sendCredit p.toNat else s) s

/-- Pp_ADAPT_REQ for a port. -/
def State.setAdapt (s : State) (p : Nat) (on : Bool) : State :=
  let m : Byte := BitVec.ofNat 8 (2 ^ p)
  { s with pins := { s.pins with adaptReq := if on then s.pins.adaptReq ||| m else s.pins.adaptReq &&& ~~~m } }

/-- An attempt of a port that is not UP (R262). -/
def doTrainingAttempt (p : BitVec 3) (s : State) : State :=
  let p := p.toNat
  let q := s.port p
  if !s.verified || q.state == 4 || q.state == 5 || (q.state == 6 && q.cause == 2) then s
  else if q.aligned then
    (s.setPort p fun q => { q with state := 3, attempt := 2 }).sendIdent p
  else (s.setPort p fun q => { q with state := 1, attempt := 1 }).setAdapt p true

def execTrainingAttempt (p : BitVec 3) (s : State) : Host.Outcome State Fault Refusal := run (doTrainingAttempt p) s

/-- 800 µs without alignment (R262). -/
def execTrainingAlignTimeout (p : BitVec 3) (s : State) : Host.Outcome State Fault Refusal :=
  run (fun s => if (s.port p.toNat).attempt = 1 then s.attemptFails p.toNat 1 else s) s

/-- 100 µs without IDENT or NOT_READY (R262). -/
def execTrainingIdentTimeout (p : BitVec 3) (s : State) : Host.Outcome State Fault Refusal :=
  run (fun s => if (s.port p.toNat).attempt = 2 then s.attemptFails p.toNat 2 else s) s

/-- Pp_ADAPT_DONE: the request ends (R237, R262). -/
def execAdaptDone (p : BitVec 3) (s : State) : Host.Outcome State Fault Refusal :=
  run (fun s => s.setAdapt p.toNat false) s

end Sys2Proof.Machine
end

