-- ==== Sys2Proof/Machine/Ring.lean ====
section
/-!
DEFINITION. Lap 1 of the ring exchange (spec/04_ring_exchange.md R102–R122, R131–R137): routes, sending, the hop, bypass,
poison, and the owner's masks (spec/03 R86–R88).
-/

namespace Sys2Proof.Machine

/-! ### Routes (R103, R104, R107, R108) -/

/-- Does the chunk run in the − direction (R102)? -/
def DomEntry.minusOf (d : DomEntry) (i : Nat) : Bool := d.bidir && i % 2 == 1

/-- A member's place on a chunk's lap-1 ring. -/
structure Hop where
  /-- place in ring order, 0 = first -/
  k : Nat
  n : Nat
  minus : Bool
  deriving DecidableEq, Repr

/-- Ring order of position p when the owner stands at o (R107). -/
def ringOrder (minus : Bool) (n o p : Nat) : Nat := if minus then (o + n - p - 1) % n else (p + n - o - 1) % n

/-- The axis takes part for these coordinates: named, with the owner's coordinates on the earlier named axes and on
every axis that does not exchange (R103, R108; notes/assumptions/33.md). -/
def DomEntry.onRing (d : DomEntry) (own c : Coord) (axis : Nat) : Bool :=
  d.contains c && d.axes.getLsbD axis &&
    (List.range 3).all fun a => a == axis || (d.axes.getLsbD a && decide (axis < a)) || c.axis a == own.axis a

def DomEntry.hopAt (d : DomEntry) (i : Nat) (own c : Coord) (axis : Nat) : Option Hop :=
  if d.onRing own c axis then
    let n := d.len axis
    some ⟨ringOrder (d.minusOf i) n (own.axis axis - d.org axis) (c.axis axis - d.org axis), n, d.minusOf i⟩
  else none

/-- This member's place on a chunk's ring. -/
def State.hop (s : State) (i : Nat) (e : ChunkEntry) (d : DomEntry) (axis : Nat) : Option Hop :=
  d.hopAt i (s.coordOf e.owner) s.decl.coord axis

def Hop.isFirst (h : Hop) : Bool := h.k == 0
/-- The axis ends here. -/
def Hop.isEnd (h : Hop) : Bool := h.k + 1 == h.n

def DomEntry.firstAxis (d : DomEntry) : Nat := d.lap1Axes.headD 0
def DomEntry.lastAxis (d : DomEntry) : Nat := (d.lap1Axes.getLast?).getD 0

def torusLen (t : Coord) (axis : Nat) : Nat := t.axis axis

/-- Does the axis close with a wrap link (R104)? -/
def State.wrapped (s : State) (d : DomEntry) (axis : Nat) : Bool := d.len axis == torusLen s.decl.torus axis

def Coord.setAxis (c : Coord) (axis v : Nat) : Coord :=
  match axis with
  | 0 => { c with x := v }
  | 1 => { c with y := v }
  | _ => { c with z := v }

def State.memberAt (s : State) (c : Coord) : Nat := ((s.decl.members.find? fun m => m.at_ == c).map MemberAt.id).getD 0

/-- Port that sends along an axis (R236). -/
def axisPort (axis : Nat) (minus : Bool) : Nat := 2 * axis + b2n minus

/-- How a hop leaves: port, whether it is a forwarded closing hop, whether it closes at all, and the consumer. -/
structure Leave where
  port : Nat
  fwd : Bool
  closing : Bool
  dst : Nat
  deriving DecidableEq, Repr

def State.leave (s : State) (d : DomEntry) (axis : Nat) (minus : Bool) : Leave :=
  let me := s.decl.coord
  let n := d.len axis
  let p := me.axis axis - d.org axis
  let q := if minus then (p + n - 1) % n else (p + 1) % n
  let closing := !s.wrapped d axis && (if minus then p == 0 else p + 1 == n)
  { port := axisPort axis (minus != closing), fwd := closing && decide (n > 2), closing := closing,
    dst := s.memberAt (me.setAxis axis (d.org axis + q)) }

/-! ### Sending (R110, R133, R135) -/

def seqNext (l : List SeqCnt) (port vc : Nat) : W32 :=
  ((l.find? fun x => x.port == port && x.vc == vc).map SeqCnt.next).getD 0

def seqSet (l : List SeqCnt) (port vc : Nat) (v : W32) : List SeqCnt :=
  ⟨port, vc, v⟩ :: l.filter fun x => !(x.port == port && x.vc == vc)

/-- A value to be compared with the twin's (R371). -/
def State.twinSend (s : State) (item : TwinItem) (msg : TwinMsg) : State :=
  if s.jg.twin.present then
    ({ s with jg := { s.jg with twin := { s.jg.twin with sent := s.jg.twin.sent ++ [item] } } }).emit (.twin msg)
  else s

/-- Write a chunk into staging for sending, a closing-hop or forwarded one in the FWD pool and any other in TX, and send it (R131): SRC,
SEQ, length and CRC are set here. A failed or halted
member sends nothing of its own (R362). -/
def State.sendChunk (s : State) (port vc : Nat) (h : ChunkHdr) (payload : List Byte) : State :=
  let seq := seqNext s.jx.seqTx port vc
  let h := { h with src := s.me, seq := seq, len := payload.length }
  let bits := h.pack payload
  let s := { s with jx := { s.jx with seqTx := seqSet s.jx.seqTx port vc (seq + 1) } }
  let crc := bits.extractLsb' 480 32
  let s := s.twinSend (.chunk h.chunk crc) (.chunkCrc h.chunk crc)
  let bytes := bytesLE 64 bits.toNat ++ payload
  let onward := if h.op = 0 then vc == 2 else h.owner != s.me
  (s.stagePut (if onward then .fwd else .tx) port vc bits bytes).queueItem port vc bytes

/-- Send a lap-1 chunk on its next hop. -/
def State.sendLap1 (s : State) (d : DomEntry) (axis : Nat) (hop : Hop) (h : ChunkHdr) (payload : List Byte) : State :=
  let l := s.leave d axis hop.minus
  s.sendChunk l.port (if l.closing then 2 else 1)
    { h with axis := axis, hop := hop.k, minus := hop.minus, fwd := l.fwd, dst := l.dst } payload

/-- Free a receive buffer: a credit for the port and VC (R131, R132). -/
def State.freeChunk (s : State) (c : RxChunk) : State :=
  (s.stageTake fun b => b.pool == .rx && b.port == c.port && b.vc == c.vc && b.hdr == c.hdr).grantCredit c.port c.vc

/-! ### Payloads (R111) -/

/-- The parts of a lap-1 payload. -/
structure Lap1Parts where
  codes : List Byte
  scales : List W16
  side : List W16
  sketch : List Byte
  deriving DecidableEq, Repr

def lap1Parts (h : ChunkHdr) (b : List Byte) : Lap1Parts :=
  let n := (if h.wire = 1 then 64 else 32) * h.nGroups
  let words := fun (l : List Byte) => (groupsOf 2 l).map w16LE
  { codes := b.take n, scales := words ((b.drop n).take (2 * h.nScales)),
    side := words ((b.drop (n + 2 * h.nScales)).take (2 * h.nSide)),
    sketch := if h.sketch then (b.drop (n + 2 * h.nScales + 2 * h.nSide)).take h.rangeGroups else [] }

/-- Elements of a group list in ascending order. -/
def groupElems (groups : List Nat) : List Nat := groups.flatMap fun g => (List.range 32).map fun k => 32 * g + k

/-- Neighbouring equal entries kept once. -/
def dedupRuns : List Nat → List Nat
  | [] => []
  | a :: rest =>
    match rest with
    | [] => [a]
    | b :: _ => if a = b then dedupRuns rest else a :: dedupRuns rest

/-- Channel segments that hold a selected group. -/
def CatEntry.segsOf (c : CatEntry) (groups : List Nat) : List Nat := dedupRuns ((groupElems groups).map c.chanOf)

/-- The incoming values x_e of the selected elements (R114). -/
def lap1Decode (c : CatEntry) (groups : List Nat) (h : ChunkHdr) (b : List Byte) : List W32 :=
  let p := lap1Parts h b
  if h.wire = 1 then (groupsOf 2 p.codes).map fun x => bf16Up (w16LE x)
  else jw8Decode (((groupElems groups).map c.chanOf).zip p.codes) ((c.segsOf groups).zip p.scales) p.side

/-- Encode values for a chunk (R96–R98, R115). -/
def State.lap1Encode (s : State) (tensor : Nat) (c : CatEntry) (groups : List Nat) (vals : List W32) : JwOut :=
  let es := ((groupElems groups).zip vals).map fun p =>
    (⟨c.chanOf p.1, p.2, if c.srQ then some (srValue s.ju.seed .jw8 tensor p.1 s.jq.step s.me) else none⟩ : JwElem)
  if c.wire = 1 then jw16Encode es else jw8Encode c.escB c.clipOct c.sideCap es

/-- Saturations of an encode (R99). -/
def State.addSat (s : State) (tensor : Nat) (c : CatEntry) (tile n : Nat) : State :=
  if n = 0 then s
  else
    let a := s.decl.satBase + 8 * tensor
    let old : W32 := BitVec.ofNat 32 (memNat s.stateMem a 4)
    let cum : W32 := BitVec.ofNat 32 (memNat s.stateMem (a + 4) 4)
    let now := stick old n
    let s := s.stateWrite tile a (bytes32 now ++ bytes32 (stick cum n))
    let s := { s with ji := { s.ji with satTotal := stick s.ji.satTotal n } }
    if now.toNat > c.satThresh.toNat ∧ !s.ji.satSeen.contains tensor then
      ({ s with ji := { s.ji with satSeen := tensor :: s.ji.satSeen } }).event tile 0x0204 0
        [i4 tensor, i8 s.jq.step.toNat, i4 (c.satThresh.toNat + 1), i2 tile]
    else s

/-- Own sketch codes of a chunk's range; a group not received codes 0 (R86, R87). -/
def State.ownSketch (s : State) (e : ChunkEntry) (tensor : Nat) : List Byte :=
  (List.range e.rangeGroups).map fun k =>
    match s.gPrime tensor (e.group0 + k) with
    | some v => sketchCode v
    | none => 0

def maxSketch (a b : List Byte) : List Byte := List.zipWith byteMax a b

/-- The header fields that a chunk-map entry and the step fix (R109, R404). -/
def State.lap1Hdr (s : State) (i tensor : Nat) (c : CatEntry) (e : ChunkEntry) (d : DomEntry) (tepoch : BitVec 2) : ChunkHdr :=
  { version := 2, op := 0, axis := 0, tepoch := tepoch, mepoch := s.jq.step.toNat % 4, wire := c.wire, bypass := false,
    dense := s.density c 0 == 0, sketch := s.density c 2 != 0, mask := false, poison := false, fwd := false,
    minus := false, last := false, domain := e.domain, hop := 0, bypassN := 0, key := d.key.toNat, step := s.jq.step,
    tensor := tensor, src := s.me, dst := 0, owner := e.owner, chunk := i, nGroups := 0, nScales := 0, nSide := 0,
    len := 0, seq := 0, aux := 0, group0 := e.group0, rangeGroups := e.rangeGroups, crc := 0 }

/-- A chunk of zero codes with its header fields: the first member's bypass, a missing mask's start, POISON (R91, R119,
R121). -/
def State.zeroChunk (_s : State) (h : ChunkHdr) (c : CatEntry) (groups : List Nat) : ChunkHdr × List Byte :=
  let segs := if c.wire = 1 then 0 else (c.segsOf groups).length
  let h := { h with nGroups := groups.length, nScales := segs }
  (h, List.replicate ((if c.wire = 1 then 64 else 32) * groups.length + 2 * segs + (if h.sketch then h.rangeGroups else 0)) 0)

/-! ### Residuals of a hop (R94, R115) -/

/-- Residuals of the groups a chunk does not take from this member: g′. -/
def State.resUnselected (s : State) (tensor : Nat) (c : CatEntry) (e : ChunkEntry) (sel : List Nat) : State :=
  ((List.range e.rangeGroups).map (e.group0 + ·)).foldl
    (fun s g =>
      if sel.contains g then s
      else match s.gPrime tensor g with
        | some v => s.putResiduals tensor c (v.mapIdx fun k x => (32 * g + k, x))
        | none => s) s

/-- Residuals of the selected elements. -/
def State.resSelected (s : State) (tensor : Nat) (c : CatEntry) (sel : List Nat) (r : List W32) : State :=
  s.putResiduals tensor c ((groupElems sel).zip r)

/-- Selected residuals that no row of R94 gives: this member only passed POISON on (notes/assumptions/5.md). -/
def State.resOpen (s : State) (tensor : Nat) (c : CatEntry) (sel : List Nat) : State :=
  let n := 32 * sel.length
  let k := s.freeCnt
  ({ s with freeCnt := k + n }).resSelected tensor c sel ((List.range n).map fun j => Config.residual (k + j))

/-- Selected residuals of a contribution that POISON took the place of: +0.0 at the owner, else no row of R94 gives one. -/
def State.resLost (s : State) (i tensor : Nat) (c : CatEntry) (e : ChunkEntry) (sel : List Nat) : State :=
  if s.jx.withheld.contains i then s
  else if e.owner = s.me then s.resSelected tensor c sel (List.replicate (32 * sel.length) 0)
  else s.resOpen tensor c sel

/-- This member misses the row's mask (R91): noted, unless the chunk is handled under R92. -/
def State.noteMask (s : State) (i tensor : Nat) (c : CatEntry) (e : ChunkEntry) : State :=
  if (s.ownSel i c e).isSome || s.ji.lost.contains i then s else s.maskLost e.tile tensor (c.rowOf e.group0) c

/-- A share that has not been encoded or settled yet: this member's own on the first axis, else a carry with values. -/
def unsettled (first : Bool) (carried : Option Folded) : Bool :=
  first || match carried with
    | some f => !f.poison && f.raw.isNone
    | none => false

/-! ### Bypass (R119, R120) -/

/-- This member withholds its contribution to a chunk. -/
def State.withhold (s : State) (i tensor : Nat) (c : CatEntry) (e : ChunkEntry) (d : DomEntry) : State :=
  let s := { s with jx := { s.jx with bypOwn := stick s.jx.bypOwn 1, withheld := i :: s.jx.withheld } }
  let s := ((List.range e.rangeGroups).map (e.group0 + ·)).foldl
    (fun s g => match s.gPrime tensor g with
      | some v => s.withheldGroup tensor c i g v
      | none => s) s
  if s.jx.late.contains e.domain then s
  else
    ({ s with jx := { s.jx with late := e.domain :: s.jx.late } }).event 0x2B 0x0306 0
      [i2 e.domain, i8 s.jq.step.toNat, i4 i, i2 s.jx.ownNow.toNat, i1 (b2n d.lateDrop)]

/-! ### The hop (R114–R116, R119, R121) -/

/-- What a hop forms before it is sent, kept or consumed. -/
inductive Formed where
  /-- values to encode, or the sum at an end -/
  | vals (f : Folded)
  /-- a chunk passed on with its payload unchanged -/
  | asIs (h : ChunkHdr) (payload : List Byte)
  deriving DecidableEq, Repr

/-- This member's share of a chunk on an axis: its own g′ on the first axis, else the carry. -/
def State.share (s : State) (i tensor : Nat) (e : ChunkEntry) (d : DomEntry) (axis : Nat) (sel : List Nat) : Option Folded :=
  if axis = d.firstAxis then
    some { chunk := i, axis := axis, vals := sel.flatMap fun g => (s.gPrime tensor g).getD (List.replicate 32 0),
           sketch := s.ownSketch e tensor, bypass := false, bypassN := 0, poison := false,
           tepoch := s.jg.epoch.current, raw := none }
  else s.jx.carries.find? fun f => f.chunk == i

/-- The folded sum S_out of a share and an incoming chunk (R114, R116). -/
def foldIn (c : CatEntry) (sel : List Nat) (u : Folded) (h : ChunkHdr) (b : List Byte) : Folded :=
  let x := lap1Decode c sel h b
  let p := lap1Parts h b
  { u with vals := List.zipWith (fun xe ue => cfold (cadd ⟨xe, 0⟩ ue)) x u.vals,
           sketch := if h.sketch then maxSketch p.sketch u.sketch else u.sketch,
           bypass := u.bypass || h.bypass, bypassN := min (u.bypassN + h.bypassN) 65535, tepoch := h.tepoch }

/-- The incoming sum without this member's share: an end keeps it as it is (R119). -/
def keepIn (c : CatEntry) (sel : List Nat) (i axis : Nat) (h : ChunkHdr) (b : List Byte) : Folded :=
  { chunk := i, axis := axis, vals := lap1Decode c sel h b, sketch := (lap1Parts h b).sketch, bypass := true,
    bypassN := min (h.bypassN + 1) 65535, poison := false, tepoch := h.tepoch, raw := none }

/-- A chunk passed on with a contribution withheld. -/
def ChunkHdr.bypassed (h : ChunkHdr) : ChunkHdr := { h with bypass := true, bypassN := min (h.bypassN + 1) 65535 }

/-- Send what a hop formed: encode values, with their residual when this is the member's one encode (R115). -/
def State.sendFormed (s : State) (i tensor : Nat) (c : CatEntry) (e : ChunkEntry) (d : DomEntry) (axis : Nat) (hop : Hop)
    (sel : List Nat) (tileUnit : Bool) : Formed → State
  | .asIs h b => s.sendLap1 d axis hop h b
  | .vals f =>
    let o := s.lap1Encode tensor c sel f.vals
    let s := s.nonFiniteIf (o.bad || f.vals.any f32NonFinite) (if tileUnit then .tiles else .ring)
    let s := s.addSat tensor c e.tile o.sat
    let s := if s.jx.withheld.contains i then s
      else s.resSelected tensor c sel (List.zipWith f32Sub f.vals o.decoded)
    let h := s.lap1Hdr i tensor c e d f.tepoch
    let h := { h with nGroups := sel.length, nScales := o.scales.length, nSide := o.side.length, bypass := f.bypass,
                      bypassN := f.bypassN }
    s.sendLap1 d axis hop h
      (o.codes ++ o.scales.flatMap bytes16 ++ o.side.flatMap bytes16 ++ (if h.sketch then f.sketch else []))

/-- A chunk owned here has been reduced, or came as POISON and runs no update (R21, R121). An owner whose mask is missing
keeps every group's residual at g′ (R91). -/
def State.ownerTakes (s : State) (i tensor : Nat) (c : CatEntry) (e : ChunkEntry) (sel : List Nat) (f : Folded) : State :=
  if f.poison then { s with jx := { s.jx with consumed := i :: s.jx.consumed } }
  else
    let flat := ((List.range e.rangeGroups).map (e.group0 + ·)).flatMap fun g =>
      match sel.findIdx? (· == g) with
      | some k => (f.vals.drop (32 * k)).take 32
      | none => List.replicate 32 0
    let s := s.nonFiniteIf (f.vals.any f32NonFinite) .ring
    let s := if s.jx.withheld.contains i || (s.ownSel i c e).isNone then s
      else s.resSelected tensor c sel (List.replicate (32 * sel.length) 0)
    let s := { s with ji := { s.ji with sketches := if s.density c 2 = 0 then s.ji.sketches else tabSet i f.sketch s.ji.sketches } }
    let s := s.stagePut .hold 0 0 (BitVec.ofNat 512 i) []
    { s with jx := { s.jx with hold := s.jx.hold ++ [{ f with vals := flat }] }, ju := { s.ju with ready := s.ju.ready ++ [i] } }

/-- The selection an owner without its mask places the sum by: the mask it built itself, if it still has it
(notes/assumptions/33.md). -/
def State.builtSel (s : State) (tensor : Nat) (c : CatEntry) (e : ChunkEntry) : List Nat :=
  let row := c.rowOf e.group0
  match s.ji.built.find? fun m => m.tensor == tensor && m.row == row && m.step == s.jq.step with
  | some m => (List.range e.rangeGroups).filterMap fun k =>
      if m.bits.getD (e.group0 + k - row * c.rowGroups) false then some (e.group0 + k) else none
  | none => []

/-- Keep a sum as the carry, or hand it to the owner's update. -/
def State.endLap (s : State) (i tensor : Nat) (c : CatEntry) (e : ChunkEntry) (d : DomEntry) (axis : Nat) (sel : List Nat)
    (f : Folded) : State :=
  if axis = d.lastAxis then s.ownerTakes i tensor c e sel f
  else { s with jx := { s.jx with carries := { f with axis := axis } :: s.jx.carries.filter fun x => x.chunk != i } }

/-- POISON in a chunk's place: header fields as expected, zero codes (R121). -/
def State.poisonChunk (s : State) (i tensor : Nat) (c : CatEntry) (e : ChunkEntry) (d : DomEntry) : ChunkHdr × List Byte :=
  let sel := (s.ownSel i c e).getD (s.strideSel c e)
  s.zeroChunk { s.lap1Hdr i tensor c e d s.jg.epoch.current with poison := true } c sel

def Folded.poisoned (i axis : Nat) (tepoch : BitVec 2) (raw : Option RxChunk) : Folded :=
  { chunk := i, axis := axis, vals := [], sketch := [], bypass := false, bypassN := 0, poison := true, tepoch := tepoch,
    raw := raw }

/-- Pass POISON on: sent, kept as the carry, or taken by the owner. An axis end keeps the chunk as it came and sends that on (R121). -/
def State.passPoison (s : State) (i tensor : Nat) (c : CatEntry) (e : ChunkEntry) (d : DomEntry) (axis : Nat) (hop : Hop)
    (h : ChunkHdr) (b : List Byte) : State :=
  if hop.isEnd then s.endLap i tensor c e d axis [] 
    (Folded.poisoned i axis h.tepoch (some ⟨0, 1, { h with poison := true }.pack b, b, true⟩))
  else s.sendLap1 d axis hop { h with poison := true } b

/-- The chunk that has arrived for a hop and waits for its entry. -/
def State.arrived (s : State) (i axis : Nat) : Option RxChunk :=
  s.jx.rx.find? fun x => let h := chunkHdr x.hdr; h.op == 0 && h.chunk == i && h.axis == axis

/-- Take it out of the RX pool. -/
def State.takeRx (s : State) (x : RxChunk) : State :=
  ({ s with jx := { s.jx with rx := s.jx.rx.filter fun y => y != x } }).freeChunk x

/-- The residuals that the first axis settles at this hop. -/
def State.firstAxisRes (s : State) (i tensor : Nat) (c : CatEntry) (e : ChunkEntry) (d : DomEntry) (axis : Nat) (sel : List Nat) :
    State :=
  if axis = d.firstAxis ∧ !s.jx.withheld.contains i then s.resUnselected tensor c e sel else s

/-- Is this member's contribution to a chunk ready (R119)? -/
def State.contribReady (s : State) (i axis : Nat) : Bool :=
  match s.chunk i with
  | none => true
  | some e =>
    match s.dom e.domain with
    | none => true
    | some d =>
      if axis = d.firstAxis then
        (List.range e.rangeGroups).all fun k => (s.gPrime (s.chunkTensor i) (e.group0 + k)).isSome
      else s.jx.carries.any fun f => f.chunk == i

/-- The hop of one chunk on one axis, once its incoming chunk is at hand (R114–R121). DESIGN CHOICE (notes/assumptions/33.md): an owner
whose mask is missing brings no sketch codes of its own to the row's sketch. -/
def State.hopAct (s : State) (i tensor : Nat) (c : CatEntry) (e : ChunkEntry) (d : DomEntry) (axis : Nat) (hop : Hop)
    (withheld : Bool) (inc : Option RxChunk) : State :=
  let first := axis == d.firstAxis
  let own := s.ownSel i c e
  let s := s.noteMask i tensor c e
  let s := if withheld then s.withhold i tensor c e d else s
  let sel := own.getD []
  let s := s.firstAxisRes i tensor c e d axis sel
  let share := if withheld || own.isNone then none else s.share i tensor e d axis sel
  let carried := if first || withheld then none else s.jx.carries.find? fun f => f.chunk == i
  -- a carry that its missing mask shuts out is never encoded: its groups count as unselected (R92, R94)
  let s := if own.isNone && !first && !s.jx.withheld.contains i && unsettled false carried then s.resUnselected tensor c e [] else s
  let dropCarry := fun (s : State) => if first then s
    else { s with jx := { s.jx with carries := s.jx.carries.filter fun f => f.chunk != i } }
  let base := s.lap1Hdr i tensor c e d s.jg.epoch.current
  match inc with
  | none =>
    let s := dropCarry s
    match carried with
    | some f =>
      if f.poison then
        let z := match f.raw with
          | some x => (chunkHdr x.hdr, x.payload)
          | none => s.poisonChunk i tensor c e d
        s.passPoison i tensor c e d axis hop z.1 z.2
      else
        match f.raw with
        | some x =>
          let h := chunkHdr x.hdr
          s.sendFormed i tensor c e d axis hop sel false (.asIs { h with bypass := true } x.payload)
        | none => s.sendFormed i tensor c e d axis hop sel false (.vals f)
    | none =>
      match share with
      | some f => s.sendFormed i tensor c e d axis hop sel true (.vals f)
      | none =>
        let z := s.zeroChunk base.bypassed c (own.getD (s.strideSel c e))
        s.sendFormed i tensor c e d axis hop sel true (.asIs z.1 z.2)
  | some x =>
    let h := chunkHdr x.hdr
    let s := dropCarry s
    let bad := x.poison || h.poison || (match carried with | some f => f.poison | none => false)
    let sees := hop.isEnd && axis == d.lastAxis && h.bypass && !bad
    let s := if sees then { s with jx := { s.jx with bypSeen := stick s.jx.bypSeen 1 } } else s
    if bad then
      let s := if unsettled first carried && own.isSome then s.resLost i tensor c e sel else s
      s.passPoison i tensor c e d axis hop h x.payload
    else
      match share with
      | some u =>
        let f := foldIn c sel u h x.payload
        if hop.isEnd then (s.nonFiniteIf (f.vals.any f32NonFinite) .ring).endLap i tensor c e d axis sel f
        else s.sendFormed i tensor c e d axis hop sel false (.vals f)
      | none =>
        if !hop.isEnd then s.sendFormed i tensor c e d axis hop sel false (.asIs h.bypassed x.payload)
        else if own.isSome then s.endLap i tensor c e d axis sel (keepIn c sel i axis h x.payload)
        else if axis = d.lastAxis then
          let sel := s.builtSel tensor c e
          s.ownerTakes i tensor c e sel (keepIn c sel i axis h x.payload)
        else
          s.endLap i tensor c e d axis []
            { Folded.poisoned i axis h.tepoch (some { x with hdr := h.bypassed.pack x.payload }) with poison := false, bypass := true }

/-- A lap-1 entry that adds or starts this member's contribution issues; bypass when its gate expired, or when the
contribution is not ready as it comes to issue (R119). -/
def State.lap1Add (s : State) (i axis : Nat) (bypass : Bool) : State :=
  match s.chunk i with
  | none => s
  | some e =>
    let tensor := s.chunkTensor i
    match s.cat tensor, s.dom e.domain with
    | some c, some d =>
      match s.hop i e d axis with
      | none => s
      | some hop =>
        if s.jx.added.contains (i, axis) || s.jx.expired.contains (i, axis) then s
        else
          let ready := s.contribReady i axis
          let withheld := (bypass || !ready) && !(s.ownSel i c e).isNone
          if hop.isFirst then
            ({ s with jx := { s.jx with added := (i, axis) :: s.jx.added } }).hopAct i tensor c e d axis hop withheld none
          else
            match s.arrived i axis with
            | none => s
            | some x =>
              (({ s with jx := { s.jx with added := (i, axis) :: s.jx.added } }).takeRx x).hopAct i tensor c e d axis hop withheld
                (some x)
    | _, _ => s

/-- The incoming gate of a hop expired: POISON goes on in the chunk's place (R121). -/
def State.lap1Expire (s : State) (i axis : Nat) : State :=
  match s.chunk i with
  | none => s
  | some e =>
    let tensor := s.chunkTensor i
    match s.cat tensor, s.dom e.domain with
    | some c, some d =>
      match s.hop i e d axis with
      | none => s
      | some hop =>
        if (s.arrived i axis).isSome then s
        else
          let own := s.ownSel i c e
          let sel := own.getD []
          let first := axis == d.firstAxis
          let carried := if first then none else s.jx.carries.find? fun f => f.chunk == i
          let s := s.noteMask i tensor c e
          let s := { s with jx := { s.jx with expired := (i, axis) :: s.jx.expired } }
          let s := s.firstAxisRes i tensor c e d axis sel
          let s := if first then s else { s with jx := { s.jx with carries := s.jx.carries.filter fun f => f.chunk != i } }
          let s := if unsettled first carried && own.isSome then s.resLost i tensor c e sel else s
          let z := s.poisonChunk i tensor c e d
          s.passPoison i tensor c e d axis hop z.1 z.2
    | _, _ => s

/-! ### Masks (R88) -/

/-- Largest tau with count(c ≥ tau) ≥ K; above counts the codes higher than tau. -/
def findTau (codes : List Byte) (k : Nat) : Nat → Nat → Nat × Nat
  | 0, above => (0, above)
  | tau + 1, above =>
    let n := (codes.filter fun c => c.toNat == tau + 1).length
    if above + n ≥ k then (tau + 1, above) else findTau codes k tau (above + n)

/-- The compaction selector, ascending. -/
def compact (tau : Nat) : Nat → List Byte → List Bool
  | _, [] => []
  | need, c :: rest =>
    if c.toNat > tau then true :: compact tau need rest
    else if c.toNat = tau ∧ need > 0 then true :: compact tau (need - 1) rest
    else false :: compact tau need rest

/-- The mask of a row from its combined codes (R88). -/
def buildMask (codes : List Byte) (k : Nat) : List Bool :=
  let t := findTau codes k 255 0
  compact t.1 (k - t.2) codes

/-- The chunks of a mask row. -/
def State.rowChunks (s : State) (c : CatEntry) (row : Nat) : List Nat :=
  ((List.range c.chunkCount).map (c.chunkMap + ·)).filter fun i =>
    match s.chunk i with
    | some e => c.rowOf e.group0 == row
    | none => false

/-- The owner builds a row's mask for step t + 2 once it holds every chunk's sketch. -/
def State.maskBuild (s : State) (tensor row : Nat) : State :=
  match s.cat tensor with
  | none => s
  | some c =>
    let is := s.rowChunks c row
    let sk := is.filterMap fun i => tabGet i s.ji.sketches
    let step := s.jq.step + 2
    if is.isEmpty || sk.length != is.length || !s.buildsMask c ||
        s.ji.built.any (fun m => m.tensor == tensor && m.row == row && m.step == step) then s
    else
      let codes := sk.flatten
      let tile := ((is.head?.bind s.chunk).map ChunkEntry.tile).getD 0
      let m : MaskBuilt := ⟨tensor, row, step, buildMask codes (selCount (c.rowLen row) (s.density c 2))⟩
      ({ s with ji := { s.ji with built := m :: s.ji.built } }).setWin tile fun w => { w with tensor := BitVec.ofNat 18 tensor }

def execMaskBuild (tensor row : Nat) (s : State) : Host.Outcome State Fault Refusal := run (fun s => s.maskBuild tensor row) s

end Sys2Proof.Machine
end

