-- ==== Sys2Proof/Machine/Gather.lean ====
section
/-!
DEFINITION. What a received chunk meets (spec/04_ring_exchange.md R113, R404, R118, spec/01 R37, spec/03 R92), lap 2 and the
layer gathers (R124–R128, spec/08 R222), neighbour shifts and permutations (R129, R130), and the meanings of their commands.
-/

namespace Sys2Proof.Machine

/-! ### The form rules (R404) -/

/-- The density code of a tensor at a step k steps from the present one, as a chunk of a table epoch has it: up to the next step by
the curve that the mask's build step ran on (R85), beyond by the curve of the chunk's own epoch (R35). -/
def State.densityNear (s : State) (epoch : BitVec 2) (c : CatEntry) (k : Int) : Nat :=
  if -2 ≤ k ∧ k ≤ 1 then s.density c k
  else densAt ((tabGet c.dcurve (s.copyOf epoch).density).getD []) (s.jq.step + BitVec.ofInt 40 k).toNat

/-- Steps from the present step to a header's STEP. -/
def State.stepsTo (s : State) (step : StepNo) : Int := (step - s.jq.step).toInt

/-- The groups of a range that the chunk's step selects: every group in a dense row, else those of the mask, if this member has it. -/
def State.rangeSel (s : State) (epoch : BitVec 2) (c : CatEntry) (k : Int) (group0 n : Nat) : Option (List Nat) :=
  if s.densityNear epoch c k = 0 then some ((List.range n).map (group0 + ·))
  else if k ≠ 0 ∧ k ≠ 1 then none
  else
    let row := c.rowOf group0
    (s.rowMaskAt c row k.toNat).map fun bits =>
      ((List.range n).map (group0 + ·)).filter fun g => bits.getD (g - row * c.rowGroups) false

/-- Form of a lap-1 chunk. -/
def State.lap1Form (s : State) (h : ChunkHdr) (payload : List Byte) : Bool :=
  match s.cat h.tensor, s.dom h.domain with
  | some c, some d =>
    let k := s.stepsTo h.step
    let sel := s.rangeSel h.tepoch c k h.group0 h.rangeGroups
    let codes := (if h.wire = 1 then 64 else 32) * h.nGroups
    decide (h.axis < 3) && d.axes.getLsbD h.axis && h.wire == c.wire && !h.mask && !h.last && h.aux == 0 &&
      h.dense == (s.densityNear h.tepoch c k == 0) && h.sketch == (s.densityNear h.tepoch c (k + 2) != 0) &&
      (h.bypass || h.bypassN == 0) && (match sel with | some l => h.nGroups == l.length | none => true) &&
      (if h.wire = 1 then h.nScales == 0 && h.nSide == 0
       else (match sel with | some l => h.nScales == (c.segsOf l).length | none => true) &&
         h.nSide == ((payload.take codes).filter (· == 0x80)).length && decide (h.nSide ≤ c.sideCap)) &&
      h.len == codes + 2 * h.nScales + 2 * h.nSide + (if h.sketch then h.rangeGroups else 0)
  | _, _ => false

/-- Bytes of a working-copy element (R112): FP8 takes one, BF16 two. -/
def State.wcBytes (s : State) (c : CatEntry) : Nat := if s.decl.lean || c.cls == 2 then 2 else 1

/-- Form of a lap-2 chunk. -/
def State.lap2Form (s : State) (h : ChunkHdr) : Bool :=
  match s.cat h.tensor with
  | some c =>
    let carry := match s.chunk h.chunk with
      | some e => ((s.img.gathers[e.layer]?).map GatherEntry.carryMask).getD false
      | none => false
    decide (h.axis < 3) && h.wire == 2 && !h.sketch && !h.bypass && h.bypassN == 0 && h.mepoch == 0 && h.nScales == 0 &&
      h.nSide == 0 && (!h.mask || carry) && h.nGroups == h.rangeGroups &&
      h.len == 32 * h.rangeGroups * s.wcBytes c + (if h.mask then (h.rangeGroups + 7) / 8 else 0)
  | none => false

def xferForm (h : ChunkHdr) : Bool :=
  h.axis == 3 && h.wire == 3 && !h.sketch && !h.mask && !h.dense && !h.bypass && h.mepoch == 0 && h.bypassN == 0 &&
    h.nGroups == 0 && h.nScales == 0 && h.nSide == 0 && h.group0 == 0 && h.rangeGroups == 0

/-- Test 4 of R113. -/
def State.chunkForm (s : State) (raw : BitVec 512) (payload : List Byte) : Bool :=
  let h := chunkHdr raw
  h.version == 2 && chunkReservedOk raw && decide (h.op ≤ 3) && decide (h.hop ≤ 62) && decide (h.nScales ≤ 2048) &&
    decide (h.len ≤ 65536) && decide (h.rangeGroups ≤ 65536) && h.len == payload.length &&
    (if h.op = 0 then decide (h.nGroups ≤ 2048) && s.lap1Form h payload
     else if h.op = 1 then decide (h.nGroups ≤ 65536) && s.lap2Form h
     else xferForm h)

/-! ### Discards -/

/-- An item with a stale table epoch (R37). -/
def State.stale (s : State) (epoch : BitVec 2) (src dom : Nat) : State :=
  let s := { s with jg := { s.jg with epoch := { s.jg.epoch with staleSeen := true } } }
  (s.event 0x40 0x0001 1 [i1 epoch.toNat, i2 src, i2 dom]).fault

/-- Tests 4 and 8 fail with this event. -/
def State.badForm (s : State) (raw : BitVec 512) (test : Nat) : State :=
  (({ s with jx := { s.jx with discForm := stick s.jx.discForm 1 } }).event 0x2B 0x0304 1
    [i16 (raw.toNat % 2 ^ 128), i1 test]).fault

/-! ### Hops (test 8) -/

/-- The chunk's map fields agree with the chunk map (R106). -/
def State.mapAgrees (s : State) (h : ChunkHdr) (e : ChunkEntry) : Bool :=
  h.tensor == s.chunkTensor h.chunk && h.domain == e.domain && h.owner == e.owner && h.group0 == e.group0 &&
    h.rangeGroups == e.rangeGroups

/-- Does a lap-1 hop with this direction reach position p by the closing hop (R104)? -/
def State.byClosing (s : State) (d : DomEntry) (axis : Nat) (minus : Bool) (p : Nat) : Bool :=
  !s.wrapped d axis && (if minus then p + 1 == d.len axis else p == 0)

/-- The lap-1 hop is this member's (R107). -/
def State.lap1Mine (s : State) (port : Nat) (h : ChunkHdr) (e : ChunkEntry) (d : DomEntry) : Bool :=
  match s.hop h.chunk e d h.axis with
  | some hop =>
    let p := s.decl.coord.axis h.axis - d.org h.axis
    h.dst == s.me && h.hop + 1 == hop.k && h.minus == hop.minus &&
      port == axisPort h.axis (hop.minus == s.byClosing d h.axis hop.minus p)
  | none => false

/-- This member lies on the chunk's closing path (R104). -/
def State.lap1Forwards (s : State) (port : Nat) (h : ChunkHdr) (e : ChunkEntry) (d : DomEntry) : Bool :=
  let me := s.decl.coord
  let dst := s.coordOf h.dst
  let n := d.len h.axis
  let p := me.axis h.axis - d.org h.axis
  h.fwd && h.dst != s.me && !s.wrapped d h.axis && d.contains me && me.setAxis h.axis (dst.axis h.axis) == dst &&
    decide (0 < p) && decide (p + 1 < n) && dst.axis h.axis == d.org h.axis + (if h.minus then n - 1 else 0) &&
    port == axisPort h.axis h.minus &&
    (match d.hopAt h.chunk (s.coordOf e.owner) dst h.axis with
     | some k => k.k == h.hop + 1 && k.minus == h.minus
     | none => false)

/-- A member's place on the lap-2 path of a chunk (R125): the axis on which it receives it, direction, hops before this
one, and whether this is the last hop on the axis. -/
structure Lap2Hop where
  axis : Nat
  minus : Bool
  k : Nat
  last : Bool
  deriving DecidableEq, Repr

/-- Does a chunk of this domain and owner reach these coordinates? -/
def DomEntry.reaches (d : DomEntry) (own c : Coord) : Bool :=
  d.contains own && d.contains c && (List.range 3).all fun a => d.axes.getLsbD a || c.axis a == own.axis a

/-- The last axis in the order Z, Y, X on which the coordinate differs from the owner's; none at the owner. -/
def State.lap2Hop (s : State) (i : Nat) (d : DomEntry) (own c : Coord) : Option Lap2Hop :=
  if !d.reaches own c then none
  else
    (d.lap1Axes.find? fun a => c.axis a != own.axis a).map fun a =>
      let n := d.len a
      let o := own.axis a - d.org a
      let p := c.axis a - d.org a
      if s.wrapped d a then
        let minus := d.minusOf i
        let dist := if minus then (o + n - p) % n else (p + n - o) % n
        ⟨a, minus, dist - 1, dist + 1 == n⟩
      else if p < o then ⟨a, true, o - p - 1, p == 0⟩
      else ⟨a, false, p - o - 1, p + 1 == n⟩

/-- The lap-2 hop is this member's. -/
def State.lap2Mine (s : State) (port : Nat) (h : ChunkHdr) (e : ChunkEntry) (d : DomEntry) : Option Lap2Hop :=
  match s.lap2Hop h.chunk d (s.coordOf e.owner) s.decl.coord with
  | some hop =>
    if h.dst = s.me ∧ h.axis = hop.axis ∧ h.minus = hop.minus ∧ h.hop = hop.k ∧ port = axisPort hop.axis (!hop.minus) then
      some hop
    else none
  | none => none

/-! ### Sending lap-2 chunks -/

/-- Send a lap-2 chunk one hop along an axis. -/
def State.sendLap2 (s : State) (d : DomEntry) (axis : Nat) (minus : Bool) (k : Nat) (h : ChunkHdr) (payload : List Byte) : State :=
  let n := d.len axis
  let p := s.decl.coord.axis axis - d.org axis
  let q := if minus then (p + n - 1) % n else (p + 1) % n
  s.sendChunk (axisPort axis minus) 2
    { h with axis := axis, minus := minus, hop := k, dst := s.memberAt (s.decl.coord.setAxis axis (d.org axis + q)) } payload

/-- Start a chunk on an axis, from the position that equals the owner's. -/
def State.startLap2 (s : State) (d : DomEntry) (h : ChunkHdr) (payload : List Byte) (axis : Nat) : State :=
  let n := d.len axis
  let p := s.decl.coord.axis axis - d.org axis
  if s.wrapped d axis then s.sendLap2 d axis (d.minusOf h.chunk) 0 h payload
  else
    let s := if p + 1 < n then s.sendLap2 d axis false 0 h payload else s
    if 0 < p then s.sendLap2 d axis true 0 h payload else s

/-- Send a chunk on: along its axis unless this was its last hop, and onto every later axis in the order Z, Y, X. -/
def State.onwardLap2 (s : State) (d : DomEntry) (hop : Option Lap2Hop) (h : ChunkHdr) (payload : List Byte) : State :=
  let s := match hop with
    | some x => if x.last then s else s.sendLap2 d x.axis x.minus (x.k + 1) h payload
    | none => s
  let later := d.lap1Axes.reverse.filter fun a => match hop with | some x => decide (a < x.axis) | none => true
  later.foldl (fun s a => s.startLap2 d h payload a) s

/-! ### Gather runs (R125–R128) -/

/-- The chunks of a gather that this member receives or owns. -/
def State.gatherChunks (s : State) (g : Nat) : List Nat :=
  s.img.chunks.zipIdx.filterMap fun p =>
    match s.dom p.1.domain with
    | some d => if p.1.layer = g ∧ d.reaches (s.coordOf p.1.owner) s.decl.coord then some p.2 else none
    | none => none

def State.runCount (l : List RunCnt) (i : Nat) : Nat := ((l.find? fun x => x.index == i).map RunCnt.run).getD 0

def runBump (l : List RunCnt) (i : Nat) : List RunCnt := ⟨i, State.runCount l i + 1⟩ :: l.filter fun x => x.index != i

/-- Open the next run of a gather. DESIGN CHOICE (notes/assumptions/21.md): the first run since the schedule was loaded has k = 0. -/
def State.openRun (s : State) (g : Nat) : State :=
  let r : GatherRun := { gather := g, run := State.runCount s.jx.gatherCnt g, step := s.jq.step - 1, started := false, got := [],
                         missed := [], bad := false, flagged := false }
  let keep := s.jx.gathers.filter fun x => !(x.gather == g && x.flagged && x.step != s.jq.step - 1)
  { s with jx := { s.jx with gatherCnt := runBump s.jx.gatherCnt g, gathers := keep ++ [r] } }

/-- The oldest run of a gather that meets a condition. -/
def State.findRun (s : State) (g : Nat) (p : GatherRun → Bool) : Option GatherRun :=
  s.jx.gathers.find? fun x => x.gather == g && p x

def State.setRun (s : State) (r : GatherRun) : State :=
  { s with jx := { s.jx with gathers := s.jx.gathers.map fun x => if x.gather == r.gather && x.run == r.run then r else x } }

/-- The largest code magnitude of a list of FP8 codes, NaN and infinity left out (R222). -/
def wcMax (e5m2 : Bool) (l : List Byte) : Byte :=
  l.foldl (fun a b =>
    let m := b &&& 0x7F
    if decide (m.toNat < (if e5m2 then 0x7C else 0x7F)) && decide (a.toNat < m.toNat) then m else a) 0

/-- Merge a lap-2 payload into its tensor's scan (R222). -/
def State.scanWc (s : State) (tensor : Nat) (c : CatEntry) (aux : W32) (codes : List Byte) : State :=
  if s.wcBytes c = 2 then s
  else
    let e5m2 := ((s.img.stateDir[tensor]?).map StateDir.e5m2).getD false
    let m := wcMax e5m2 codes
    let old := s.ju.scans.find? fun x => x.tensor == tensor
    let new : WcScan := match old with
      | some x => { x with code := byteMax x.code m, aux := aux }
      | none => ⟨tensor, m, aux, false⟩
    { s with ju := { s.ju with scans := new :: s.ju.scans.filter fun x => x.tensor != tensor } }

/-- Store a chunk's bitmap for step `step` in its row's slot; bits of another step's mask are cleared (R89). -/
def State.storeBits (s : State) (c : CatEntry) (e : ChunkEntry) (step : StepNo) (bits : List Bool) : State :=
  let row := c.rowOf e.group0
  let g := c.rowLen row
  let slot := step.toNat % 4
  let r := s.slotRecord c row slot
  let old := if bitAt r 63 && r % 2 ^ 40 == step.toNat then bitsOf (memRead s.stateMem (c.maskSlot row slot + 8) ((g + 7) / 8))
    else []
  let off := e.group0 - row * c.rowGroups
  s.storeMask c row step ((List.range g).map fun n =>
    if off ≤ n ∧ n < off + e.rangeGroups then bits.getD (n - off) false else old.getD n false)

/-- EV_GATHER_INCOMPLETE and FAULT (R128). -/
def State.gatherBad (s : State) (r : GatherRun) (i : Nat) : State :=
  (s.event 0x2B 0x0307 1 [i2 r.gather, i4 i, i8 r.step.toNat, i8 r.run]).fault

/-- Write a lap-2 payload into a run's buffer, with its mask and its scan (R125, R127, R222). -/
def State.writeLap2 (s : State) (r : GatherRun) (ge : GatherEntry) (e : ChunkEntry) (c : CatEntry) (h : ChunkHdr)
    (payload : List Byte) : State :=
  let s := s.hostWrite 0x2B (ge.bufBase + r.run % ge.nbuf * ge.bufSize + e.offset) payload
  let n := 32 * e.rangeGroups * s.wcBytes c
  let s := if h.mask then s.storeBits c e (h.step + 2) (bitsOf (payload.drop n)) else s
  if ge.carryMask then s.scanWc h.tensor c h.aux (payload.take n) else s

/-- A lap-2 chunk at this member: written, or handled as POISON, and sent on (R125, R128); one whose deadline has been missed is
dropped, because POISON has gone on in its place. -/
def State.takeLap2 (s : State) (e : ChunkEntry) (d : DomEntry) (c : CatEntry) (hop : Option Lap2Hop) (h : ChunkHdr)
    (payload : List Byte) : State :=
  let i := h.chunk
  match s.img.gathers[e.layer]? with
  | none => s
  | some ge =>
    let s := match s.findRun e.layer fun r => !r.got.contains i || r.missed.contains i with
      | some _ => s
      | none => s.openRun e.layer
    match s.findRun e.layer fun r => !r.got.contains i || r.missed.contains i with
    | none => s.onwardLap2 d hop h payload
    | some r =>
      if r.missed.contains i then s.setRun { r with missed := r.missed.filter (· != i) }
      else
        let s := if h.poison then (s.setRun { r with got := i :: r.got, bad := true }).gatherBad r i
          else (s.setRun { r with got := i :: r.got }).writeLap2 r ge e c h payload
        s.onwardLap2 d hop h payload

/-! ### Starting a gather -/

/-- Where the working copy of a chunk lies in the active bank of host memory, and its bytes (R125, R210, R211). -/
def State.wcPlace (s : State) (tensor : Nat) (c : CatEntry) (e : ChunkEntry) : Nat × Nat :=
  match s.img.stateDir[tensor]? with
  | none => (0, 0)
  | some sd =>
    let base := if s.decl.lean then sd.wBase else sd.wcBase
    let n := s.wcBytes c
    (s.hostAddr base s.bank + 32 * e.group0 * n, 32 * e.rangeGroups * n)

/-- The working copy of a chunk. -/
def State.wcData (s : State) (tensor : Nat) (c : CatEntry) (e : ChunkEntry) : List Byte :=
  memRead s.hostMem (s.wcPlace tensor c e).1 (s.wcPlace tensor c e).2

/-- 2^(−e) of the working copies in the active bank; 0 for BF16 (R112, R221). -/
def State.wcAux (s : State) (tensor : Nat) (c : CatEntry) : W32 :=
  if s.wcBytes c = 2 then 0 else f32Pow2 (-((tabGet tensor s.ju.wcExp).getD 0))

/-- The bitmap for step t + 2 that a chunk carries, if its row has a built mask (R127); t is the step just committed. -/
def State.carriedMask (s : State) (tensor : Nat) (c : CatEntry) (e : ChunkEntry) : Option (List Byte) :=
  let row := c.rowOf e.group0
  (s.ji.built.find? fun m => m.tensor == tensor && m.row == row && m.step == s.jq.step + 1).map fun m =>
    bitmapBytes ((m.bits.drop (e.group0 - row * c.rowGroups)).take e.rangeGroups)

/-- The header of a lap-2 chunk of the step committed last (R109, R112, R404). -/
def State.lap2Hdr (s : State) (i tensor : Nat) (c : CatEntry) (e : ChunkEntry) (d : DomEntry) (mask poison last : Bool) : ChunkHdr :=
  { version := 2, op := 1, axis := 0, tepoch := s.jg.epoch.current, mepoch := 0, wire := 2, bypass := false,
    dense := false, sketch := false, mask := mask, poison := poison, fwd := false, minus := false,
    last := last, domain := e.domain, hop := 0, bypassN := 0, key := d.key.toNat, step := s.jq.step - 1,
    tensor := tensor, src := s.me, dst := 0, owner := e.owner, chunk := i, nGroups := e.rangeGroups, nScales := 0,
    nSide := 0, len := 0, seq := 0, aux := s.wcAux tensor c, group0 := e.group0, rangeGroups := e.rangeGroups,
    crc := 0 }

/-- Send one owned chunk of a gather. DESIGN CHOICE (notes/assumptions/21.md): a chunk names one gather in its LAYER, and only that
gather carries it, also where a layer has a second gather-table entry (R106, R124). -/
def State.sendOwn (s : State) (g i : Nat) (ge : GatherEntry) (last : Bool) : State :=
  match s.chunk i with
  | none => s
  | some e =>
    let tensor := s.chunkTensor i
    match s.cat tensor, s.dom e.domain with
    | some c, some d =>
      let mask := if ge.carryMask then s.carriedMask tensor c e else none
      let h := s.lap2Hdr i tensor c e d mask.isSome false last
      if e.layer = g then
        (s.portRead 0x2B 0 false (s.wcPlace tensor c e).1 (s.wcPlace tensor c e).2).takeLap2 e d c none h
          (s.wcData tensor c e ++ mask.getD [])
      else s
    | _, _ => s

/-- A gather's own entry issues (R125). -/
def State.gatherStart (s : State) (g : Nat) : State :=
  match s.img.gathers[g]? with
  | none => s
  | some ge =>
    let s := match s.findRun g fun r => !r.started with
      | some _ => s
      | none => s.openRun g
    match s.findRun g fun r => !r.started with
    | none => s
    | some r =>
      let s := s.setRun { r with started := true }
      let all := s.gatherChunks g
      let mine := all.filter fun i => ((s.chunk i).map ChunkEntry.owner) == some s.me
      mine.foldl (fun s i => s.sendOwn g i ge (all.getLast? == some i)) s

/-- Is every chunk of a gather's oldest open run accounted for (R126)? -/
def State.runFull (s : State) (r : GatherRun) : Bool := (s.gatherChunks r.gather).all fun i => r.got.contains i

/-- The arrival gate of a gather's wait (R128). -/
def State.gatherArrived (s : State) (g : Nat) : Bool :=
  match s.findRun g fun r => !r.flagged with
  | some r => s.runFull r
  | none => (s.findRun g fun r => r.step == s.jq.step - 1).isSome

/-- A chunk of a gather has missed its arrival deadline: recorded, and POISON goes on in its place along its path (R128). -/
def State.gatherMiss (s : State) (r : GatherRun) (i : Nat) (last : Bool) : State :=
  let s := s.gatherBad r i
  match s.chunk i with
  | none => s
  | some e =>
    let tensor := s.chunkTensor i
    match s.cat tensor, s.dom e.domain with
    | some c, some d =>
      s.onwardLap2 d (s.lap2Hop i d (s.coordOf e.owner) s.decl.coord) (s.lap2Hdr i tensor c e d false true last)
        (List.replicate (32 * e.rangeGroups * s.wcBytes c) 0)
    | _, _ => s

/-- A gather misses its arrival deadline: the chunks that have not come are given up (R128). -/
def State.gatherExpire (s : State) (g : Nat) : State :=
  let s := if (s.findRun g fun r => !r.flagged).isSome then s else s.openRun g
  match s.findRun g fun r => !r.flagged with
  | none => s
  | some r =>
    let miss := (s.gatherChunks g).filter fun i => !r.got.contains i
    let s := s.setRun { r with got := miss ++ r.got, missed := miss, bad := r.bad || !miss.isEmpty }
    miss.foldl (fun s i => s.gatherMiss r i ((s.gatherChunks g).getLast? == some i)) s

/-- A 16-byte flag record (R126). -/
def flagRecord (step : StepNo) (index status run : Nat) : List Byte :=
  bytesLE 8 (step.toNat + index % 2 ^ 16 * 2 ^ 40 + status * 2 ^ 56) ++ bytesLE 8 run

/-- The tensors with chunks in a gather. -/
def State.gatherTensors (s : State) (g : Nat) : List Nat := dedupRuns ((s.gatherChunks g).map s.chunkTensor)

/-- Every CARRY_MASK gather that holds chunks of a tensor has completed in this step (R222). -/
def State.scanDone (s : State) (tensor : Nat) : Bool :=
  s.img.gathers.zipIdx.all fun p =>
    !p.1.carryMask || !(s.gatherTensors p.2).contains tensor ||
      (s.findRun p.2 fun r => r.flagged && !r.bad && r.step == s.jq.step - 1).isSome

/-- The flag record of a gather's run (R126), and the scans it completes (R222). -/
def State.gatherFlag (s : State) (g : Nat) : State :=
  match s.img.gathers[g]?, s.findRun g fun r => !r.flagged with
  | some ge, some r =>
    if !s.runFull r then s
    else
      let s := s.setRun { r with flagged := true }
      let s := s.hostWrite 0x2B (ge.flagBase + 16 * (r.run % ge.nbuf)) (flagRecord r.step g (if r.bad then 2 else 1) r.run)
      if ge.carryMask then
        { s with ju := { s.ju with scans := s.ju.scans.map fun x =>
            if (s.gatherTensors g).contains x.tensor && s.scanDone x.tensor then { x with complete := true } else x } }
      else s
  | _, _ => s

def execGatherFlagWrite (gather : Nat) (s : State) : Host.Outcome State Fault Refusal := run (fun s => s.gatherFlag gather) s

/-! ### Shifts and permutations (R129, R130) -/

/-- The next step of a permutation's path: axis and direction; none at the destination (R130). -/
def permDir (t a b : Coord) : Option (Nat × Bool) :=
  ((List.range 3).find? fun x => a.axis x != b.axis x).map fun x =>
    let n := t.axis x
    (x, decide ((b.axis x + n - a.axis x) % n > (a.axis x + n - b.axis x) % n))

def permNext (t a b : Coord) : Coord :=
  match permDir t a b with
  | none => a
  | some (x, minus) =>
    let n := t.axis x
    a.setAxis x (if minus then (a.axis x + n - 1) % n else (a.axis x + 1) % n)

/-- The port on which a permutation's chunk reaches coordinates c on its way from a to b; the fuel bounds the hops. -/
def permArrival (t b c : Coord) : Nat → Coord → Option Nat
  | 0, _ => none
  | k + 1, a =>
    match permDir t a b with
    | none => none
    | some (x, minus) =>
      let n := permNext t a b
      if n = c then some (axisPort x (!minus)) else permArrival t b c k n

/-- Hops that no dimension-order path exceeds. -/
def permFuel : Nat := 192

/-- Chunks of a transfer (R129): at least one. -/
def XferEntry.chunks (x : XferEntry) : Nat := max 1 ((x.length + 65535) / 65536)

def XferEntry.lenAt (x : XferEntry) (k : Nat) : Nat := min 65536 (x.length - 65536 * k)

/-- Send a chunk of a permutation on its next hop. -/
def State.sendPerm (s : State) (x : XferEntry) (h : ChunkHdr) (payload : List Byte) : State :=
  let t := s.decl.torus
  match permDir t s.decl.coord (s.coordOf x.dst) with
  | none => s
  | some (a, minus) =>
    s.sendChunk (axisPort a minus) 2 { h with fwd := permNext t s.decl.coord (s.coordOf x.dst) != s.coordOf x.dst } payload

def State.openXfer (s : State) (n : Nat) : State :=
  let r : XferRun := { xfer := n, run := State.runCount s.jx.xferCnt n, got := [], total := none, bad := false, flagged := false }
  { s with jx := { s.jx with xferCnt := runBump s.jx.xferCnt n,
                             xfers := (s.jx.xfers.filter fun y => !(y.xfer == n && y.flagged)) ++ [r] } }

def State.findXfer (s : State) (n : Nat) (p : XferRun → Bool) : Option XferRun :=
  s.jx.xfers.find? fun y => y.xfer == n && p y

def State.setXfer (s : State) (r : XferRun) : State :=
  { s with jx := { s.jx with xfers := s.jx.xfers.map fun y => if y.xfer == r.xfer && y.run == r.run then r else y } }

/-- The receiver writes one payload of a transfer, unless it is POISON. -/
def State.takeXfer (s : State) (n : Nat) (x : XferEntry) (k : Nat) (poison : Bool) (payload : List Byte) : State :=
  let s := if (s.findXfer n fun y => !y.got.contains k && !y.flagged).isSome then s else s.openXfer n
  match s.findXfer n fun y => !y.got.contains k && !y.flagged with
  | none => s
  | some r =>
    let s := s.setXfer { r with got := k :: r.got, bad := r.bad || poison }
    if poison then s
    else if x.dstHost then s.hostWrite 0x2B (x.dstAddr + 65536 * k) payload
    else { s with scratch := memWrite s.scratch (x.dstAddr + 65536 * k) payload }

/-- A shift's or permutation's entry issues at its source (R129, R130). -/
def State.xferStart (s : State) (n : Nat) : State :=
  match s.img.xfers[n]? with
  | none => s
  | some x =>
    if x.src ≠ s.me then s
    else
      (List.range x.chunks).foldl (fun s k =>
        let data := memRead (if x.srcHost then s.hostMem else s.scratch) (x.srcAddr + 65536 * k) (x.lenAt k)
        let s := if x.srcHost then s.portRead 0x2B 0 false (x.srcAddr + 65536 * k) (x.lenAt k) else s
        let h : ChunkHdr :=
          { version := 2, op := if x.isPerm then 3 else 2, axis := 3, tepoch := s.jg.epoch.current, mepoch := 0, wire := 3,
            bypass := false, dense := false, sketch := false, mask := false, poison := false, fwd := false,
            minus := false, last := k + 1 == x.chunks, domain := x.domain, hop := 0, bypassN := 0,
            key := ((s.dom x.domain).map fun d => d.key.toNat).getD 0, step := s.jq.step, tensor := n, src := s.me,
            dst := x.dst, owner := x.src, chunk := k, nGroups := 0, nScales := 0, nSide := 0, len := 0, seq := 0,
            aux := x.tag, group0 := 0, rangeGroups := 0, crc := 0 }
        if x.dst = s.me then s.takeXfer n x k false data
        else if x.isPerm then s.sendPerm x h data
        else s.sendChunk x.port 2 h data) s

/-- Has every chunk of the transfer's present run come? -/
def State.xferArrived (s : State) (n : Nat) : Bool :=
  match s.img.xfers[n]? with
  | none => true
  | some x =>
    match s.findXfer n fun _ => true with
    | some r => (List.range x.chunks).all fun k => r.got.contains k
    | none => x.dst != s.me

/-- The wait of a transfer misses its deadline: it ends incomplete (R130). -/
def State.xferExpire (s : State) (n : Nat) : State :=
  match s.img.xfers[n]? with
  | none => s
  | some x =>
    if x.dst ≠ s.me then s
    else
      let s := if (s.findXfer n fun y => !y.flagged).isSome then s else s.openXfer n
      match s.findXfer n fun y => !y.flagged with
      | none => s
      | some r => s.setXfer { r with got := List.range x.chunks, bad := true }

/-- The flag record of a transfer (R129, R126). -/
def State.xferFlag (s : State) (n : Nat) : State :=
  match s.img.xfers[n]?, s.findXfer n fun y => !y.flagged with
  | some x, some r =>
    if (List.range x.chunks).all fun k => r.got.contains k then
      let s := s.setXfer { r with flagged := true }
      s.hostWrite 0x2B x.flag (flagRecord (s.jq.step - 1) n (if r.bad then 2 else 1) r.run)
    else s
  | _, _ => s

def execShiftFlagWrite (transfer : Nat) (s : State) : Host.Outcome State Fault Refusal := run (fun s => s.xferFlag transfer) s

/-- What a shift or permutation chunk is to this member (test 8): consumed, forwarded, or neither. -/
def State.xferRole (s : State) (port : Nat) (h : ChunkHdr) : Option (XferEntry × Bool) :=
  match s.img.xfers[h.tensor]? with
  | none => none
  | some x =>
    let fits := x.isPerm == (h.op == 3) && h.domain == x.domain && h.owner == x.src && h.dst == x.dst &&
      decide (h.chunk < x.chunks) && h.len == x.lenAt h.chunk && h.last == (h.chunk + 1 == x.chunks)
    let route := if x.isPerm then
        permArrival s.decl.torus (s.coordOf x.dst) s.decl.coord permFuel (s.coordOf x.src) == some port
      else x.dst == s.me && s.decl.peers.any fun p => p.port == port && p.member == x.src && p.far == x.port
    if fits && route && (h.dst == s.me || (x.isPerm && h.fwd)) then some (x, h.dst == s.me) else none

/-! ### Routing a tested chunk -/

/-- Test 8: the chunk names a hop that this member performs, or this member lies on its forwarding path (R113). -/
def State.hopNamed (s : State) (c : RxChunk) : Bool :=
  let h := chunkHdr c.hdr
  if h.op ≥ 2 then (s.xferRole c.port h).isSome
  else
    match s.chunk h.chunk with
    | none => false
    | some e =>
      match s.dom e.domain with
      | none => false
      | some d => s.mapAgrees h e && (if h.op = 1 then (s.lap2Mine c.port h e d).isSome
          else s.lap1Mine c.port h e d || s.lap1Forwards c.port h e d)

/-- Test 8 and what follows it: held for its lap-1 entry, forwarded, written or consumed. While a quiesce drains no further entry
takes a lap-1 chunk, and its buffer is freed (R38, R138; notes/assumptions/18.md). -/
def State.routeChunk (s : State) (c : RxChunk) : State :=
  let h := chunkHdr c.hdr
  let hp := { h with poison := h.poison || c.poison }
  let bad := (s.freeChunk c).badForm c.hdr 8
  if h.op ≥ 2 then
    match s.xferRole c.port h with
    | none => bad
    | some (x, mine) =>
      let s := s.freeChunk c
      if mine then s.takeXfer h.tensor x h.chunk hp.poison c.payload else s.sendPerm x hp c.payload
  else
    match s.chunk h.chunk with
    | none => bad
    | some e =>
      match s.dom e.domain, s.cat (s.chunkTensor h.chunk) with
      | some d, some cat =>
        if !s.mapAgrees h e then bad
        else if h.op = 1 then
          match s.lap2Mine c.port h e d with
          | some hop => (s.freeChunk c).takeLap2 e d cat (some hop) hp c.payload
          | none => bad
        else if s.lap1Mine c.port h e d then
          if s.jx.expired.contains (h.chunk, h.axis) || s.jq.draining then s.freeChunk c
          else { s with jx := { s.jx with rx := s.jx.rx ++ [c] } }
        else if s.lap1Forwards c.port h e d then
          let p := s.decl.coord.axis h.axis - d.org h.axis
          let next := if h.minus then p + 1 else p - 1
          (s.freeChunk c).sendChunk (axisPort h.axis (!h.minus)) 2
            { hp with fwd := d.org h.axis + next != (s.coordOf h.dst).axis h.axis } c.payload
        else bad
      | _, _ => bad

/-- EV_MASK_EPOCH and FAULT (R92). -/
def State.maskEpochBad (s : State) (h : ChunkHdr) : State :=
  (s.event 0x2B 0x0203 1 [i4 h.tensor, i4 h.chunk, i1 h.mepoch, i8 s.jq.step.toNat]).fault

/-- The mask epoch of a lap-1 chunk disagrees (R92): handled as if this member's mask were missing. -/
def State.maskEpoch (s : State) (h : ChunkHdr) : State :=
  let s := match s.cat h.tensor with
    | some c => s.maskLost (((s.chunk h.chunk).map ChunkEntry.tile).getD 0) h.tensor (c.rowOf h.group0) c
    | none => s
  ({ s with ji := { s.ji with lost := h.chunk :: s.ji.lost } }).maskEpochBad h

/-- A chunk that passed tests 5 and 6 as a hold takes tests 7 and 8 on arrival too, and is kept until this member's next pulse
(R37, R113, R118). The mask of a step not yet begun is not touched: test 7 is taken again on release. -/
def State.holdChunk (s : State) (c : RxChunk) : State :=
  let h := chunkHdr c.hdr
  let s := if h.op = 0 ∧ h.mepoch ≠ h.step.toNat % 4 then s.maskEpochBad h else s
  if !s.hopNamed c then (s.freeChunk c).badForm c.hdr 8
  else if s.jq.draining then s.freeChunk c
  else { s with jx := { s.jx with early := s.jx.early ++ [c] } }

/-- Tests 5 to 8 of R113, and the holds of R37 and R118. -/
def State.lateTests (s : State) (c : RxChunk) : State :=
  let h := chunkHdr c.hdr
  let ep := s.jg.epoch
  let next := h.tepoch == ep.current + 1 && ep.staged
  let early := (h.op == 0 && h.step == s.jq.step + 1) || (h.op == 1 && h.step == s.jq.step)
  let now := (h.op == 0 && h.step == s.jq.step) || (h.op == 1 && h.step == s.jq.step - 1) || decide (2 ≤ h.op)
  if !next && h.tepoch ≠ ep.current && h.tepoch ≠ ep.previous then (s.freeChunk c).stale h.tepoch h.src h.domain
  else if (next || early) && (early || now) then s.holdChunk c
  else if !now then
    let s := { s with jx := { s.jx with discSeq := stick s.jx.discSeq 1 } }
    ((s.freeChunk c).event 0x2B 0x0305 1 [i1 c.port, i8 h.step.toNat, i8 s.jq.step.toNat]).fault
  else if h.op = 0 ∧ h.mepoch ≠ h.step.toNat % 4 then (s.maskEpoch h).routeChunk c
  else s.routeChunk c

/-- A chunk is released: one held for its epoch is judged by the copy that has become current before it takes tests 5 to 8 again
(R37, R113). -/
def State.release (s : State) (c : RxChunk) : State :=
  if c.poison || s.chunkForm c.hdr c.payload then s.lateTests c else (s.badForm c.hdr 4).lateTests { c with poison := true }

/-- Release every held chunk and test it again (R37, R118). -/
def State.retestChunks (s : State) : State :=
  let held := s.jx.early
  held.foldl State.release { s with jx := { s.jx with early := [] } }

/-- Tests 3 and 4: a failure makes the chunk POISON. DESIGN CHOICE (notes/assumptions/32.md): the pool item of EV_CHUNK_CRC is 0, the
RX pool, in which every chunk is read first. -/
def State.useTests (s : State) (c : RxChunk) : State × RxChunk :=
  let h := chunkHdr c.hdr
  if !chunkCrcOk c.hdr c.payload then
    let s := { s with jx := { s.jx with discCrc := stick s.jx.discCrc 1 } }
    ((s.event 0x2B 0x0303 1 [i1 c.port, i2 h.domain, i8 h.step.toNat, i4 h.chunk, i4 h.seq.toNat, i1 0]).fault,
      { c with poison := true })
  else if !s.chunkForm c.hdr c.payload then (s.badForm c.hdr 4, { c with poison := true })
  else (s, c)

/-- Take an item out of a port's receive side. -/
def dropItem (vc : Nat) (b : List Byte) : List (Nat × List Byte) → List (Nat × List Byte)
  | [] => []
  | x :: rest => if x.1 = vc ∧ x.2 = b then rest else x :: dropItem vc b rest

/-- A chunk is received and takes the tests of R113 in order. DESIGN CHOICE (notes/assumptions/20.md): a chunk that fails test 3 or 4
goes on as POISON and still takes tests 5 to 8, which decide where it goes. -/
def State.chunkReceive (s : State) (port vc : Nat) (raw : BitVec 512) (payload : List Byte) : State :=
  if s.inReset || (vc != 1 && vc != 2) then s
  else
    let h := chunkHdr raw
    let c : RxChunk := ⟨port, vc, raw, payload, false⟩
    let s := s.setPort port fun q => { q with rx := { q.rx with items := dropItem vc (bytesLE 64 raw.toNat ++ payload) q.rx.items } }
    let s := s.stagePut .rx port vc raw (bytesLE 64 raw.toNat ++ payload)
    let expect := seqNext s.jx.seqRx port vc
    let s := { s with jx := { s.jx with lastHdr := raw, seqRx := if h.seq = expect then seqSet s.jx.seqRx port vc (expect + 1)
                                                            else s.jx.seqRx } }
    let keyOk := match s.dom h.domain with | some d => d.key.toNat == h.key | none => false
    if !keyOk then
      let s := { s with jx := { s.jx with discKey := stick s.jx.discKey 1 } }
      (s.freeChunk c).event 0x2B 0x0301 1 [i1 port, i2 h.domain, i4 h.key, i2 h.src]
    else if h.seq ≠ expect then
      let s := { s with jx := { s.jx with discSeq := stick s.jx.discSeq 1 } }
      ((s.freeChunk c).event 0x2B 0x0302 1 [i1 port, i1 vc, i4 expect.toNat, i4 h.seq.toNat]).fault
    else
      let t := s.useTests c
      t.1.lateTests t.2

def execChunkReceive (port : BitVec 3) (vc : BitVec 2) (hdr : BitVec 512) (payload : List Byte) (s : State) :
    Host.Outcome State Fault Refusal :=
  run (fun s => s.chunkReceive port.toNat vc.toNat hdr payload) s

end Sys2Proof.Machine
end

