-- ==== Sys2Proof/Machine/Gazelle.lean ====
section
/-!
DEFINITION. The Gazelle path (spec/05_gazelle_path.md R141–R158), the norm sums it carries (spec/08 R219, R220), the
replica comparison (R228), and the meanings of its commands.
-/

namespace Sys2Proof.Machine

/-! ### Reductions (R141, R142, R220, R228) -/

/-- What a reduction id does. -/
structure GzSpec where
  op : Nat
  typ : Nat
  feeds : Bool
  /-- elements of the whole reduction -/
  n : Nat
  cells : Nat
  sprint : Bool
  srcBf16 : Bool
  dstBf16 : Bool
  domain : Nat
  root : Nat
  src : Nat
  dst : Nat
  flag : Nat
  deriving DecidableEq, Repr

/-- Bytes of an element on the reduce sweep (R145). -/
def gzBytes (op typ : Nat) (sprint : Bool) : Nat := if sprint || ((op == 2 || op == 3) && typ != 2) then 4 else 8

def GzSpec.esize (g : GzSpec) : Nat := gzBytes g.op g.typ g.sprint

/-- Elements in one cell. -/
def GzSpec.perCell (g : GzSpec) : Nat := 64 / g.esize

/-- Elements in cell k. -/
def GzSpec.inCell (g : GzSpec) (k : Nat) : Nat := min g.perCell (g.n - g.perCell * k)

/-- A fixed id of n elements over the commit domain (R141). -/
def State.fixedSpec (s : State) (op typ n : Nat) (feeds : Bool) (dst flag : Nat) : GzSpec :=
  { op := op, typ := typ, feeds := feeds, n := n, cells := (n + 7) / 8, sprint := false, srcBf16 := false, dstBf16 := false,
    domain := s.decl.commitDomain, root := s.decl.verdictRoot, src := 0, dst := dst, flag := flag }

/-- The reduction an id names in a copy of the tables; ids 11–15 are reserved. -/
def State.gzSpec (s : State) (tables : LiveTables) (rid : Nat) : Option GzSpec :=
  match rid with
  | 0 => some (s.fixedSpec 1 2 1 false 0 0)
  | 1 => some (s.fixedSpec 0 2 1 false 0 0)
  | 2 => some (s.fixedSpec 0 2 1 false 0 0)
  | 3 => some (s.fixedSpec 2 2 1 false 0 0)
  | 4 => some (s.fixedSpec 3 2 1 false 0 0)
  | 5 => some (s.fixedSpec 4 1 1 false 0 0)
  | 6 => some (s.fixedSpec 5 0 32 true (s.decl.normDst.getD 0 0) (s.decl.normFlag.getD 0 0))
  | 7 => some (s.fixedSpec 5 0 32 true (s.decl.normDst.getD 1 0) (s.decl.normFlag.getD 1 0))
  | 8 => some (s.fixedSpec 5 0 32 true (s.decl.normDst.getD 2 0) (s.decl.normFlag.getD 2 0))
  | 9 => s.decl.replicaDomain.map fun d => { s.fixedSpec 2 2 3 false 0 0 with domain := d, root := s.decl.replicaRoot }
  | 10 => s.decl.replicaDomain.map fun d => { s.fixedSpec 3 2 3 false 0 0 with domain := d, root := s.decl.replicaRoot }
  | _ =>
    (tables.reds.find? fun r => r.rid == rid && decide (16 ≤ rid)).map fun r =>
      let e := gzBytes r.op r.typ r.sprint
      let n := if r.sprint then r.sprintN else r.wireLen / e
      { op := r.op, typ := r.typ, feeds := r.feedsStep, n := n, cells := (n * e + 63) / 64, sprint := r.sprint,
        srcBf16 := r.srcBf16, dstBf16 := r.dstBf16, domain := r.domain, root := r.root, src := r.src, dst := r.dst,
        flag := r.flag }

/-! ### The cell (R143–R145) -/

structure CellHdr where
  op : Nat
  typ : Nat
  result : Bool
  axis : Nat
  minus : Bool
  tepoch : BitVec 2
  cell : Nat
  ncells : Nat
  rid : Nat
  src : Nat
  root : Nat
  domain : Nat
  seq : Nat
  run : W32
  reservedOk : Bool
  deriving DecidableEq, Repr

def cellHdr (h : BitVec 128) : CellHdr :=
  let w := h.toNat
  { op := bitsAt w 0 4, typ := bitsAt w 4 2, result := bitAt w 6, axis := bitsAt w 7 2, minus := bitAt w 9,
    tepoch := BitVec.ofNat 2 (bitsAt w 10 2), cell := bitsAt w 12 2, ncells := bitsAt w 14 2 + 1, rid := bitsAt w 16 12,
    src := bitsAt w 32 16, root := bitsAt w 48 16, domain := bitsAt w 64 10, seq := bitsAt w 80 16,
    run := h.extractLsb' 96 32, reservedOk := bitsAt w 28 4 == 0 && bitsAt w 74 6 == 0 }

def CellHdr.pack (h : CellHdr) : BitVec 128 :=
  BitVec.ofNat 128 (h.op + h.typ * 2 ^ 4 + b2n h.result * 2 ^ 6 + h.axis * 2 ^ 7 + b2n h.minus * 2 ^ 9 + h.tepoch.toNat * 2 ^ 10
    + h.cell * 2 ^ 12 + (h.ncells - 1) * 2 ^ 14 + h.rid * 2 ^ 16 + h.src * 2 ^ 32 + h.root * 2 ^ 48 + h.domain * 2 ^ 64
    + h.seq * 2 ^ 80 + h.run.toNat * 2 ^ 96)

structure CellTrl where
  crc : W32
  key : Nat
  hops : Nat
  bad : Bool
  nf : Bool
  decision : Nat
  inc : Bool
  step : StepNo
  zeroOk : Bool
  deriving DecidableEq, Repr

def cellTrl (t : BitVec 128) : CellTrl :=
  let w := t.toNat
  { crc := t.extractLsb' 0 32, key := bitsAt w 32 32, hops := bitsAt w 64 6, bad := bitAt w 70, nf := bitAt w 71,
    decision := bitsAt w 72 2, inc := bitAt w 74, step := BitVec.ofNat 40 (bitsAt w 88 40), zeroOk := bitsAt w 75 13 == 0 }

/-- CRC-32C of the header and the payload (R144). -/
def cellCrc (h : BitVec 128) (payload : List Byte) : W32 := crc32c (bytesLE 16 h.toNat ++ payload)

def CellTrl.pack (t : CellTrl) (crc : W32) : BitVec 128 :=
  BitVec.ofNat 128 (crc.toNat + t.key * 2 ^ 32 + t.hops % 64 * 2 ^ 64 + b2n t.bad * 2 ^ 70 + b2n t.nf * 2 ^ 71 + t.decision * 2 ^ 72
    + b2n t.inc * 2 ^ 74 + t.step.toNat * 2 ^ 88)

def GzElem.zero : GzElem := ⟨0, 0⟩
def GzElem.nat (e : GzElem) : Nat := e.lo.toNat + e.hi.toNat * 2 ^ 32
def GzElem.ofNat (n : Nat) : GzElem := ⟨BitVec.ofNat 32 n, BitVec.ofNat 32 (n / 2 ^ 32)⟩
def GzElem.state (e : GzElem) : CState := ⟨e.lo, e.hi⟩
def GzElem.ofState (c : CState) : GzElem := ⟨c.s, c.c⟩

/-- The payload of a cell: elements packed, unused bytes zero (R145). -/
def packElems (esize : Nat) (l : List GzElem) : List Byte :=
  let b := l.flatMap fun e => bytesLE esize e.nat
  b ++ List.replicate (64 - b.length) 0

def unpackElems (esize n : Nat) (b : List Byte) : List GzElem :=
  (List.range n).map fun k => GzElem.ofNat (natLE ((b.drop (esize * k)).take esize))

/-! ### Combining (R148, R150, R153) -/

def toI64 (n : Nat) : Int := if n ≥ 2 ^ 63 then (n : Int) - 2 ^ 64 else n

/-- SUM INT64, which saturates (R64). -/
def satAdd64 (a b : Nat) : Nat × Bool :=
  let x := toI64 a + toI64 b
  let y := max (-(2 ^ 63)) (min (2 ^ 63 - 1) x)
  ((y % 2 ^ 64).toNat, y != x)

/-- MAX-LOC: compared as MAX does; a tie goes to the lower member id (R150). A NaN wins over every number
(notes/assumptions/36.md). -/
def maxLoc (typ : Nat) (a b : GzElem) : GzElem :=
  let lower := if a.hi.toNat % 2 ^ 16 ≤ b.hi.toNat % 2 ^ 16 then a else b
  if typ = 0 then
    if f32IsNaN a.lo && f32IsNaN b.lo then { lower with lo := f32NaN }
    else if f32IsNaN a.lo then { a with lo := f32NaN }
    else if f32IsNaN b.lo then { b with lo := f32NaN }
    else if f32Key a.lo = f32Key b.lo then lower
    else if f32Key a.lo > f32Key b.lo then a else b
  else if a.lo = b.lo then lower
  else if a.lo.toNat > b.lo.toNat then a else b

/-- One combine: a is the left operand. The flag says an overflow or a non-finite value was met. -/
def gzCombine (g : GzSpec) (atM : Bool) (a b : GzElem) : GzElem × Bool :=
  match g.op with
  | 0 => (⟨a.lo &&& b.lo, a.hi &&& b.hi⟩, false)
  | 1 => (⟨a.lo ||| b.lo, a.hi ||| b.hi⟩, false)
  | 2 => (if g.typ = 0 then ⟨f32Min a.lo b.lo, 0⟩ else if a.nat ≤ b.nat then a else b, false)
  | 3 => (if g.typ = 0 then ⟨f32Max a.lo b.lo, 0⟩ else if a.nat ≥ b.nat then a else b, false)
  | 4 => (maxLoc g.typ a b, false)
  | 5 =>
    if g.sprint && !atM then
      let x := cfold (cadd ⟨a.lo, 0⟩ b.lo)
      (⟨x, 0⟩, f32NonFinite x)
    else
      let x := ccombine a.state b.state
      (GzElem.ofState x, f32NonFinite x.s || f32NonFinite x.c)
  | _ =>
    let r := satAdd64 a.nat b.nat
    (GzElem.ofNat r.1, r.2)

def gzCombineAll (g : GzSpec) (atM : Bool) (a b : List GzElem) : List GzElem × Bool :=
  let r := List.zipWith (gzCombine g atM) a b
  (r.map Prod.fst, r.any Prod.snd)

/-! ### Lines and halves (R147) -/

/-- The axes a reduction spans: those of extent above 1. -/
def DomEntry.gzAxes (d : DomEntry) : List Nat := (List.range 3).filter fun a => decide (1 < d.len a)

/-- A member's place on a line with meeting position m. -/
structure GzPlace where
  /-- at M -/
  atM : Bool
  right : Bool
  /-- distance from M -/
  dist : Nat
  /-- members of the left and right halves -/
  nLeft : Nat
  nRight : Nat
  deriving DecidableEq, Repr

def gzPlace (wrap : Bool) (n m p : Nat) : GzPlace :=
  if wrap then
    let l := (m + n - p) % n
    let nl := (n - 1) / 2
    let right := decide (nl < l)
    ⟨p == m, right, if right then n - l else l, nl, n - 1 - nl⟩
  else ⟨p == m, decide (m < p), if m < p then p - m else m - p, m, n - 1 - m⟩

def State.gzPlaceOn (s : State) (g : GzSpec) (d : DomEntry) (axis : Nat) : GzPlace :=
  gzPlace (s.wrapped d axis) (d.len axis) ((s.coordOf g.root).axis axis - d.org axis) (s.decl.coord.axis axis - d.org axis)

/-- Is this member farthest from M in its half? -/
def GzPlace.farthest (p : GzPlace) : Bool := p.dist == (if p.right then p.nRight else p.nLeft)

/-- This member was M on every axis before one. -/
def State.gzWasM (s : State) (g : GzSpec) (d : DomEntry) (axis : Nat) : Bool :=
  (d.gzAxes.filter fun a => decide (a < axis)).all fun a => (s.gzPlaceOn g d a).atM

/-! ### Sending cells (R143, R151, R152, R371) -/

/-- Send a cell within the window's limit. -/
def State.putCell (s : State) (port : Nat) (c : GzCell) : State :=
  (s.useVc0 port 120).queueItem port 0 (bytesLE 16 c.hdr.toNat ++ c.payload ++ bytesLE 16 c.trailer.toNat)

/-- Send a cell, or hold it for the next window (R152). A failed or halted member issues none (R362). DESIGN CHOICE
(notes/assumptions/32.md): EV_GAZELLE_CAP's item 'direction' is bit 0 of the port number, 0 for a + port and 1 for a − port. -/
def State.sendCell (s : State) (port : Nat) (h : CellHdr) (payload : List Byte) (t : CellTrl) : State :=
  if s.silent then s
  else
    let hb := h.pack
    let crc := cellCrc hb payload
    let c : GzCell := ⟨hb, payload, t.pack crc⟩
    let s := s.twinSend (.cell h.rid crc) (.cellCrc h.rid crc)
    if s.jz.used.getD port 0 + 120 > s.capBytes || s.jz.capQueue.any (fun q => q.port == port) then
      let first := !s.jz.capSeen.contains port
      let s := { s with jz := { s.jz with capHeld := stick s.jz.capHeld 1, capQueue := s.jz.capQueue ++ [GzHeld.mk port c false],
                                          capSeen := if first then port :: s.jz.capSeen else s.jz.capSeen } }
      if first then s.event 0x2C 0x0403 0 [i1 port, i1 (port % 2), i8 s.jz.winAt] else s
    else s.putCell port c

/-- Header of a cell this member sends. DESIGN CHOICE (notes/assumptions/22.md): a sprint cell, which SPRINT_SEQ numbers, has CELL 0 and
NCELLS_M1 0. -/
def State.gzHdr (s : State) (rid k : Nat) (g : GzSpec) (epoch : BitVec 2) (run : W32) (result : Bool) (axis : Nat)
    (minus : Bool) : CellHdr :=
  { op := g.op, typ := g.typ, result := result, axis := axis, minus := minus, tepoch := epoch,
    cell := if g.sprint then 0 else k, ncells := if g.sprint then 1 else g.cells, rid := rid, src := s.me, root := g.root,
    domain := g.domain, seq := if g.sprint then k else 0, run := run, reservedOk := true }

def State.gzTrl (s : State) (g : GzSpec) (hops : Nat) (bad nf : Bool) (decision : Nat) (inc : Bool) : CellTrl :=
  { crc := 0, key := ((s.dom g.domain).map fun d => d.key.toNat).getD 0, hops := hops, bad := bad, nf := nf,
    decision := decision, inc := inc, step := s.jq.step, zeroOk := true }

/-! ### Norms (R219) -/

/-- The state of one run: 64 lanes combined by the pairing rule, no fold. -/
def NormSlot.state (n : NormSlot) : CState := treeFold ccombine CState.zero n.lanes

/-- Is a before b in the order of runs within a tile? -/
def normBefore (a b : NormSlot) : Bool := (!a.isBlock && b.isBlock) || (a.isBlock == b.isBlock && decide (a.index < b.index))

/-- The logical tile of a run. -/
def State.normTile (s : State) (n : NormSlot) : Nat :=
  if n.isBlock then
    match s.cat n.tensor with
    | some c => ((s.blockChunk n.tensor c n.index).map ChunkEntry.tile).getD 0
    | none => 0
  else ((s.chunk n.index).map ChunkEntry.tile).getD 0

/-- A tensor's state for one register; none when no run took place (R219). -/
def State.tensorNorm (s : State) (tensor reg : Nat) : Option CState :=
  if !s.ju.norms.any (fun n => n.tensor == tensor) then none
  else
    let runs := sortBy normBefore (s.ju.norms.filter fun n => n.tensor == tensor && n.reg == reg)
    let tiles := (List.range 40).map fun t =>
      match (runs.filter fun n => s.normTile n == t).map NormSlot.state with
      | [] => CState.zero
      | a :: rest => rest.foldl ccombine a
    some (treeFold ccombine CState.zero tiles)

/-- A norm group's state on this member (R219 stage 3, R220). -/
def State.groupNorm (s : State) (group reg : Nat) : CState :=
  let ts := (List.range s.img.catalogue.length).filter fun t => ((s.img.stateDir[t]?).map StateDir.normGroup) == some group
  match ts.filterMap fun t => s.tensorNorm t reg with
  | [] => CState.zero
  | a :: rest => rest.foldl ccombine a

/-- Write the norm table (R219). -/
def State.writeNorms (s : State) : State :=
  (List.range s.img.catalogue.length).foldl
    (fun s t =>
      let st := (List.range 3).flatMap fun r =>
        let c := (s.tensorNorm t r).getD CState.zero
        bytes32 c.s ++ bytes32 c.c
      s.stateWrite 0x2C (s.decl.normBase + 32 * t) (st ++ bytesLE 8 s.jq.step.toNat)) s

/-! ### Own contributions (R141, R72) -/

/-- The elements this member brings to a reduction, a NaN among them canonical (R42); ids 11–15 and a table id without a source bring free values
(notes/assumptions/37.md). -/
def State.gzOwn (s : State) (rid : Nat) (g : GzSpec) : List GzElem × State :=
  let word := fun (x : W64) => ([GzElem.ofNat x.toNat], s)
  let digs := fun (d : Digests) => ([GzElem.ofNat d.w.toNat, GzElem.ofNat d.m1.toNat, GzElem.ofNat d.m2.toNat], s)
  let norm := fun r => ((List.range 32).map (fun k => GzElem.ofState (s.groupNorm k r)), s)
  match rid with
  | 0 => word s.verdictWord
  | 1 => word s.voteWord
  | 2 => word s.voteWord
  | 3 => word s.imageHdr.schedDigest
  | 4 => word s.imageHdr.schedDigest
  | 5 => ([⟨BitVec.ofNat 32 s.jx.ownNow.toNat, BitVec.ofNat 32 s.me⟩], s)
  | 6 => norm 1
  | 7 => norm 0
  | 8 => norm 2
  | 9 => digs s.ju.digest
  | 10 => digs s.ju.digest
  | _ =>
    let sz := if g.srcBf16 then 2 else if g.op = 4 || g.op = 5 then 4 else g.esize
    if g.src = 0 then
      ((List.range g.n).map fun k => GzElem.ofNat (natLE ((List.range sz).map fun j => Config.openByte (s.freeCnt + sz * k + j))),
        { s with freeCnt := s.freeCnt + sz * g.n })
    else
      ((List.range g.n).map fun k =>
        let b := memRead s.hostMem (g.src + sz * k) sz
        let f32 := fun (x : W32) => if g.typ = 0 then f32Canon x else x
        if g.srcBf16 then ⟨f32 (bf16Up (w16LE b)), 0⟩
        else if g.op = 4 then ⟨f32 (w32LE b), BitVec.ofNat 32 s.me⟩
        else let e := GzElem.ofNat (natLE b); { e with lo := f32 e.lo }, s)

/-! ### Runs and reductions in progress (R146) -/

def State.gzRun (s : State) (rid : Nat) : GzRun :=
  (s.jz.runs.find? fun r => r.rid == rid).getD ⟨rid, 0, false, false, [], 0, []⟩

def State.setGzRun (s : State) (r : GzRun) : State :=
  { s with jz := { s.jz with runs := r :: s.jz.runs.filter fun x => x.rid != r.rid } }

def State.gzRed (s : State) (rid k : Nat) : Option GzRed := s.jz.reds.find? fun r => r.rid == rid && r.cell == k

def State.setGzRed (s : State) (r : GzRed) : State :=
  { s with jz := { s.jz with reds := s.jz.reds.map fun x => if x.rid == r.rid && x.cell == r.cell then r else x } }

/-! ### Results (R149, R153, R156) -/

/-- The three words of a digest result. -/
def digestsOf (l : List GzElem) : Digests :=
  let w := fun k => BitVec.ofNat 64 ((l.getD k GzElem.zero).nat)
  ⟨w 0, w 1, w 2⟩

/-- The copy that waited for the comparison of its step streams when the step agreed, else it is not taken (R228, R229). -/
def State.copyJudged (s : State) (agreed : Bool) : State :=
  if s.ju.outSt = 0 ∧ s.ju.ownCopy.isSome then
    (if agreed then { s with ju := { s.ju with outSt := 1 } } else { s with ju := { s.ju with ownCopy := none } })
  else s

/-- Both replica results are in: the comparison of R228, with this member's own words of the step compared (R235). -/
def State.replicaJudge (s : State) : State :=
  let r := s.ju.rep
  match r.minRes, r.maxRes with
  | some a, some b =>
    let own := r.own
    let rep := { r with compares := stick r.compares 1, minRes := none, maxRes := none, cmp := none, isMin := own == a, isMax := own == b }
    if a = b then ({ s with ju := { s.ju with rep := rep } }).copyJudged true
    else
      let s := s.copyJudged false
      let s := { s with ju := { s.ju with rep := { rep with mismatch := true } },
                        jq := { s.jq with quiesceReq := s.jq.quiesceReq || r.act } }
      s.event 0x40 0x0602 1 [i8 (r.cmp.getD 0).toNat, i8 own.w.toNat, i8 own.m1.toNat, i8 own.m2.toNat,
        i2 (s.decl.replicaDomain.getD 0), i1 (b2n (own == a)), i1 (b2n (own == b))]
  | _, _ => s

/-- What a fixed id's result does (R25, R30, R123, R228). -/
def State.gzInternal (s : State) (rid : Nat) (l : List GzElem) (decision : Nat) : State :=
  let w := fun k => BitVec.ofNat 64 ((l.getD k GzElem.zero).nat)
  match rid with
  | 0 => (s.setVerdict fun v => { v with decision := some ⟨decision == 1, w 0, w 1⟩ }).setPhase 2 false
  | 2 => ({ s with jq := { s.jq with boundaryResult := some (w 0) } }).setPhase 7 false
  | 5 =>
    let e := l.getD 0 GzElem.zero
    { s with jx := { s.jx with slowNext := some (BitVec.ofNat 16 e.hi.toNat, BitVec.ofNat 16 e.lo.toNat) } }
  | 9 => { s with ju := { s.ju with rep := { s.ju.rep with minRes := some (digestsOf l) } } }.replicaJudge
  | 10 => { s with ju := { s.ju with rep := { s.ju.rep with maxRes := some (digestsOf l) } } }.replicaJudge
  | _ => s

/-- A result element as it is written to DST (notes/assumptions/37.md). -/
def GzSpec.dstBytes (g : GzSpec) (e : GzElem) : List Byte :=
  if g.op = 5 then (if g.dstBf16 then bytes16 (bf16Rne e.lo) else bytes32 e.lo) else bytesLE g.esize e.nat

/-- Write a result to its destination, then its flag record, whose STATUS says whether the result is complete (R126, R149, R153,
R156). -/
def State.gzWrite (s : State) (rid : Nat) (g : GzSpec) (run : W32) (incomplete : Bool) (l : List GzElem) : State :=
  let s := if g.dst = 0 then s else s.hostWrite 0x2C g.dst (l.flatMap g.dstBytes)
  if g.flag = 0 then s
  else s.hostWrite 0x2C g.flag (flagRecord s.jq.step rid (if incomplete then 2 else 1) run.toNat)

/-- A result cell is taken by this member. -/
def State.gzDeliver (s : State) (rid : Nat) (g : GzSpec) (l : List GzElem) (nf : Bool) (decision : Nat) (inc : Bool) : State :=
  let r := s.gzRun rid
  let words := r.words ++ l
  let s := s.nonFiniteIf (g.feeds && nf) .gazelle
  let r := { r with words := words, cells := r.cells + 1, incomplete := r.incomplete || inc, result := r.cells + 1 == g.cells }
  let s := s.setGzRun r
  let ended := fun (x : GzRed) => (x.rid == rid && x.cell == r.cells - 1) || (rid == 0 && x.rid == 1)
  let s := { s with jz := { s.jz with reds := s.jz.reds.map fun x => if ended x then { x with done := true } else x } }
  if r.cells = g.cells then (s.gzWrite rid g r.run r.incomplete words).gzInternal rid words decision else s

/-- Send a result on: away from M along its own axis unless this member is farthest, and from M along every earlier axis
(R147, R149). -/
def State.spreadResult (s : State) (rid k : Nat) (g : GzSpec) (d : DomEntry) (epoch : BitVec 2) (run : W32)
    (onAxis : Option (Nat × Nat)) (payload : List Byte) (bad nf : Bool) (decision : Nat) (inc : Bool) : State :=
  let send := fun (s : State) (a : Nat) (minus : Bool) (hops : Nat) =>
    s.sendCell (axisPort a minus) (s.gzHdr rid k g epoch run true a minus) payload (s.gzTrl g hops bad nf decision inc)
  let s := match onAxis with
    | none => s
    | some (a, hops) =>
      let p := s.gzPlaceOn g d a
      if p.farthest then s else send s a (!p.right) (hops + 1)
  let earlier := d.gzAxes.reverse.filter fun a => match onAxis with | some x => decide (a < x.1) | none => true
  earlier.foldl (fun s a =>
    let p := s.gzPlaceOn g d a
    let s := if 0 < p.nLeft then send s a true 0 else s
    if 0 < p.nRight then send s a false 0 else s) s

/-! ### The root (R149, R155, R156) -/

/-- The root forms and sends the result of one cell. -/
def State.gzFinish (s : State) (rid k : Nat) (g : GzSpec) (d : DomEntry) (r : GzRed) : State :=
  let st := r.own.getD (List.replicate (g.inCell k) GzElem.zero)
  let l := if g.op = 5 then st.map fun e => ⟨if g.sprint then e.lo else cfold e.state, 0⟩ else st
  let nf := g.typ == 0 && l.any fun e => f32NonFinite e.lo
  let s := s.setGzRed { r with done := true }
  let s := s.spreadResult rid k g d r.epoch r.run none (packElems g.esize l) r.bad nf 0 r.inc
  s.gzDeliver rid g l nf 0 r.inc

/-- The verdict root joins ids 0 and 1 and decides (R25, R145, R155). -/
def State.gzDecide (s : State) (g : GzSpec) (d : DomEntry) (a b : GzRed) : State :=
  let l := [(a.own.getD []).getD 0 GzElem.zero, (b.own.getD []).getD 0 GzElem.zero]
  let inc := a.inc || b.inc || a.own.isNone || b.own.isNone
  let bad := a.bad || b.bad
  let dec := if !inc && !bad && l.getD 0 GzElem.zero == GzElem.zero then 1 else 2
  let s := (s.setGzRed { a with done := true }).setGzRed { b with done := true }
  let s := s.spreadResult 0 0 g d a.epoch a.run none (packElems 8 l) bad false dec inc
  s.gzDeliver 0 g l false dec inc

/-- The root's own sweep is complete: its own state is there, or left out at a deadline. -/
def State.gzRoot (s : State) (rid k : Nat) (force : Bool) (g : GzSpec) (d : DomEntry) (r : GzRed) : State :=
  let ready := fun (x : GzRed) => decide (x.axis = d.gzAxes.length) && (x.own.isSome || force)
  if rid ≤ 1 then
    match s.gzRed 0 0, s.gzRed 1 0 with
    | some a, some b => if ready a && ready b && !a.done then s.gzDecide g d a b else s
    | _, _ => s
  else if ready r then s.gzFinish rid k g d { r with inc := r.inc || r.own.isNone }
  else s

/-! ### The reduce sweep (R147, R148) -/

/-- States combined from left to right. -/
def gzMeet (g : GzSpec) : List (List GzElem) → List GzElem × Bool
  | [] => ([], false)
  | a :: rest => rest.foldl (fun x b => let y := gzCombineAll g true x.1 b; (y.1, x.2 || y.2)) (a, false)

/-- Advance this member's part of one cell as far as what has arrived allows; force leaves out what is missing at the
root (R156). The fuel bounds the axes. -/
def State.gzAdvance (rid k : Nat) (force : Bool) : Nat → State → State
  | 0, s => s
  | fuel + 1, s =>
    match s.gzRed rid k with
    | none => s
    | some r =>
      match s.gzSpec (s.tables r.epoch) rid with
      | none => s
      | some g =>
        match s.dom g.domain with
        | none => s
        | some d =>
          if r.done then s
          else
            match d.gzAxes[r.axis]? with
            | none => s.gzRoot rid k force g d r
            | some a =>
              let p := s.gzPlaceOn g d a
              let half := fun right => r.halves.find? fun h => h.right == right && h.axis == a
              if p.atM then
                let l := half false
                let rt := half true
                let whole := (p.nLeft == 0 || l.isSome) && (p.nRight == 0 || rt.isSome) && r.own.isSome
                if whole || force then
                  let parts := [l.map GzHalf.elems, r.own, rt.map GzHalf.elems].filterMap id
                  let m := gzMeet g parts
                  let st := if g.sprint then m.1.map fun e => ⟨cfold e.state, 0⟩ else m.1
                  let bad := r.bad || r.halves.any fun h => h.axis == a && h.bad
                  let s := s.nonFiniteIf (g.feeds && m.2) .gazelle
                  let r := { r with own := if parts.isEmpty then none else some st, axis := r.axis + 1, bad := bad,
                                    inc := r.inc || !whole }
                  State.gzAdvance rid k force fuel (s.setGzRed r)
                else s
              else
                match r.own with
                | none => s
                | some own =>
                  let inc := half p.right
                  if p.farthest || inc.isSome then
                    let c := match inc with
                      | some h => gzCombineAll g false h.elems own
                      | none => (own, false)
                    let bad := r.bad || (match inc with | some h => h.bad | none => false)
                    let s := s.nonFiniteIf (g.feeds && c.2) .gazelle
                    let s := s.setGzRed { r with done := true }
                    let nf := g.typ == 0 && c.1.any fun e => f32NonFinite e.lo || (g.op == 5 && f32NonFinite e.hi)
                    s.sendCell (axisPort a p.right) (s.gzHdr rid k g r.epoch r.run false a p.right) (packElems g.esize c.1)
                      (s.gzTrl g ((if p.right then p.nRight else p.nLeft) - p.dist) bad nf 0 false)
                  else s

def State.gzGo (s : State) (rid k : Nat) : State := State.gzAdvance rid k false 5 s

/-! ### Cells received (R37, R146, R155) -/

def State.cellFree (s : State) (port : Nat) : State := s.grantCredit port 0

/-- Does the cell name a cell of its reduction, and this member's place on its line? -/
def State.cellPlace (s : State) (port : Nat) (h : CellHdr) (g : GzSpec) (d : DomEntry) : Bool :=
  decide ((if g.sprint then h.seq else h.cell) < g.cells) && !(h.result && h.rid == 1) &&
    d.gzAxes.contains h.axis && s.gzWasM g d h.axis && d.contains s.decl.coord && port == axisPort h.axis (!h.minus) &&
    (let p := s.gzPlaceOn g d h.axis
     if h.result then !p.atM && h.minus == !p.right
     else if p.atM then decide (0 < (if h.minus then p.nRight else p.nLeft)) else h.minus == p.right && !p.farthest)

/-- Is every other field in its range (R155)? -/
def cellFields (h : CellHdr) (t : CellTrl) (g : GzSpec) : Bool :=
  h.reservedOk && t.zeroOk && h.domain == g.domain && h.op == g.op && h.typ == g.typ && h.root == g.root &&
    (if g.sprint then h.cell == 0 && h.ncells == 1 else h.ncells == g.cells && h.seq == 0) &&
    (if h.result && h.rid == 0 then t.decision == 1 || t.decision == 2 else t.decision == 0)

/-- Index of a cell within its reduction. -/
def CellHdr.index (h : CellHdr) (g : GzSpec) : Nat := if g.sprint then h.seq else h.cell

/-- A cell of the present run is used. -/
def State.useCell (s : State) (c : GzHeld) (bad : Bool) : State :=
  let h := cellHdr c.cell.hdr
  let t := cellTrl c.cell.trailer
  match s.gzSpec (s.tables h.tepoch) h.rid with
  | none => s
  | some g =>
    match s.dom g.domain with
    | none => s
    | some d =>
      if !s.cellPlace c.port h g d then s
      else
        let k := h.index g
        if h.result then
          let n := if h.rid = 0 then 2 else g.inCell k
          let l := unpackElems g.esize n c.cell.payload
          let s := s.spreadResult h.rid k g d h.tepoch h.run (some (h.axis, t.hops)) c.cell.payload (t.bad || bad) t.nf t.decision t.inc
          if bad then s else s.gzDeliver h.rid g l t.nf t.decision t.inc
        else
          match s.gzRed h.rid k with
          | none => s
          | some r =>
            if r.done || r.halves.any (fun x => x.right == h.minus && x.axis == h.axis) then s
            else
              let half : GzHalf := ⟨h.minus, h.axis, unpackElems g.esize (g.inCell k) c.cell.payload, t.bad || bad⟩
              (s.setGzRed { r with halves := half :: r.halves }).gzGo h.rid k

/-- Record a form failure (R146, R155). -/
def State.cellForm (s : State) (c : GzHeld) (fault : Bool) : State :=
  let s := { s with jz := { s.jz with discForm := stick s.jz.discForm 1 } }
  let s := s.event 0x2C 0x0402 1 [i1 c.port, i16 c.cell.hdr.toNat]
  if fault then s.fault else s

/-- A cell of a run that is neither the present one nor the next is discarded; on the reduce sweep this member's result of that cell
goes on with BAD, on the result sweep the cell does (R146, R155). -/
def State.strayCell (s : State) (c : GzHeld) : State :=
  let h := cellHdr c.cell.hdr
  let t := cellTrl c.cell.trailer
  match s.gzSpec (s.tables h.tepoch) h.rid with
  | none => s
  | some g =>
    match s.dom g.domain with
    | none => s
    | some d =>
      if !s.cellPlace c.port h g d then s
      else
        let k := h.index g
        if h.result then s.spreadResult h.rid k g d h.tepoch h.run (some (h.axis, t.hops)) c.cell.payload true t.nf t.decision t.inc
        else match s.gzRed h.rid k with
          | some r => s.setGzRed { r with bad := true }
          | none => s

/-- The epoch and run of a cell (R37, R146): held, stale, discarded, or used. A cell that has failed a check already is not
recorded again for its run, and a member that drains for a quiesce gives a waiting cell up (notes/assumptions/18.md). -/
def State.routeCell (s : State) (c : GzHeld) (bad : Bool) : State :=
  let h := cellHdr c.cell.hdr
  let ep := s.jg.epoch
  let run := (s.gzRun h.rid).run
  let none := !s.jz.runs.any fun r => r.rid == h.rid
  if s.jq.draining ∧ ((h.tepoch = ep.current + 1 ∧ ep.staged) ∨ h.run = run + 1) then s.cellFree c.port
  else if h.tepoch = ep.current + 1 ∧ ep.staged then { s with jz := { s.jz with early := s.jz.early ++ [c] } }
  else if h.tepoch ≠ ep.current ∧ h.tepoch ≠ ep.previous then (s.cellFree c.port).stale h.tepoch h.src h.domain
  else if h.run = run + 1 then { s with jz := { s.jz with held := s.jz.held ++ [c] } }
  else if h.run ≠ run ∨ none then (if bad then s.cellFree c.port else (s.cellFree c.port).cellForm c true).strayCell c
  else (s.cellFree c.port).useCell c bad

/-- A received cell's CRC and form checks (R155), then its route. -/
def State.gazelleCell (s : State) (port : Nat) (hdr : BitVec 128) (payload : List Byte) (trailer : BitVec 128) : State :=
  if s.inReset then s
  else
    let h := cellHdr hdr
    let t := cellTrl trailer
    let bytes := bytesLE 16 hdr.toNat ++ payload ++ bytesLE 16 trailer.toNat
    let s := s.setPort port fun q => { q with rx := { q.rx with items := dropItem 0 bytes q.rx.items } }
    let s := { s with jz := { s.jz with lastHdr := hdr, lastTrl := trailer } }
    let key := match s.dom h.domain with | some d => d.key.toNat == t.key | none => false
    let fit := match s.gzSpec (s.tables h.tepoch) h.rid with
      | some g => (match s.dom g.domain with | some d => (s.cellPlace port h g d, cellFields h t g) | none => (false, false))
      | none => (false, false)
    let held := fun (b : Bool) => GzHeld.mk port ⟨hdr, payload, trailer⟩ b
    if payload.length ≠ 64 ∨ cellCrc hdr payload ≠ t.crc then
      let s := { s with jz := { s.jz with discCrc := stick s.jz.discCrc 1 } }
      let s := s.event 0x2C 0x0401 1 [i1 port, i2 h.rid, i4 h.run.toNat, i1 (b2n h.result)]
      let s := if h.result then s else s.fault
      if fit.1 then s.routeCell (held true) true else s.cellFree port
    else if !(key && fit.1 && fit.2) then
      let s := s.cellForm (held false) (!h.result)
      if fit.1 then s.routeCell (held true) true else s.cellFree port
    else s.routeCell (held false) false

/-! ### DATA frames (R249, R252) -/

/-- An aborted frame on VC0: it takes its FSEQ and its credit as a good one does (R252). -/
def State.sendAborted (s : State) (p : Nat) (cell : List Byte) : State :=
  let f : TxFrag := ⟨0, true, true, cell, itemEpoch s.jg.epoch.current 0 cell, true⟩
  if s.maySend p f then
    ((s.useVc0 p 120).setPort p fun q => { q with tx := { q.tx with queues := modifyNth (f :: ·) 0 q.tx.queues } }).sendData p 0
  else s

/-- A cell whose frame fails FCRC was being forwarded by cut-through: each frame that forwards it ends with EOF 0xFE (R252). Those are
the cells that a good frame would have made this member send at once. -/
def State.abortForward (s : State) (p : Nat) (cell : List Byte) : State :=
  let w := fun i n => natLE ((cell.drop i).take n)
  let t := s.gazelleCell p (BitVec.ofNat 128 (w 0 16)) ((cell.drop 16).take 64) (BitVec.ofNat 128 (w 80 16))
  (t.out.drop s.out.length).foldl (fun s o =>
    match o with
    | .frame q h cell _ => if (frameHdr h).typ = 0 ∧ (frameHdr h).vc = 0 then s.sendAborted q cell else s
    | _ => s) s

/-- A DATA frame: delivered, or refused by its checks; the cell of a broken frame in sequence is aborted further on. -/
def doDataFrame (p : BitVec 3) (f : Frame) (s : State) : State :=
  let p := p.toNat
  match s.testFrame p 0 f with
  | (_, .notDue) => s
  | (t, .bad) => t
  | (t, .badCrc h) =>
    let q := s.port p
    if h.vc = 0 ∧ h.fseq = q.rx.expect ∧ (q.state = 4 ∨ q.state = 5) then t.abortForward p f.payload else t
  | (t, .good h) => t.dataIn p f h

/-- Delivered only if HCRC, FCRC and FSEQ pass (R249). -/
def execDataFrame (p : BitVec 3) (f : Frame) (s : State) : Host.Outcome State Fault Refusal := run (doDataFrame p f) s

def execGazelleCell (port : BitVec 3) (hdr : BitVec 128) (payload : List Byte) (trailer : BitVec 128) (s : State) :
    Host.Outcome State Fault Refusal :=
  run (fun s => s.gazelleCell port.toNat hdr payload trailer) s

/-- Release cells held for an epoch or a run and route them again. -/
def State.retestCells (s : State) : State :=
  let held := s.jz.early
  held.foldl (fun s c => s.routeCell c c.failed) { s with jz := { s.jz with early := [] } }

/-! ### Start entries (R146) -/

/-- Put a member's own state into the cells of a reduction and go on. -/
def State.gzSetOwn (s : State) (rid : Nat) (g : GzSpec) (own : List GzElem) : State :=
  (List.range g.cells).foldl
    (fun s k =>
      match s.gzRed rid k with
      | some r => (s.setGzRed { r with own := some ((own.drop (g.perCell * k)).take (g.inCell k)) }).gzGo rid k
      | none => s) s

/-- The start entry of a reduction issues: the next run, its cells, held cells of that run, and unless it waits, this
member's contribution. -/
def State.gzStart (s : State) (rid : Nat) (wait : Bool) : State :=
  match s.gzSpec s.live.cur rid with
  | none => s
  | some g =>
    match s.dom g.domain with
    | none => s
    | some d =>
      if !d.contains s.decl.coord then s
      else
        let run := (s.gzRun rid).run + 1
        let s := s.setGzRun ⟨rid, run, false, false, [], 0, []⟩
        let reds := (List.range g.cells).map fun k =>
          ({ rid := rid, cell := k, run := run, epoch := s.jg.epoch.current, own := none, axis := 0, halves := [],
             bad := false, inc := false, done := false } : GzRed)
        let s := { s with jz := { s.jz with reds := (s.jz.reds.filter fun (r : GzRed) => r.rid != rid) ++ reds } }
        let held := s.jz.held.filter fun c => (cellHdr c.cell.hdr).rid == rid
        let s := { s with jz := { s.jz with held := s.jz.held.filter fun (c : GzHeld) => (cellHdr c.cell.hdr).rid != rid } }
        let s := if rid = 6 then s.writeNorms else s
        let s := if wait then s
          else
            let o := s.gzOwn rid g
            let t := if 11 ≤ rid && g.src != 0 then
                o.2.portRead 0x2C 0 false g.src (g.n * (if g.srcBf16 then 2 else if g.op = 4 || g.op = 5 then 4 else g.esize))
              else o.2
            t.gzSetOwn rid g o.1
        held.foldl (fun s c => s.routeCell c c.failed) s

/-- The root's deadline for a reduction expired (R156). -/
def State.gzExpire (s : State) (rid : Nat) : State :=
  match s.gzSpec s.live.cur rid with
  | none => s
  | some g =>
    if g.root ≠ s.me then s
    else (List.range g.cells).foldl (fun s k => State.gzAdvance rid k true 5 s) s

/-- Every run count back to 0, as at a quiesce or a rollback (R146). -/
def State.gzReset (s : State) : State :=
  let s := (s.jz.held ++ s.jz.early).foldl (fun s c => s.cellFree c.port) s
  { s with jz := { s.jz with runs := [], reds := [], held := [], early := [] } }

/-! ### The VC0 window (R152) -/

/-- Send held cells of the new window while they fit, in order. -/
def State.drainCap (s : State) : List GzHeld → State
  | [] => s
  | c :: rest =>
    if s.jz.used.getD c.port 0 + 120 > s.capBytes then
      let first := !s.jz.capSeen.contains c.port
      let s := { s with jz := { s.jz with capQueue := s.jz.capQueue ++ [c],
                                          capSeen := if first then c.port :: s.jz.capSeen else s.jz.capSeen } }
      (if first then s.event 0x2C 0x0403 0 [i1 c.port, i1 (c.port % 2), i8 s.jz.winAt] else s).drainCap rest
    else (s.putCell c.port c.cell).drainCap rest

/-- A window of 32 slots begins. -/
def State.capWindow (s : State) : State :=
  let start := s.jq.slot.toNat / 32 * 32
  if start = s.jz.winAt then s
  else
    let held := s.jz.capQueue
    { s with jz := { s.jz with used := List.replicate 8 0, capSeen := [], capQueue := [], winAt := start } }.drainCap held

def execGazelleCapWindow (s : State) : Host.Outcome State Fault Refusal := run State.capWindow s

end Sys2Proof.Machine
end

