-- ==== Sys2Proof/Machine/Curvature.lean ====
section
/-!
DEFINITION. The Kronecker arrays, factor moving averages, the Markhor sequencer, root installation and preconditioning
(spec/06_curvature_and_matrix_roots.md R159–R189), and the meanings of their commands.
-/

namespace Sys2Proof.Machine

/-! ### Array arithmetic (R49–R51, R54, R159, R163, R164) -/

/-- A BF16 operand as a cell takes it. -/
def cellIn (x : W16) : W32 := bf16Up (bf16Flush x)

/-- One inner index of a cell: an exact product in BF16, three in split-FP32 in the order of R50. -/
def cellStep (split : Bool) (acc : W32) (x : W32 × W32) : W32 :=
  if split then
    let a := splitHiLo x.1
    let b := splitHiLo x.2
    let acc := f32Fma (cellIn a.2) (cellIn b.1) acc
    let acc := f32Fma (cellIn a.1) (cellIn b.2) acc
    f32Fma (cellIn a.1) (cellIn b.1) acc
  else f32Fma (cellIn (bf16Rne x.1)) (cellIn (bf16Rne x.2)) acc

/-- Partition counts by the shape of an output tile (R163). -/
def partCount (rows cols : Nat) : Nat := (if rows ≤ 128 then 2 else 1) * (if cols ≤ 128 then 2 else 1)

/-- The members of a list at indices q modulo p. -/
def everyNth {α : Type} (p q : Nat) (l : List α) : List α := (l.zipIdx.filter fun x => x.2 % p == q).map Prod.fst

/-- The accumulators of one element, by partition (R163). -/
def cellParts (split : Bool) (p : Nat) (xs : List (W32 × W32)) : List W32 :=
  (List.range p).map fun q => (everyNth p q xs).foldl (cellStep split) 0

/-- One element of a product: partitions combined at the drain (R164). -/
def cellDot (split : Bool) (p : Nat) (xs : List (W32 × W32)) : W32 := treeFold f32Add 0 (cellParts split p xs)

/-- Size of the strip that an index lies in: 256, or the 128 left at the end. -/
def stripOf (n i : Nat) : Nat := min 256 (n - i / 256 * 256)

/-- Element (i, j) of a row-major matrix with n columns. -/
def matAt (m : List W32) (n i j : Nat) : W32 := m.getD (i * n + j) 0

/-- The product of a (r × k) and b (k × c), every element in the order of its output tile (R162, R163). -/
def matMul (split : Bool) (r k c : Nat) (a b : List W32) : List W32 :=
  (List.range r).flatMap fun i => (List.range c).map fun j =>
    cellDot split (partCount (stripOf r i) (stripOf c j)) ((List.range k).map fun x => (matAt a k i x, matAt b c x j))

/-- A code of an INT8 operand. -/
def int8Of (b : Byte) : Int := b.toInt

/-- The correction of R54 for one element. -/
def int8Corr (as bs : List Int) (za zb : Int) : Int :=
  let k : Int := as.length
  k * za * zb - zb * as.foldl (· + ·) 0 - za * bs.foldl (· + ·) 0

/-- The raw accumulation of one INT8 element by partition. -/
def int8Parts (p : Nat) (xs : List (Int × Int)) : List Int :=
  (List.range p).map fun q => (everyNth p q xs).foldl (fun a x => a + x.1 * x.2) 0

def intW (x : Int) : W32 := BitVec.ofInt 32 x

/-- What a cell holds of one INT8 element when its tile is complete: the partitions' accumulators, and the correction that travels with
the operands, both in 32-bit two's complement (R54, R163, R165). -/
def int8Cell (p : Nat) (za zb : Int) (xs : List (Int × Int)) : List W32 × W32 :=
  ((int8Parts p xs).map intW, intW (int8Corr (xs.map Prod.fst) (xs.map Prod.snd) za zb))

/-- What a cell holds of one BF16 or split-FP32 element. -/
def floatCell (split : Bool) (p : Nat) (xs : List (W32 × W32)) : List W32 × W32 := (cellParts split p xs, 0)

/-- The drain of one element: the partitions combine by pairing, or as integers with the correction, converted once (R164, R165). -/
def drainCell (int8 : Bool) (e : List W32 × W32) : W32 :=
  if int8 then f32OfInt (e.1.foldl (· + ·) e.2).toInt else treeFold f32Add 0 e.1

/-! ### Output tiles (R160–R162) -/

/-- The operands of a job, read from the state tier. -/
def State.jobOperand (s : State) (mode base n : Nat) : List W32 :=
  let sz := if mode = 0 then 2 else if mode = 1 then 4 else 1
  (List.range n).map fun i =>
    let b := memRead s.stateMem (base + sz * i) sz
    if mode = 0 then bf16Up (w16LE b) else w32LE b

/-- The complete output tile of a job (R163, R165). -/
def State.jobTile (s : State) (job : ArrayJob) : AccSet :=
  let p := partCount job.rows job.cols
  let a := s.jobOperand job.mode job.aBase (job.rows * job.inner)
  let b := s.jobOperand job.mode job.bBase (job.inner * job.cols)
  let cells := (List.range job.rows).flatMap fun i => (List.range job.cols).map fun j => (i, j)
  let pairs := fun (ij : Nat × Nat) => (List.range job.inner).map fun x => (matAt a job.inner ij.1 x, matAt b job.cols x ij.2)
  let ints := fun (ij : Nat × Nat) => (pairs ij).map fun x => (int8Of (x.1.setWidth 8), int8Of (x.2.setWidth 8))
  let zp := fun base i => int8Of (memGet s.stateMem (base + i))
  { int8 := job.mode == 2,
    cells := cells.map fun ij => if job.mode = 2 then int8Cell p (zp job.zaBase ij.1) (zp job.zbBase ij.2) (ints ij)
      else floatCell (job.mode == 1) p (pairs ij),
    dst := some (.statePort job.dst) }

/-- The drained elements of a set. -/
def AccSet.drained (a : AccSet) : List W32 := a.cells.map (drainCell a.int8)

def ArrayUnit.set (u : ArrayUnit) (i : BitVec 1) : AccSet := if i = 0 then u.acc0 else u.acc1

def ArrayUnit.putSet (u : ArrayUnit) (i : BitVec 1) (a : AccSet) : ArrayUnit :=
  if i = 0 then { u with acc0 := a } else { u with acc1 := a }

def State.setArray (s : State) (n : Nat) (f : ArrayUnit → ArrayUnit) : State :=
  { s with jk := { s.jk with arrays := modifyNth f n s.jk.arrays } }

def State.array (s : State) (n : Nat) : ArrayUnit := s.jk.arrays.getD n ArrayUnit.empty

/-! ### Factors (R168, R169) -/

def CatEntry.strips (c : CatEntry) : Nat := (c.edge + 255) / 256

/-- The stored output tiles (u′, v′), u′ ≤ v′, in order. -/
def CatEntry.factTiles (c : CatEntry) : List (Nat × Nat) :=
  (List.range c.strips).flatMap fun u => ((List.range c.strips).filter fun v => decide (u ≤ v)).map fun v => (u, v)

/-- Elements of output tile (u, v). -/
def CatEntry.tileElems (c : CatEntry) (uv : Nat × Nat) : Nat := stripOf c.edge (256 * uv.1) * stripOf c.edge (256 * uv.2)

/-- Bytes of one stored factor, FP32. -/
def CatEntry.factBytes (c : CatEntry) : Nat := 4 * (c.factTiles.map c.tileElems).foldl (· + ·) 0

/-- The state-tier address of a factor: a block's L, then its R (R169; notes/assumptions/52.md). -/
def State.factAddr (s : State) (tensor : Nat) (c : CatEntry) (block : Nat) (side : Side) : Nat :=
  s.blockBase s.decl.factBase (fun c => 2 * c.factBytes) tensor block + (match side with | .L => 0 | .R => c.factBytes)

/-- The address of a stored output tile: the tiles of a factor stand row-major over (u′, v′) (R169). -/
def State.factTileAddr (s : State) (tensor : Nat) (c : CatEntry) (block : Nat) (side : Side) (uv : Nat × Nat) : Nat :=
  s.factAddr tensor c block side + 4 * ((c.factTiles.takeWhile fun x => x != uv).map c.tileElems).foldl (· + ·) 0

/-- The elements of a stored output tile, row-major. -/
def State.factTile (s : State) (tensor : Nat) (c : CatEntry) (block : Nat) (side : Side) (uv : Nat × Nat) : List W32 :=
  (List.range (c.tileElems uv)).map fun k => w32LE (memRead s.stateMem (s.factTileAddr tensor c block side uv + 4 * k) 4)

/-- Stored element (i, j) of a factor, for i ≤ j. -/
def State.factAt (s : State) (tensor : Nat) (c : CatEntry) (block : Nat) (side : Side) (i j : Nat) : W32 :=
  (s.factTile tensor c block side (i / 256, j / 256)).getD (i % 256 * stripOf c.edge j + j % 256) 0

/-- The kept rows of a slot, in ascending stratum (R171). -/
def State.keptRows (s : State) (tensor : Nat) (c : CatEntry) (block : Nat) (side : Side) (slot : Nat) : List (List W16) :=
  (List.range c.strata).map fun j =>
    (groupsOf 2 (memRead s.stateMem (s.sampleAddr tensor c block side slot j) (2 * c.edge))).map w16LE

def clamp8 (x : Int) : Int := max (-128) (min 127 x)

/-- A feature's zero point and codes (R174), and how many codes were clamped. -/
def quantFeature (shift : Int) (xs : List W16) : Int × List Int × Nat :=
  let fs := xs.map bf16Up
  let mn := fs.foldl f32Min (fs.headD 0)
  let mx := fs.foldl f32Max (fs.headD 0)
  let z := clamp8 (-(f32RoundInt (f32Mul (f32Add mn mx) (f32Pow2 (shift - 1)))))
  let raw := fs.map fun x => f32RoundInt (f32Mul x (f32Pow2 shift)) + z
  (z, raw.map clamp8, (raw.filter fun q => clamp8 q != q).length)

/-- What the cell of element (i, j) of C = Xᵀ X holds (R173): the columns of X and, in INT8 mode, their codes. -/
def gramCell (c : CatEntry) (cols : List (List W16)) (quant : List (Int × List Int × Nat)) (i j : Nat) : List W32 × W32 :=
  let p := partCount (stripOf c.edge i) (stripOf c.edge j)
  if c.factMode = 2 then
    let qa := quant.getD i (0, [], 0)
    let qb := quant.getD j (0, [], 0)
    int8Cell p qa.1 qb.1 (qa.2.1.zip qb.2.1)
  else floatCell (c.factMode == 1) p (((cols.getD i []).map bf16Up).zip ((cols.getD j []).map bf16Up))

/-- Element (i, j) of C = Xᵀ X (R173). -/
def gramAt (c : CatEntry) (cols : List (List W16)) (quant : List (Int × List Int × Nat)) (i j : Nat) : W32 :=
  drainCell (c.factMode == 2) (gramCell c cols quant i j)

/-- Output tiles of a factor that a merge has recorded (R175). -/
def Merge.done (m : Merge) : Side → Nat
  | .L => m.lDone
  | .R => m.rDone

def Merge.record (m : Merge) (side : Side) (n : Nat) : Merge :=
  match side with
  | .L => { m with lDone := n }
  | .R => { m with rDone := n }

/-- The same merge, whatever its progress. -/
def Merge.same (a b : Merge) : Bool := a.tensor == b.tensor && a.block == b.block && a.step == b.step

/-- The block's vector unit merges a drained tile of C into output tile `index` of a factor, unless an element would be non-finite,
and records the tile once its write is acknowledged (R173, R175; notes/assumptions/52.md). -/
def State.mergeTaken (s : State) (m : Merge) (side : Side) (index : Nat) (vals : List W32) : State :=
  match s.cat m.tensor with
  | none => s
  | some c =>
    let uv := c.factTiles.getD index (0, 0)
    let gamma := match side with | .L => m.gammaL | .R => m.gammaR
    let old := s.factTile m.tensor c m.block side uv
    let new := vals.zipWith (fun c f => f32Fma gamma c (f32Mul m.alpha f)) old
    let tile := s.blockTile m.tensor c m.block
    let s := { s with jk := { s.jk with merges := s.jk.merges.map fun (x : Merge) => if m.same x then x.record side (index + 1) else x } }
    if new.any f32NonFinite then
      let s := s.nonFinite .arrays
      let s := { s with jk := { s.jk with nfTiles := stick s.jk.nfTiles 1 } }
      s.event tile 0x0503 1 [i4 m.tensor, i4 m.block, i1 (match side with | .L => 0 | .R => 1), i4 index, i8 m.step.toNat]
    else s.stateWrite tile (s.factTileAddr m.tensor c m.block side uv) (new.flatMap bytes32)

/-! ### Drains and feeds (R160, R161) -/

/-- A taker takes a tile from array n's output queue. -/
def State.takeTile (s : State) (n : Nat) (q : Taker × List W32) : State :=
  match q.1 with
  | .statePort a => s.stateWrite (0x28 + n) a (q.2.flatMap bytes32)
  | .vectorUnit m side index => s.mergeTaken m side index q.2

/-- The takers take the tiles of an output queue, in order (R161; they keep up with the drain: notes/assumptions/52.md). -/
def State.serveQueue (s : State) (n : Nat) : State :=
  let q := (s.array n).queue
  q.foldl (fun s x => s.takeTile n x) (s.setArray n fun u => { u with queue := [] })

/-- A full set drains into the output queue and is free (R161). -/
def State.drainSet (s : State) (n : Nat) (i : BitVec 1) : State :=
  let a := (s.array n).set i
  match a.dst with
  | none => s
  | some d =>
    let vals := a.drained
    let s := s.nonFiniteIf (vals.any f32NonFinite) .arrays
    (s.setArray n fun u => { u.putSet i AccSet.empty with queue := u.queue ++ [(d, vals)] }).serveQueue n

/-- An output tile's accumulator set drains once its last cell has taken its last index (R161). -/
def execArrayTileDrain (array acc : BitVec 1) (s : State) : Host.Outcome State Fault Refusal :=
  run (fun s => s.drainSet array.toNat acc) s

/-- The next output tile of array n's sequence goes into its next accumulator set; a set that still drains stalls the feed until it is
free (R160, R161). -/
def State.feedTile (s : State) (n : Nat) (t : AccSet) : State :=
  let i := (s.array n).next
  (s.drainSet n i).setArray n fun u => { u.putSet i t with next := i + 1 }

/-- An entry feeds one output tile. -/
def State.arrayFeed (s : State) (n job : Nat) : State :=
  match s.img.jobs[job]? with
  | none => s
  | some j => s.feedTile n (s.jobTile j)

/-- The array of output tile n of a product or factor pass (R162). -/
def tileArray (n : Nat) : Nat := n % 2

/-- A product of an r × c output runs over both arrays: output tile n in array n mod 2, whose next set it uses and leaves free, since the
Markhor sequencer and the update path take its rows straight from the drain (R160–R162). The elements are `matMul`'s. -/
def State.passTiles (s : State) (r c : Nat) : State :=
  (List.range ((r + 255) / 256 * ((c + 255) / 256))).foldl (fun s n => s.feedTile (tileArray n) AccSet.empty) s

/-! ### Merges (R173–R176) -/

/-- One output tile of C: fed to its array, drained through the output queue, and merged by the block's tile (R161, R162, R173). -/
def State.mergeTile (s : State) (m : Merge) (c : CatEntry) (side : Side) (cols : List (List W16))
    (quant : List (Int × List Int × Nat)) (uv : Nat × Nat) (index : Nat) : State :=
  let w := stripOf c.edge (256 * uv.2)
  let n := tileArray index
  let i := (s.array n).next
  (s.feedTile n
    { int8 := c.factMode == 2,
      cells := (List.range (c.tileElems uv)).map fun k => gramCell c cols quant (256 * uv.1 + k / w) (256 * uv.2 + k % w),
      dst := some (.vectorUnit m side index) }).drainSet n i

/-- Merge one factor of a block, from the first output tile that is not recorded (R173, R175). -/
def State.mergeSide (s : State) (m : Merge) (c : CatEntry) (side : Side) : State :=
  let rows := s.keptRows m.tensor c m.block side (m.step.toNat % 2)
  let cols := (List.range c.edge).map fun i => rows.map fun r => r.getD i 0
  let shift := match side with | .L => c.gShift | .R => c.aShift
  let quant := if c.factMode = 2 then cols.map (quantFeature shift) else []
  let clamps := if m.done side = 0 then quant.foldl (fun a q => a + q.2.2) 0 else 0
  let s := { s with jk := { s.jk with clamp := stick s.jk.clamp clamps } }
  (c.factTiles.zipIdx.drop (m.done side)).foldl (fun s p => s.mergeTile m c side cols quant p.1 p.2) s

/-- The oldest merge of a factor that is not complete, when no refresh due at its step has still to copy the factor (R176). -/
def State.mergeDue (s : State) (tensor block : Nat) (c : CatEntry) (side : Side) : Option Merge :=
  match s.jk.merges.find? fun m => m.tensor == tensor && m.block == block && decide (m.done side < c.factTiles.length) with
  | none => none
  | some m =>
    if s.jk.queue.any fun r => r.tensor == tensor && r.block == block && r.side == side && r.due == m.step then none else some m

/-- Merge a factor, if one of its merges is due. -/
def State.mergeFactor (s : State) (tensor block : Nat) (c : CatEntry) (side : Side) : State :=
  match s.mergeDue tensor block c side with
  | some m => s.mergeSide m c side
  | none => s

/-- A block's tile merges into L and into R; a merge whose factors are both done is over. A logical tile that waits for its remap merges
nothing, and its merges go on from their records on the spare (R175, R357). -/
def State.factorMerge (s : State) (tensor block : Nat) : State :=
  match s.cat tensor with
  | none => s
  | some c =>
    if s.jg.tiles.remap.any fun l => l.toNat == s.blockTile tensor c block then s
    else
      let s := (s.mergeFactor tensor block c .L).mergeFactor tensor block c .R
      let ended := fun (m : Merge) => m.tensor == tensor && m.block == block &&
        decide (c.factTiles.length ≤ m.lDone) && decide (c.factTiles.length ≤ m.rDone)
      { s with jk := { s.jk with merges := s.jk.merges.filter fun m => !ended m } }

/-- After a commit pulse a block's tile merges the kept rows into its factors (R173–R176). -/
def execFactorMerge (tensor block : Nat) (s : State) : Host.Outcome State Fault Refusal := run (fun s => s.factorMerge tensor block) s

/-- The merges that a commit pulse makes due, in the copy current just after it (R173). -/
def State.queueMerges (s : State) (step : StepNo) : State :=
  let new := s.img.catalogue.zipIdx.flatMap fun p =>
    let k := (tabGet p.1.fcoef s.live.cur.factCoefs).getD ⟨0, 0, 0⟩
    ((List.range p.1.blocks).filter fun b => s.ownsBlock p.2 p.1 b).map fun b =>
      Merge.mk p.2 b step k.alpha k.gammaL k.gammaR 0 0
  { s with jk := { s.jk with merges := s.jk.merges ++ new } }

/-! ### The refresh queue (R177, R178) -/

/-- The last breakpoint at or before a step, or breakpoint 0. -/
def dampAt (l : List DampBp) (step : Nat) : DampBp :=
  match (l.filter fun b => decide (b.start ≤ step)).getLast? with
  | some b => b
  | none => l.headD ⟨0, 0, 0⟩

/-- Order of the queue: due step, tensor, block, L before R. -/
def refBefore (a b : Refresh) : Bool :=
  let key := fun (r : Refresh) => [r.tensor, r.block, match r.side with | .L => 0 | .R => 1]
  a.due.toNat < b.due.toNat || (a.due == b.due && decide (key a < key b))

/-- The refreshes that become due as the counter takes the present step. -/
def State.queueRefreshes (s : State) : State :=
  let t := s.jq.step.toNat
  let new := s.img.catalogue.zipIdx.flatMap fun p =>
    let c := p.1
    let d := dampAt ((tabGet c.dampCurve s.live.cur.damping).getD []) t
    if c.cls ≠ 0 then []
    else
      ((List.range c.blocks).filter fun b => s.ownsBlock p.2 c b &&
          decide (((t : Int) - c.phase0 - b) % (2 ^ c.refreshLog2 : Nat) = 0)).flatMap fun b =>
        [Refresh.mk s.jq.step p.2 b .L d.eps d.phi, Refresh.mk s.jq.step p.2 b .R d.eps d.phi]
  { s with jk := { s.jk with queue := new.foldl (fun l r => insertBy refBefore r l) s.jk.queue } }

/-! ### Refresh start (R178, R179) -/

/-- The reduction of a tile's share: element e to lane e mod 64, then the pairing tree (R71). -/
def laneReduce (l : List W32) : CState :=
  treeFold ccombine CState.zero ((List.range 64).map fun q => (everyNth 64 q l).foldl cadd CState.zero)

/-- F_d: the symmetric factor with del added on the diagonal (R178). -/
def State.damped (s : State) (c : CatEntry) (r : Refresh) : List W32 :=
  let b := c.edge
  let f := fun i j => s.factAt r.tensor c r.block r.side (min i j) (max i j)
  let tr := cfold ((List.range b).foldl (fun st i => cadd st (f i i)) CState.zero)
  let del := f32Mul r.eps (f32Max (f32Div tr (f32OfNat b)) r.phi)
  (List.range b).flatMap fun i => (List.range b).map fun j => if i = j then f32Add (f i j) del else f i j

/-- q := Σ f_d², rows over the logical tiles (R179). -/
def frobenius (b : Nat) (fd : List W32) : W32 :=
  let tile := fun t => laneReduce ((everyNth 40 t (List.range b)).flatMap fun i =>
    (List.range b).map fun j => f32Mul (matAt fd b i j) (matAt fd b i j))
  cfold (treeFold ccombine CState.zero ((List.range 40).map tile))

/-- Lowest pool slot that is not in use. -/
def State.freeSlot (s : State) : Nat :=
  ((List.range (s.jk.pool.length + 1)).find? fun k => !s.jk.pool.any fun p => p.slot == k).getD s.jk.pool.length

def State.poolPut (s : State) (slot : Nat) (vals : List W16) : State :=
  { s with jk := { s.jk with pool := PoolSlot.mk slot vals :: s.jk.pool.filter fun p => p.slot != slot } }

def State.poolFree (s : State) (slot : Nat) : State :=
  { s with jk := { s.jk with pool := s.jk.pool.filter fun p => p.slot != slot } }

/-! ### The root directory (R184, R185) -/

/-- The state-tier address of a block's directory entry. -/
def State.rootAddr (s : State) (tensor block : Nat) : Nat := s.blockBase s.decl.rootBase (fun _ => 16) tensor block

/-- The fields of a directory entry's 128 bits (R184). -/
def rootOfBits (n : Nat) : RootEntry :=
  { lSlot := bitsAt n 0 32, rSlot := bitsAt n 32 32, lValid := bitAt n 64, rValid := bitAt n 65,
    step := BitVec.ofNat 40 (bitsAt n 72 40), staleN := BitVec.ofNat 8 (bitsAt n 112 8) }

/-- The 16 bytes of a directory entry (R184). -/
def RootEntry.bytes (e : RootEntry) : List Byte :=
  bytesLE 4 e.lSlot ++ bytesLE 4 e.rSlot ++ [BitVec.ofNat 8 (b2n e.lValid + 2 * b2n e.rValid)] ++ bytesLE 5 e.step.toNat ++
    [e.staleN, 0]

def State.rootEntry (s : State) (tensor block : Nat) : RootEntry := rootOfBits (memNat s.stateMem (s.rootAddr tensor block) 16)

def State.setRoot (s : State) (tensor block : Nat) (e : RootEntry) : State :=
  s.stateWrite 0x2A (s.rootAddr tensor block) e.bytes

/-- A refresh ends stale: its slot is free, and the block's STALE_N counts it (R181, R184). -/
def State.refStale (s : State) (m : Markhor) (iters : Nat) (r : W32) (nonFin : Bool) : State :=
  let s := s.poolFree m.slot
  let e := s.rootEntry m.ref.tensor m.ref.block
  let s := s.setRoot m.ref.tensor m.ref.block { e with staleN := stick e.staleN 1 }
  let s := s.nonFiniteIf nonFin .markhor
  let s := { s with jk := { s.jk with current := none, stale := stick s.jk.stale 1,
                                      finished := s.jk.finished ++ [Finished.mk m.ref none] } }
  s.event 0x2A 0x0501 0 [i4 m.ref.tensor, i4 m.ref.block, i1 (match m.ref.side with | .L => 0 | .R => 1), i8 m.ref.due.toNat,
    i1 iters, i4 r.toNat, i1 (b2n nonFin)]

/-- May the Markhor sequencer issue (R186)? -/
def State.markhorOn (s : State) : Bool := s.phase 5 && !s.jq.gen && !s.silent

/-- Does a refresh still wait for a merge of its factor of a step before its due step (R176)? -/
def State.refWaits (s : State) (c : CatEntry) (r : Refresh) : Bool :=
  s.jk.merges.any fun m => m.tensor == r.tensor && m.block == r.block && decide (m.step.toNat < r.due.toNat) &&
    decide (m.done r.side < c.factTiles.length)

/-- The next refresh starts, when the merges of the steps before its due step are complete (R176–R179). -/
def State.refreshStart (s : State) : State :=
  match s.jk.current, s.jk.queue with
  | none, r :: rest =>
    match s.cat r.tensor with
    | none => s
    | some c =>
      if !s.markhorOn || s.refWaits c r then s
      else
        let fd := s.damped c r
        let cc := f32Sqrt (frobenius c.edge fd)
        let slot := s.freeSlot
        let s := s.poolPut slot []
        let s := { s with jk := { s.jk with queue := rest, tensor := BitVec.ofNat 18 r.tensor, side := decide (r.side = Side.R), iter := 0,
                                            block := BitVec.ofNat 16 r.block } }
        if f32IsZero cc || f32NonFinite cc then s.refStale ⟨r, slot, 0, [], [], false⟩ 0 s.jk.resid true
        else
          let inv := f32Div f32One cc
          let sc := if c.p4 then f32Div f32One (f32Sqrt (f32Sqrt cc)) else f32Div f32One (f32Sqrt cc)
          let x := (List.range c.edge).flatMap fun i => (List.range c.edge).map fun j => if i = j then sc else 0
          { s with jk := { s.jk with current := some ⟨r, slot, 0, x, fd.map (fun v => f32Mul v inv), !s.jk.hold⟩ } }
  | _, _ => s

def execMarkhorRefreshStart (s : State) : Host.Outcome State Fault Refusal := run State.refreshStart s

/-! ### The coupled Newton iteration (R180, R181) -/

/-- T from M_k. -/
def newtonT (p b : Nat) (m : List W32) : List W32 :=
  let inv := f32Div f32One (f32OfNat p)
  m.mapIdx fun k v => f32Mul (if k / b = k % b then f32Sub (f32OfNat (p + 1)) v else f32Neg v) inv

/-- X_(k+1) and M_(k+1). -/
def newtonStep (p4 : Bool) (b : Nat) (x m : List W32) : List W32 × List W32 :=
  let t := newtonT (if p4 then 4 else 2) b m
  let t2 := matMul true b b b t t
  (matMul true b b b x t, matMul true b b b (if p4 then matMul true b b b t2 t2 else t2) m)

/-- r: the largest distance of M from the identity; NaN if any element is NaN. -/
def newtonResid (b : Nat) (m : List W32) : W32 :=
  (m.mapIdx fun k v => f32Abs (f32Sub v (if k / b = k % b then f32One else 0))).foldl f32Max 0

/-- The products of one iteration run over both arrays: 3 for p = 2, 4 for p = 4 (R162, R180). -/
def State.newtonTiles (s : State) (p4 : Bool) (b : Nat) : State :=
  (List.range (if p4 then 4 else 3)).foldl (fun s _ => s.passTiles b b) s

/-- The iteration under way completes: the refresh converges, continues or ends stale; with HOLD set no new one starts (R180, R181,
R186). -/
def State.markhorIter (s : State) : State :=
  match s.jk.current with
  | none => s
  | some m =>
    match s.cat m.ref.tensor with
    | none => s
    | some c =>
      if !s.markhorOn || !m.running then s
      else
        let s := s.newtonTiles c.p4 c.edge
        let xm := newtonStep c.p4 c.edge m.x m.m
        let r := newtonResid c.edge xm.2
        let k := m.iter + 1
        let s := { s with jk := { s.jk with iter := BitVec.ofNat 5 k, resid := r } }
        if f32NonFinite r || xm.1.any f32NonFinite || xm.2.any f32NonFinite then s.refStale m k r true
        else if f32Le r s.jk.tol then
          let s := s.poolPut m.slot (xm.1.map bf16Rne)
          { s with jk := { s.jk with current := none, finished := s.jk.finished ++ [Finished.mk m.ref (some m.slot)] } }
        else if k ≥ 24 then s.refStale m k r false
        else { s with jk := { s.jk with current := some { m with iter := k, x := xm.1, m := xm.2, running := !s.jk.hold } } }

def execMarkhorIteration (s : State) : Host.Outcome State Fault Refusal := run State.markhorIter s

/-- HOLD is written: while it is set no iteration starts; the refresh in progress takes its next one up when it is cleared (R186). -/
def State.setHold (s : State) (hold : Bool) : State :=
  { s with jk := { s.jk with hold := hold, current := s.jk.current.map fun m => { m with running := m.running || !hold } } }

/-- A write to `JK_CFG` (R186, R189): INSTALL_LAG is RWL and may not be 0; HOLD is RW. -/
def State.wrJkCfg (s : State) (port : Mgmt) (v : W32) : State :=
  let lag := v.extractLsb' 0 5
  s.guarded port 0x050000 fun s =>
    s.rwl port 0x050000 (lag != s.jk.installLag) (lag != 0) fun s =>
      ({ s with jk := { s.jk with installLag := lag } }).setHold (v.getLsbD 8)

def execMarkhorHold (port : Mgmt) (value : W32) (s : State) : Host.Outcome State Fault Refusal :=
  run (fun s => s.wrJkCfg port value) s

/-! ### Installation (R183–R185) -/

/-- Is a refresh due for installation at the present step's pulse, or already past it? -/
def State.installDue (s : State) (due : StepNo) : Bool :=
  let d := (s.jq.step - due).toNat
  decide (s.jk.installLag.toNat ≤ d) && decide (d < 2 ^ 39)

/-- The Markhor-completion gate (R183). -/
def State.rootsReady (s : State) : Bool :=
  !s.jk.queue.any (fun r => s.installDue r.due) &&
    !(match s.jk.current with | some m => s.installDue m.ref.due | none => false)

/-- The gate's deadline expired (R183). -/
def State.rootLate (s : State) : State :=
  let s := { s with jk := { s.jk with late := stick s.jk.late 1 } }
  let put := fun (r : Refresh) (k : Nat) =>
    s.event 0x2A 0x0502 1 [i8 r.due.toNat, i4 r.tensor, i4 r.block, i1 (match r.side with | .L => 0 | .R => 1), i1 k,
      i8 s.jq.slot.toNat]
  match s.jk.current with
  | some m => if s.installDue m.ref.due then put m.ref m.iter
    else match s.jk.queue.find? fun r => s.installDue r.due with
      | some r => put r 0
      | none => s
  | none => match s.jk.queue.find? fun r => s.installDue r.due with
    | some r => put r 0
    | none => s

/-- Install one finished refresh: its slot replaces the old one, which returns to the pool, and STALE_N is cleared; a stale one changes
nothing (R183, R184). -/
def State.installOne (s : State) (f : Finished) : State :=
  let e := s.rootEntry f.ref.tensor f.ref.block
  match f.slot with
  | none => s
  | some slot =>
    match f.ref.side with
    | .L => (if e.lValid then s.poolFree e.lSlot else s).setRoot f.ref.tensor f.ref.block
        { e with lSlot := slot, lValid := true, step := s.jq.step, staleN := 0 }
    | .R => (if e.rValid then s.poolFree e.rSlot else s).setRoot f.ref.tensor f.ref.block
        { e with rSlot := slot, rValid := true, step := s.jq.step, staleN := 0 }

/-- Every finished refresh due at this pulse is installed; the step counter has not yet advanced. -/
def State.installRoots (s : State) : State :=
  let due := s.jk.finished.filter fun f => s.installDue f.ref.due
  due.foldl State.installOne { s with jk := { s.jk with finished := s.jk.finished.filter fun f => !s.installDue f.ref.due } }

/-- The blocks of the catalogue, by tensor and number. -/
def State.allBlocks (s : State) : List (Nat × Nat) :=
  s.img.catalogue.zipIdx.flatMap fun p => (List.range p.1.blocks).map fun b => (p.2, b)

/-- Every VALID bit of every block is cleared, every pool slot is free, and no refresh is queued or awaits installation (R185). -/
def State.clearRoots (s : State) : State :=
  let s := s.allBlocks.foldl (fun s b =>
    s.setRoot b.1 b.2 { s.rootEntry b.1 b.2 with lValid := false, rValid := false }) s
  { s with jk := { s.jk with pool := [], finished := [], current := none, queue := [] } }

/-- `JK_INVALID.SIDES`: the sides of the blocks this member owns whose VALID bit is 0. -/
def State.invalidSides (s : State) : Nat :=
  (s.allBlocks.filter fun b => (s.cat b.1).any fun c => s.ownsBlock b.1 c b.2).foldl (fun a b =>
    let e := s.rootEntry b.1 b.2
    a + b2n (!e.lValid) + b2n (!e.rValid)) 0

/-- A quiesce abandons the refresh in progress; it starts again from R178 after resume (R186). -/
def State.markhorQuiesce (s : State) : State :=
  match s.jk.current with
  | none => s
  | some m =>
    let s := s.poolFree m.slot
    { s with jk := { s.jk with current := none, queue := insertBy refBefore m.ref s.jk.queue } }

/-! ### Preconditioning (R187) -/

def State.rootVals (s : State) (slot : Nat) : List W32 :=
  ((s.jk.pool.find? fun p => p.slot == slot).map fun p => p.vals.map bf16Up).getD []

/-- P from a block's reduced gradient, and whether Y or P has a non-finite element. -/
def State.precondition (s : State) (tensor block b : Nat) (split : Bool) (g : List W32) : List W32 × Bool :=
  let e := s.rootEntry tensor block
  let y := if e.lValid then matMul split b b b (s.rootVals e.lSlot) g else g
  let p := if e.rValid then matMul split b b b y (s.rootVals e.rSlot) else y
  (p, y.any f32NonFinite || p.any f32NonFinite)

/-- The products of a preconditioning run over both arrays (R162, R185, R187). -/
def State.precondTiles (s : State) (tensor block b : Nat) : State :=
  let e := s.rootEntry tensor block
  let s := if e.lValid then s.passTiles b b else s
  if e.rValid then s.passTiles b b else s

end Sys2Proof.Machine
end

