-- ==== Sys2Proof/Machine/Update.lean ====
section
/-!
DEFINITION. Update programs (spec/07_update_programs.md R190–R207): invocations, streams, the instructions of a tile's
sequencer, program faults, and the meanings of their commands.
-/

namespace Sys2Proof.Machine

/-! ### Instruction words (R197) -/

structure Word7 where
  op : Nat
  d : Nat
  a : Nat
  bsel : Nat
  b : Nat
  c : Nat
  imm : W16
  idx : Bool
  off : Nat
  deriving DecidableEq, Repr

def word7 (w : W32) : Word7 :=
  let n := w.toNat
  { op := bitsAt n 26 6, d := bitsAt n 22 4, a := bitsAt n 18 4, bsel := bitsAt n 16 2, b := bitsAt n 12 4,
    c := bitsAt n 8 4, imm := w.extractLsb' 0 16, idx := bitAt n 21, off := bitsAt n 0 15 }

/-! ### Where an invocation stands (R192, R195) -/

def State.progEntry (s : State) (epoch : BitVec 2) (prog : Nat) : Option ProgEntry :=
  (s.tables epoch).progs.find? fun p => p.prog == prog

/-- Iterations of a pass. -/
def passIters (isBlock : Bool) (b rangeGroups : Nat) : Nat := if isBlock then b * b / 64 else (rangeGroups + 1) / 2

/-- Block-local row and column of the first element of a block pass's iteration (R162, R192). -/
def blockRun (b i : Nat) : Nat × Nat :=
  let perStrip := 4 * b
  let u := i / perStrip
  let h := stripOf b (256 * u)
  let j := i % perStrip
  let v := j / (4 * h)
  let k := j % (4 * h)
  let runs := stripOf b (256 * v) / 64
  (256 * u + k / runs, 256 * v + k % runs * 64)

/-- The elements of one iteration: first flat index, how many lanes are active, and the chunk- or block-local index of
the first. -/
structure IterAt where
  flat : Nat
  act : Nat
  loc : Nat
  deriving DecidableEq, Repr

/-- What a tile's next instruction meets. -/
structure TileCtx where
  tile : Nat
  inv : Inv
  cat : CatEntry
  prog : ProgEntry
  pass : PassDir
  /-- rangeGroups of the chunk, for a chunk pass -/
  chunk : Option ChunkEntry
  pc : Nat
  iters : Nat
  at_ : IterAt

def Inv.isSection (i : Inv) : Bool := i.kind == 3

def TileCtx.inBody (x : TileCtx) : Bool := x.inv.part == 1

/-- Is lane l active (R192)? -/
def TileCtx.active (x : TileCtx) (l : Nat) : Bool := !x.inBody || decide (l < x.at_.act)

def iterAt (c : CatEntry) (inv : Inv) (e : Option ChunkEntry) : IterAt :=
  if inv.isSection then
    let rc := blockRun c.edge inv.iter
    let row := inv.index / c.blockCols * c.edge + rc.1
    ⟨row * c.cols + inv.index % c.blockCols * c.edge + rc.2, 64, rc.1 * c.edge + rc.2⟩
  else
    match e with
    | some e => ⟨32 * e.group0 + 64 * inv.iter, min 64 (32 * e.rangeGroups - 64 * inv.iter), 64 * inv.iter⟩
    | none => ⟨0, 0, 0⟩

/-- The running invocation of a tile, with its pass and its next word's address. -/
def State.tileCtx (s : State) (tile : Nat) : Option TileCtx :=
  match (s.tile tile).inv with
  | none => none
  | some inv =>
    match s.cat inv.tensor with
    | none => none
    | some c =>
      match s.progEntry inv.epoch c.prog with
      | none => none
      | some g =>
        match g.passes[inv.pass]? with
        | none => none
        | some p =>
          let e := if inv.isSection then none else s.chunk inv.index
          let base := p.start + (match inv.part with | 0 => 0 | 1 => p.proLen | _ => p.proLen + p.bodyLen)
          some { tile := tile, inv := inv, cat := c, prog := g, pass := p, chunk := e, pc := base + inv.pos,
                 iters := passIters inv.isSection c.edge ((e.map ChunkEntry.rangeGroups).getD 0), at_ := iterAt c inv e }

/-- The next position of an invocation after one word. -/
def Inv.next (inv : Inv) (p : PassDir) (iters : Nat) : Inv :=
  match inv.part with
  | 0 => if inv.pos + 1 < p.proLen then { inv with pos := inv.pos + 1 } else { inv with part := 1, pos := 0, iter := 0 }
  | 1 =>
    if inv.pos + 1 < p.bodyLen then { inv with pos := inv.pos + 1 }
    else if inv.iter + 1 < iters then { inv with pos := 0, iter := inv.iter + 1 }
    else if p.epiLen > 0 then { inv with part := 2, pos := 0, iter := 0 }
    else { inv with finished := true }
  | _ => if inv.pos + 1 < p.epiLen then { inv with pos := inv.pos + 1 } else { inv with finished := true }

/-- The first position of a pass. -/
def Inv.startPass (inv : Inv) (n : Nat) (p : PassDir) : Inv :=
  { inv with pass := n, part := if p.proLen > 0 then 0 else 1, pos := 0, iter := 0, crcs := [], preDue := p.pre,
             finished := false }

def State.setInv (s : State) (tile : Nat) (f : Inv → Inv) : State :=
  s.setTile tile fun t => { t with inv := t.inv.map f }

/-! ### Ends of invocations -/

/-- Show a tile's job in its window (R385). -/
def State.showJob (s : State) (tile kind tensor : Nat) : State :=
  s.setWin tile fun w => { w with busy := kind != 0, kind := BitVec.ofNat 2 kind, tensor := BitVec.ofNat 18 tensor }

/-- The tile is free again, or takes up the block section that had yielded (R206). -/
def State.leaveInv (s : State) (tile : Nat) : State :=
  let t := s.tile tile
  match t.saved with
  | some (inv, regs) => (s.setTile tile fun t => { t with inv := some inv, regs := regs, saved := none }).showJob tile 2 inv.tensor
  | none =>
    let tensor := ((t.inv.map Inv.tensor).getD 0)
    (s.setTile tile fun t => { t with inv := none }).showJob tile 0 tensor

/-- The chunk is consumed: its HOLD buffer is free (R131, R191). -/
def State.consume (s : State) (i : Nat) : State :=
  let s := s.stageTake fun b => b.pool == .hold && b.hdr.toNat == i
  { s with jx := { s.jx with hold := s.jx.hold.filter fun f => f.chunk != i,
                             consumed := if s.jx.consumed.contains i then s.jx.consumed else i :: s.jx.consumed },
           ju := { s.ju with ready := s.ju.ready.filter fun x => x != i } }

/-- Chunks of a tensor that hold a group of block β. -/
def State.blockChunks (s : State) (c : CatEntry) (block : Nat) : List Nat :=
  let r0 := block / c.blockCols * c.edge
  let c0 := block % c.blockCols * c.edge
  ((List.range c.chunkCount).map (c.chunkMap + ·)).filter fun i =>
    match s.chunk i with
    | some e =>
      (List.range c.edge).any fun r =>
        let g := ((r0 + r) * c.cols + c0) / 32
        decide (e.group0 < g + c.edge / 32) && decide (g < e.group0 + e.rangeGroups)
    | none => false

/-- The block section of a block is over, by its end or by a fault: its work area is free (R191, R203). -/
def State.endSection (s : State) (tensor block : Nat) : State :=
  { s with ju := { s.ju with sections := (tensor, block) :: s.ju.sections,
                             areas := s.ju.areas.filter fun a => !(a.tensor == tensor && a.block == block) } }

/-- A program fault ends the invocation, whose chunks count as consumed (R203, R204). -/
def State.progFault (s : State) (x : TileCtx) (cause addr : Nat) : State :=
  let inv := x.inv
  let s := s.fault
  let s := if s.ju.progFault.valid then s
    else { s with ju := { s.ju with progFault :=
      ⟨BitVec.ofNat 3 cause, true, BitVec.ofNat 6 x.tile, inv.epoch, BitVec.ofNat 13 x.pc, BitVec.ofNat 23 addr⟩ } }
  let s := s.event x.tile 0x0601 1
    [i1 cause, i2 x.tile, i1 inv.epoch.toNat, i4 x.pc, i4 addr, i4 inv.tensor, i8 s.jq.step.toNat]
  let s := s.leaveInv x.tile
  if inv.isSection then
    let s := { s with ju := { s.ju with norms := s.ju.norms.filter fun n =>
      !(n.tensor == inv.tensor && n.isBlock && n.index == inv.index) } }
    (s.blockChunks x.cat inv.index).foldl State.consume (s.endSection inv.tensor inv.index)
  else s.consume inv.index

/-! ### Registers (R193) -/

def zeroLanes : List W32 := List.replicate 64 0

def State.vreg (s : State) (tile n : Nat) : List W32 := (s.tile tile).regs.v.getD n zeroLanes

def State.setV (s : State) (tile n : Nat) (l : List W32) : State :=
  s.setTile tile fun t => { t with regs := { t.regs with v := modifyNth (fun _ => l) n t.regs.v } }

def zeroStates : List CState := List.replicate 64 CState.zero

def State.areg (s : State) (tile n : Nat) : List CState := (s.tile tile).regs.a.getD n zeroStates

def State.setA (s : State) (tile n : Nat) (l : List CState) : State :=
  s.setTile tile fun t => { t with regs := { t.regs with a := modifyNth (fun _ => l) n t.regs.a } }

/-- Coefficient k of a tensor's set, as latched (R193). -/
def State.kreg (s : State) (c : CatEntry) (n : Nat) : W32 :=
  match s.ju.kfile.find? fun f => f.kset == c.kset with
  | some f => f.vals.getD n 0
  | none => 0

/-- Operand b (R197). -/
def State.operandB (s : State) (x : TileCtx) (w : Word7) : List W32 :=
  match w.bsel with
  | 0 => s.vreg x.tile w.b
  | 1 => List.replicate 64 (s.kreg x.cat w.b)
  | _ => List.replicate 64 (BitVec.ofNat 32 (w.imm.toNat * 65536))

/-- Operand c: vC in the R form, vD in the I form. -/
def State.operandC (s : State) (x : TileCtx) (w : Word7) : List W32 := s.vreg x.tile (if w.bsel = 2 then w.d else w.c)

/-- Is any active lane non-finite? -/
def TileCtx.anyNonFinite (x : TileCtx) (l : List W32) : Bool :=
  (l.zipIdx.any fun p => x.active p.2 && f32NonFinite p.1)

/-! ### One instruction -/

/-- A tile issues one word: it must be the next word of its running invocation, with this operation. The body answers
the new state, or none when it has ended the invocation. -/
def State.issue (s : State) (tile : Nat) (w : W32) (op : Nat) (body : State → TileCtx → Word7 → State × Bool) : State :=
  match s.tileCtx tile with
  | none => s
  | some x =>
    if s.jq.gen || s.inReset || x.inv.finished || x.inv.preDue || (word7 w).op != op ||
        (s.tables x.inv.epoch).code[x.pc]? != some w then s
    else
      let r := body s x (word7 w)
      if r.2 then r.1 else r.1.setInv tile fun i => i.next x.pass x.iters

/-- A lane-wise operation of vA, b and c with its sticky bit (R198). -/
def State.lanes (s : State) (tile : Nat) (w : W32) (op : Nat) (uses : Bool × Bool × Bool) (f : W32 → W32 → W32 → W32) : State :=
  s.issue tile w op fun s x i =>
    let a := s.vreg tile i.a
    let b := s.operandB x i
    let c := s.operandC x i
    let r := (List.range 64).map fun l => f (a.getD l 0) (b.getD l 0) (c.getD l 0)
    let bad := x.anyNonFinite r || (uses.1 && x.anyNonFinite a) || (uses.2.1 && x.anyNonFinite b) ||
      (uses.2.2 && x.anyNonFinite c)
    ((s.setV tile i.d r).nonFiniteIf bad .tiles, false)

/-- Lane-wise accumulation into aD; inactive lanes are skipped. -/
def State.accumulate (s : State) (tile : Nat) (w : W32) (op : Nat) (f : W32 → W32) : State :=
  s.issue tile w op fun s x i =>
    let v := s.vreg tile i.a
    let old := s.areg tile i.d
    let r := (List.range 64).map fun l =>
      let st := old.getD l CState.zero
      if x.active l then cadd st (f (v.getD l 0)) else st
    let bad := x.anyNonFinite v || x.anyNonFinite (v.map f) || x.anyNonFinite (r.map CState.s) || x.anyNonFinite (r.map CState.c)
    ((s.setA tile i.d r).nonFiniteIf bad .tiles, false)

/-- The fold of aA in every lane (R200). -/
def State.foldReg (s : State) (tile : Nat) (w : W32) : State :=
  s.issue tile w 0x16 fun s _ i =>
    let st := s.areg tile i.a
    let r := cfold (treeFold ccombine CState.zero st)
    let bad := f32NonFinite r || st.any fun c => f32NonFinite c.s || f32NonFinite c.c
    ((s.setV tile i.d (List.replicate 64 r)).nonFiniteIf bad .tiles, false)

/-! ### Streams (R194) -/

/-- The address of the work area that a block holds. -/
def State.areaOf (s : State) (tensor block : Nat) : Option Nat :=
  (s.ju.areas.find? fun a => a.tensor == tensor && a.block == block).map WorkArea.base

/-- A block takes the first free work area of the tile, unless it holds one; Sniex refuses a schedule that finds none
(R194; notes/assumptions/51.md). -/
def State.giveArea (s : State) (tile : Nat) (b : Nat × Nat) : State :=
  if (s.areaOf b.1 b.2).isSome then s
  else
    match (s.decl.workAreas.getD tile []).find? fun a => !s.ju.areas.any fun x => x.base == a with
    | some a => { s with ju := { s.ju with areas := s.ju.areas ++ [⟨b.1, b.2, a⟩] } }
    | none => s

/-- The state-tier address of element n of a block's gradient buffer, or of its product buffer behind it, FP32 and row-major
(R194). -/
def State.bufAddr (s : State) (tensor : Nat) (c : CatEntry) (block : Nat) (product : Bool) (n : Nat) : Option Nat :=
  (s.areaOf tensor block).map fun a => a + (if product then 4 * (c.edge * c.edge) else 0) + 4 * n

/-- n elements of a block's buffer from element k; a block without a work area reads +0.0. -/
def State.bufVals (s : State) (tensor : Nat) (c : CatEntry) (block : Nat) (product : Bool) (k n : Nat) : List W32 :=
  match s.bufAddr tensor c block product k with
  | some a => (groupsOf 4 (memRead s.stateMem a (4 * n))).map w32LE
  | none => List.replicate n 0

/-- Block and block-local index of a flat element. -/
def CatEntry.blockOf (c : CatEntry) (elem : Nat) : Nat × Nat :=
  let r := elem / c.cols
  let q := elem % c.cols
  (r / c.edge * c.blockCols + q / c.edge, r % c.edge * c.edge + q % c.edge)

def State.dirEntry (s : State) (tensor : Nat) : StateDir := (s.img.stateDir[tensor]?).getD ⟨0, 0, 0, 0, false, 0, 0, 0⟩

/-- The value e of a tensor's scale-table record (R223). -/
def State.scaleE (s : State) (tensor : Nat) : Int := (memGet s.stateMem (s.decl.scaleBase + 72 * tensor + 64)).toInt

/-- The value an LD gives lane l, and whether the conversion met a non-finite value. -/
def State.loadLane (s : State) (x : TileCtx) (stream l : Nat) : W32 × Bool :=
  let elem := x.at_.flat + l
  let d := s.dirEntry x.inv.tensor
  let jb := fun (base : Nat) (val : Byte → W16 → W32) =>
    let a := s.stateAddr base s.bank + 34 * (elem / 32)
    let v := val (memGet s.stateMem (a + elem % 32)) (w16LE (memRead s.stateMem (a + 32) 2))
    (v, f32NonFinite v)
  match stream with
  | 0 =>
    match s.jx.hold.find? fun f => f.chunk == x.inv.index with
    | some f => (f.vals.getD (x.at_.loc + l) 0, false)
    | none => (0, false)
  | 1 => ((s.bufVals x.inv.tensor x.cat x.inv.index false (x.at_.loc + l) 1).headD 0, false)
  | 2 => ((s.bufVals x.inv.tensor x.cat x.inv.index true (x.at_.loc + l) 1).headD 0, false)
  | 3 =>
    if s.decl.lean then
      let v := bf16Up (w16LE (memRead s.hostMem (s.hostAddr d.wBase s.bank + 2 * elem) 2))
      (v, f32NonFinite v)
    else (w32LE (memRead s.stateMem (s.stateAddr d.wBase s.bank + 4 * elem) 4), false)
  | 4 => jb d.m1Base jb8M1Value
  | 5 => jb d.m2Base jb8M2Value
  | _ => (0, false)

def State.loadStream (s : State) (tile : Nat) (w : W32) : State :=
  s.issue tile w 0x10 fun s x i =>
    let r := (List.range 64).map fun l => if l < x.at_.act then s.loadLane x i.a l else (0, false)
    ((s.setV tile i.d (r.map fun q => f32Canon q.1)).nonFiniteIf (r.any Prod.snd) .tiles, false)

/-- Carry a stream's CRC on over stored bytes (R227): the first bytes of a run follow their bank-0 address. -/
def addCrc (stream addr0 : Nat) (b : List Byte) (l : List RunCrc) : List RunCrc :=
  match l.find? fun r => r.stream == stream with
  | some r => l.map fun q => if q.stream == stream then { r with crc := b.foldl crc64Byte r.crc } else q
  | none => RunCrc.mk stream ((bytesLE 8 addr0 ++ b).foldl crc64Byte 0) :: l

/-- The bank the step writes (R211). -/
def State.otherBank (s : State) : Nat := 1 - s.bank

/-- Write a run of stored bytes to the inactive bank, state tier or host, with its CRC. -/
def State.storeBytes (s : State) (x : TileCtx) (stream : Nat) (host : Bool) (addr0 : Nat) (b : List Byte) : State :=
  let s := if host then s.hostWrite x.tile (s.hostAddr addr0 s.otherBank) b
    else s.stateWrite x.tile (s.stateAddr addr0 s.otherBank) b
  if stream = 11 then s else s.setInv x.tile fun i => { i with crcs := addCrc stream addr0 b i.crcs }

/-- The JB8 blocks of a vector's active groups (R61, R62). -/
def State.storeJb8 (s : State) (x : TileCtx) (stream base : Nat) (p : Purpose)
    (conv : List W32 → List (Option W16) → List Byte × W16 × Bool) (vals : List W32) : State :=
  let blocks := (List.range (x.at_.act / 32)).map fun k =>
    let vs := (vals.drop (32 * k)).take 32
    conv vs (vs.mapIdx fun j _ =>
      if x.cat.srM then some (srValue s.ju.seed p x.inv.tensor (x.at_.flat + 32 * k + j) s.jq.step 0) else none)
  let s := s.nonFiniteIf (blocks.any fun b => b.2.2) .tiles
  s.storeBytes x stream false (base + 34 * (x.at_.flat / 32)) (blocks.flatMap fun b => jb8Bytes b.1 b.2.1)

/-- The block and the block-local index of each 32-element group of a vector, which lies in one row of one block, and its elements. -/
def TileCtx.gbGroups (x : TileCtx) (vals : List W32) : List ((Nat × Nat) × List W32) :=
  (groupsOf 32 vals).mapIdx fun k g => (x.cat.blockOf (x.at_.flat + 32 * k), g)

/-- The bytes that a store to GB writes, by state-tier address. -/
def State.gbPieces (s : State) (x : TileCtx) (vals : List W32) : List (Nat × List Byte) :=
  (x.gbGroups vals).filterMap fun g =>
    (s.bufAddr x.inv.tensor x.cat g.1.1 false g.1.2).map fun a => (a, g.2.flatMap bytes32)

/-- The blocks of a vector hold their work areas. -/
def State.giveAreas (s : State) (x : TileCtx) (vals : List W32) : State :=
  (x.gbGroups vals).foldl (fun s g => s.giveArea x.tile (x.inv.tensor, g.1.1)) s

/-- ST GB: into the gradient buffers of the blocks, in the state tier (R194). -/
def State.storeGb (s : State) (x : TileCtx) (vals : List W32) : State :=
  let s := (s.nonFiniteIf (vals.any f32NonFinite) .tiles).giveAreas x vals
  (s.gbPieces x vals).foldl (fun s p => s.stateWrite x.tile p.1 p.2) s

/-- ST WC (R221): BF16 for CLASS 2, else FP8 of w × 2^e. -/
def State.storeWc (s : State) (x : TileCtx) (vals : List W32) : State :=
  let d := s.dirEntry x.inv.tensor
  if x.cat.cls = 2 then
    let r := vals.map bf16Rne
    (s.nonFiniteIf (r.any bf16NonFinite) .tiles).storeBytes x 11 true (d.wcBase + 2 * x.at_.flat) (r.flatMap bytes16)
  else
    let y := vals.map fun v => f32Mul v (f32Pow2 (s.scaleE x.inv.tensor))
    (s.nonFiniteIf (vals.any f32NonFinite || y.any f32NonFinite) .tiles).storeBytes x 11 true (d.wcBase + x.at_.flat)
      (y.map (fp8Of d.e5m2))

/-- ST WN: the master unchanged, or the lean weight in BF16. -/
def State.storeWn (s : State) (x : TileCtx) (vals : List W32) : State :=
  let d := s.dirEntry x.inv.tensor
  if s.decl.lean then
    let r := vals.mapIdx fun l v =>
      if x.cat.srW then bf16Sr v (srValue s.ju.seed .weight x.inv.tensor (x.at_.flat + l) s.jq.step 0) else bf16Rne v
    (s.nonFiniteIf (vals.any f32NonFinite || r.any bf16NonFinite) .tiles).storeBytes x 8 true (d.wBase + 2 * x.at_.flat) (r.flatMap bytes16)
  else (s.nonFiniteIf (vals.any f32NonFinite) .tiles).storeBytes x 8 false (d.wBase + 4 * x.at_.flat) (vals.flatMap bytes32)

def State.storeStream (s : State) (tile : Nat) (w : W32) : State :=
  s.issue tile w 0x11 fun s x i =>
    let vals := (s.vreg tile i.a).take x.at_.act
    let d := s.dirEntry x.inv.tensor
    (match i.d with
     | 1 => s.storeGb x vals
     | 8 => s.storeWn x vals
     | 9 => s.storeJb8 x 9 d.m1Base .moment1 jb8M1 vals
     | 10 => s.storeJb8 x 10 d.m2Base .moment2 jb8M2 vals
     | 11 => s.storeWc x vals
     | _ => s, false)

/-! ### Update scratch (R203) -/

/-- Tile address of a memory form. -/
def TileCtx.xAddr (x : TileCtx) (i : Word7) : Nat := (i.off + (if i.idx then x.inv.iter else 0)) * 256

def inRegionS (a : Nat) : Bool := decide (0x440000 ≤ a) && decide (a < 0x450000)

def State.inRegionC (s : State) (a : Nat) : Bool := decide (0x500000 ≤ a) && decide (a + 256 ≤ 0x500000 + s.img.regionC.length)

def State.regionS (s : State) (x : TileCtx) : Mem :=
  if x.inv.isSection then (s.tile x.tile).regSBlock else (s.tile x.tile).regS

def State.loadX (s : State) (tile : Nat) (w : W32) : State :=
  s.issue tile w 0x12 fun s x i =>
    let a := x.xAddr i
    if inRegionS a || s.inRegionC a then
      let b := if inRegionS a then memRead (s.regionS x) (a - 0x440000) 256 else (s.img.regionC.drop (a - 0x500000)).take 256
      let v := (List.range 64).map fun l => if x.active l then f32Canon (w32LE (b.drop (4 * l))) else 0
      ((s.setV tile i.d v).nonFiniteIf (v.any f32NonFinite) .tiles, false)
    else (s.progFault x 3 a, true)

def State.storeX (s : State) (tile : Nat) (w : W32) : State :=
  s.issue tile w 0x13 fun s x i =>
    let a := x.xAddr i
    if inRegionS a then
      let s := s.nonFiniteIf ((s.vreg tile i.d).zipIdx.any fun p => x.active p.2 && f32NonFinite p.1) .tiles
      let m := (s.vreg tile i.d).zipIdx.foldl
        (fun m p => if x.active p.2 then memWrite m (a - 0x440000 + 4 * p.2) (bytes32 p.1) else m) (s.regionS x)
      (s.setTile tile fun t => if x.inv.isSection then { t with regSBlock := m } else { t with regS := m }, false)
    else (s.progFault x (if 0x400000 ≤ a ∧ a < 0x430000 then 1 else 2) a, true)

/-! ### Meanings of the instruction commands (R198) -/

def tileOk (tile : Nat) : Bool := decide (tile < 40)

def execNop (tile : Nat) (w : W32) (s : State) : Host.Outcome State Fault Refusal :=
  runUnit (tileOk tile) (fun s => s.issue tile w 0x00 fun s _ _ => (s, false)) s

def execMov (tile : Nat) (w : W32) (s : State) : Host.Outcome State Fault Refusal :=
  runUnit (tileOk tile) (fun s => s.lanes tile w 0x01 (false, true, false) fun _ b _ => f32Canon b) s

def execAdd (tile : Nat) (w : W32) (s : State) : Host.Outcome State Fault Refusal :=
  runUnit (tileOk tile) (fun s => s.lanes tile w 0x02 (true, true, false) fun a b _ => f32Add a b) s

def execSub (tile : Nat) (w : W32) (s : State) : Host.Outcome State Fault Refusal :=
  runUnit (tileOk tile) (fun s => s.lanes tile w 0x03 (true, true, false) fun a b _ => f32Sub a b) s

def execMul (tile : Nat) (w : W32) (s : State) : Host.Outcome State Fault Refusal :=
  runUnit (tileOk tile) (fun s => s.lanes tile w 0x04 (true, true, false) fun a b _ => f32Mul a b) s

def execDiv (tile : Nat) (w : W32) (s : State) : Host.Outcome State Fault Refusal :=
  runUnit (tileOk tile) (fun s => s.lanes tile w 0x05 (true, true, false) fun a b _ => f32Div a b) s

def execMin (tile : Nat) (w : W32) (s : State) : Host.Outcome State Fault Refusal :=
  runUnit (tileOk tile) (fun s => s.lanes tile w 0x06 (true, true, false) fun a b _ => f32Min a b) s

def execMax (tile : Nat) (w : W32) (s : State) : Host.Outcome State Fault Refusal :=
  runUnit (tileOk tile) (fun s => s.lanes tile w 0x07 (true, true, false) fun a b _ => f32Max a b) s

def execFma (tile : Nat) (w : W32) (s : State) : Host.Outcome State Fault Refusal :=
  runUnit (tileOk tile) (fun s => s.lanes tile w 0x08 (true, true, true) f32Fma) s

def execFnma (tile : Nat) (w : W32) (s : State) : Host.Outcome State Fault Refusal :=
  runUnit (tileOk tile) (fun s => s.lanes tile w 0x09 (true, true, true) fun a b c => f32Fma (f32Neg a) b c) s

def execSqrt (tile : Nat) (w : W32) (s : State) : Host.Outcome State Fault Refusal :=
  runUnit (tileOk tile) (fun s => s.lanes tile w 0x0A (true, false, false) fun a _ _ => f32Sqrt a) s

/-- ABS clears the sign; a NaN result is the canonical NaN (R42). -/
def execAbs (tile : Nat) (w : W32) (s : State) : Host.Outcome State Fault Refusal :=
  runUnit (tileOk tile) (fun s => s.lanes tile w 0x0B (true, false, false) fun a _ _ => f32Canon (f32Abs a)) s

def execNeg (tile : Nat) (w : W32) (s : State) : Host.Outcome State Fault Refusal :=
  runUnit (tileOk tile) (fun s => s.lanes tile w 0x0C (true, false, false) fun a _ _ => f32Canon (f32Neg a)) s

def execClt (tile : Nat) (w : W32) (s : State) : Host.Outcome State Fault Refusal :=
  runUnit (tileOk tile) (fun s => s.lanes tile w 0x0D (true, true, false) fun a b _ => if f32Lt a b then f32One else 0) s

def execSel (tile : Nat) (w : W32) (s : State) : Host.Outcome State Fault Refusal :=
  runUnit (tileOk tile) (fun s => s.lanes tile w 0x0E (true, true, true) fun a b c => f32Canon (if f32IsZero c then b else a)) s

def execLd (tile : Nat) (w : W32) (s : State) : Host.Outcome State Fault Refusal :=
  runUnit (tileOk tile) (fun s => s.loadStream tile w) s

def execSt (tile : Nat) (w : W32) (s : State) : Host.Outcome State Fault Refusal :=
  runUnit (tileOk tile) (fun s => s.storeStream tile w) s

def execLdx (tile : Nat) (w : W32) (s : State) : Host.Outcome State Fault Refusal :=
  runUnit (tileOk tile) (fun s => s.loadX tile w) s

def execStx (tile : Nat) (w : W32) (s : State) : Host.Outcome State Fault Refusal :=
  runUnit (tileOk tile) (fun s => s.storeX tile w) s

def execAcc (tile : Nat) (w : W32) (s : State) : Host.Outcome State Fault Refusal :=
  runUnit (tileOk tile) (fun s => s.accumulate tile w 0x14 id) s

def execAccsq (tile : Nat) (w : W32) (s : State) : Host.Outcome State Fault Refusal :=
  runUnit (tileOk tile) (fun s => s.accumulate tile w 0x15 fun v => f32Mul v v) s

def execFold (tile : Nat) (w : W32) (s : State) : Host.Outcome State Fault Refusal :=
  runUnit (tileOk tile) (fun s => s.foldReg tile w) s

/-! ### Starting invocations (R191, R203, R206) -/

/-- May a running block section yield here: an iteration or pass boundary? -/
def Inv.atBoundary (i : Inv) : Bool := i.isSection && (i.pos == 0 || i.finished)

/-- A fresh invocation at pass n. -/
def newInv (kind tensor index : Nat) (epoch : BitVec 2) (n : Nat) (p : PassDir) : Inv :=
  ({ kind := kind, tensor := tensor, index := index, epoch := epoch, pass := 0, part := 0, pos := 0, iter := 0, crcs := [],
     closed := [], preDue := false, finished := false } : Inv).startPass n p

/-- The ready chunk that a tile takes next. -/
def State.nextReady (s : State) (tile : Nat) : Option Nat :=
  s.ju.ready.find? fun i => ((s.chunk i).map ChunkEntry.tile) == some tile

def State.chunkPass (s : State) (tile : Nat) : State :=
  let t := s.tile tile
  let free := match t.inv with | none => true | some i => i.atBoundary && t.saved.isNone
  match s.nextReady tile with
  | none => s
  | some i =>
    let tensor := s.chunkTensor i
    match s.cat tensor, s.jx.hold.find? fun f => f.chunk == i with
    | some c, some f =>
      match s.progEntry f.tepoch c.prog with
      | none => s
      | some g =>
        match g.passes[0]? with
        | none => s
        | some p =>
          if !free || s.jq.gen || s.inReset then s
          else
            let inv := newInv (if g.isBlock then 2 else 1) tensor i f.tepoch 0 p
            let s := { s with ju := { s.ju with ready := s.ju.ready.filter fun x => x != i } }
            (s.setTile tile fun t =>
              { t with saved := t.inv.map fun old => (old, t.regs), inv := some inv, regs := TileRegs.zero,
                       regS := if g.usesS then [] else t.regS }).showJob tile 1 tensor
    | _, _ => s

/-- An element program or pass 0 starts on the chunk's tile. -/
def execChunkPassStart (tile : Nat) (s : State) : Host.Outcome State Fault Refusal :=
  runUnit (tileOk tile) (fun s => s.chunkPass tile) s

/-- The table epoch of a chunk whose own pass has completed in this step. -/
def State.passEpoch (s : State) (i : Nat) : Option (BitVec 2) := tabGet i s.ju.passed

/-- Blocks of block-program tensors on a tile whose section may start: pass 0 has completed for every chunk of the block, and the section
is not over. A chunk that another section's fault has consumed counts as passed (R191, R203). -/
def State.readyBlocks (s : State) (tile : Nat) : List (Nat × Nat) :=
  s.img.catalogue.zipIdx.flatMap fun p =>
    ((List.range p.1.blocks).filter fun b =>
      ((s.blockChunk p.2 p.1 b).map fun e => (e.tile, e.owner)) == some (tile, s.me) && !s.ju.sections.contains (p.2, b) &&
        (s.blockChunks p.1 b).all fun i => (s.passEpoch i).isSome).map fun b => (p.2, b)

/-- The epoch of a block's chunks. -/
def State.blockEpoch (s : State) (c : CatEntry) (b : Nat) : BitVec 2 :=
  match (s.blockChunks c b).head? with
  | some i => (s.passEpoch i).getD s.jg.epoch.current
  | none => s.jg.epoch.current

def State.blockSection (s : State) (tile : Nat) : State :=
  let usable := (s.readyBlocks tile).filterMap fun tb =>
    match s.cat tb.1 with
    | none => none
    | some c =>
      match s.progEntry (s.blockEpoch c tb.2) c.prog with
      | none => none
      | some g => if g.isBlock then (g.passes[1]?).map fun p => (tb, g, p, s.blockEpoch c tb.2) else none
  match usable.head? with
  | none => s
  | some (tb, g, p, ep) =>
    if (s.tile tile).inv.isSome || s.jq.gen || s.inReset then s
    else
      (s.setTile tile fun t =>
        { t with inv := some (newInv 3 tb.1 tb.2 ep 1 p), regs := TileRegs.zero,
                 regSBlock := if g.usesS then [] else t.regSBlock }).showJob tile 2 tb.1

/-- A block section starts once pass 0 of every chunk of its block has completed. -/
def execBlockSectionStart (tile : Nat) (s : State) : Host.Outcome State Fault Refusal :=
  runUnit (tileOk tile) (fun s => s.blockSection tile) s

/-- Before the prologue of a PRE pass the arrays form P (R187, R196). -/
def State.prePass (s : State) (tile : Nat) : State :=
  match s.tileCtx tile with
  | none => s
  | some x =>
    if !x.inv.preDue || s.jq.gen || s.inReset then s
    else
      let b := x.cat.edge
      let r := s.precondition x.inv.tensor x.inv.index b x.pass.preSplit
        (s.bufVals x.inv.tensor x.cat x.inv.index false 0 (b * b))
      let s := (s.precondTiles x.inv.tensor x.inv.index b).nonFiniteIf r.2 .arrays
      let s := match s.bufAddr x.inv.tensor x.cat x.inv.index true 0 with
        | some a => s.stateWrite x.tile a (r.1.flatMap bytes32)
        | none => s
      s.setInv tile fun i => { i with preDue := false }

def execPrePassStart (tile : Nat) (s : State) : Host.Outcome State Fault Refusal :=
  runUnit (tileOk tile) (fun s => s.prePass tile) s

/-! ### Pass ends (R200, R205, R219, R227) -/

/-- Which of a0–a2 a pass accumulates into. -/
def State.normRegs (s : State) (x : TileCtx) : List Nat :=
  let n := x.pass.proLen + x.pass.bodyLen + x.pass.epiLen
  let ws := (((s.tables x.inv.epoch).code.drop x.pass.start).take n).map word7
  (List.range 3).filter fun r => ws.any fun w => (w.op == 0x14 || w.op == 0x15) && w.d == r

def State.putNorm (s : State) (n : NormSlot) : State :=
  { s with ju := { s.ju with norms := (s.ju.norms.filter fun m =>
      !(m.tensor == n.tensor && m.isBlock == n.isBlock && m.index == n.index && m.pass == n.pass && m.reg == n.reg)) ++ [n] } }

/-- XOR the CRCs of an invocation's runs into the step's digests (R227). -/
def Digests.add (d : Digests) (r : RunCrc) : Digests :=
  let c := BitVec.ofNat 64 r.crc
  match r.stream with
  | 8 => { d with w := d.w ^^^ c }
  | 9 => { d with m1 := d.m1 ^^^ c }
  | _ => { d with m2 := d.m2 ^^^ c }

/-- An invocation has run to its end: its CRCs, its counter, its chunk or block. -/
def State.endInv (s : State) (tile : Nat) (inv : Inv) (crcs : List RunCrc) : State :=
  let s := { s with ju := { s.ju with acc := crcs.foldl Digests.add s.ju.acc } }
  let s := if inv.isSection then
      ({ s with ju := { s.ju with updBlocks := stick s.ju.updBlocks 1 } }).endSection inv.tensor inv.index
    else { s with ju := { s.ju with updChunks := stick s.ju.updChunks 1, passed := (inv.index, inv.epoch) :: s.ju.passed } }
  s.leaveInv tile

def State.passComplete (s : State) (tile : Nat) : State :=
  match s.tileCtx tile with
  | none => s
  | some x =>
    let inv := x.inv
    if !inv.finished || s.inReset then s
    else
      let s := (s.normRegs x).foldl
        (fun s r => s.putNorm ⟨inv.tensor, inv.isSection, inv.index, inv.pass, r, s.areg tile r⟩) s
      let closed := inv.closed ++ inv.crcs
      match (if inv.isSection then x.prog.passes[inv.pass + 1]? else none) with
      | some p =>
        (s.setInv tile fun i => { i.startPass (inv.pass + 1) p with closed := closed }).setTile tile fun t =>
          { t with regs := { t.regs with a := t.regs.a.mapIdx fun n a => if n < 3 then zeroStates else a } }
      | none => s.endInv tile inv closed

/-- A pass ends: norm slots, then the next pass or the end of the invocation. -/
def execPassComplete (tile : Nat) (s : State) : Host.Outcome State Fault Refusal :=
  runUnit (tileOk tile) (fun s => s.passComplete tile) s

/-! ### Chunks consumed (R191) -/

/-- Can a block's section never run, since one of its chunks was POISON or faulted? -/
def State.blockDead (s : State) (c : CatEntry) (b : Nat) : Bool :=
  (s.blockChunks c b).any fun i => s.jx.consumed.contains i && (s.passEpoch i).isNone

/-- Has everything that uses a chunk completed? -/
def State.chunkDone (s : State) (i : Nat) : Bool :=
  (s.passEpoch i).isSome && !s.jx.consumed.contains i &&
    match s.cat (s.chunkTensor i), s.jx.hold.find? fun f => f.chunk == i with
    | some c, some f =>
      (match s.progEntry f.tepoch c.prog with
       | some g => !g.isBlock || (List.range c.blocks).all fun b =>
           !(s.blockChunks c b).contains i || s.ju.sections.contains (s.chunkTensor i, b) || s.blockDead c b
       | none => true)
    | _, _ => false

def State.chunkConsumed (s : State) (i : Nat) : State := if s.chunkDone i then s.consume i else s

/-- A chunk counts as consumed when its stores and those of the block sections that need it are acknowledged. -/
def execChunkConsumed (chunk : Nat) (s : State) : Host.Outcome State Fault Refusal := run (fun s => s.chunkConsumed chunk) s

end Sys2Proof.Machine
end

