-- ==== Sys2Proof/Machine/Commit.lean ====
section
/-!
DEFINITION. The end of a step: the verdict contribution and its gate (spec/01 R24–R26, spec/08 R214), the commit pulse and the
skip (R27–R30), coefficients (R216–R218), working-copy scales (R221–R223), digests (R227), copies and restores (R229–R233), the
contents a schedule load starts from (R403), and the meanings of their commands.
-/

namespace Sys2Proof.Machine

/-! ### Coefficients (R216–R218) -/

/-- VALUE^m by square-and-multiply from the most significant bit. -/
def f32PowBits (v : W32) : List Bool → W32 → W32
  | [], r => r
  | b :: rest, r =>
    let q := f32Mul r r
    f32PowBits v rest (if b then f32Mul q v else q)

def bitsMsb (m : Nat) : List Bool := ((List.range (Nat.log2 m + 1)).map fun i => bitAt m i).reverse

def f32PowNat (v : W32) (m : Nat) : W32 := f32PowBits v (bitsMsb m) f32One

/-- A coefficient curve at step n (R217). -/
def coefCurve (bps : List CoefBp) (n : Nat) : W32 :=
  let i := (bps.filter fun b => decide (b.start ≤ n)).length - 1
  match bps[i]?, bps[i + 1]? with
  | some a, some b =>
    if a.lin then
      let f := f32Div (f32OfInt ((n : Int) - a.start)) (f32OfNat (b.start - a.start))
      f32Fma (f32Sub b.value a.value) f a.value
    else a.value
  | some a, none => a.value
  | none, _ => 0

/-- One coefficient at step n (R216). -/
def State.coef (s : State) (n : Nat) (e : CoefEntry) : W32 :=
  if e.mode = 0 then e.value
  else if e.mode = 1 then f32Mul e.value (coefCurve ((tabGet e.curve s.live.cur.coefCurves).getD []) n)
  else if e.mode = 2 then
    let m : Int := (n : Int) - s.decl.biasOrigin + 1
    if m < 1 then f32One else f32Div f32One (f32Sub f32One (f32PowNat e.value m.toNat))
  else f32Mul e.value s.ju.clip

/-- Latch the coefficient file from the step counter in force (R218). -/
def State.latchCoefs (s : State) : State :=
  let n := s.jq.step.toNat
  { s with ju := { s.ju with kfile := s.live.cur.coefSets.map fun p => CoefFile.mk p.1 (p.2.map (s.coef n)) } }

/-! ### Working-copy scales (R221–R223) -/

/-- The exponent h of a magnitude and whether its significand exceeds 1.75. -/
def magExp (x : W32) : Int × Bool :=
  match f32Unpack x with
  | .fin _ m e => ((Nat.log2 m : Int) + e, decide (4 * m > 7 * 2 ^ Nat.log2 m))
  | _ => (0, false)

/-- The e that H gives (R223). -/
def scaleOf (e5m2 : Bool) (margin : Nat) (hist : List W32) (old : Int) : Int :=
  let h := hist.foldl (fun a x => if (f32Abs x).toNat > a.toNat then f32Abs x else a) 0
  if h = 0 then old
  else
    let x := magExp h
    let e := (if e5m2 then 15 else 8) - x.1 - margin - (if x.2 then 1 else 0)
    max (-120) (min 120 e)

/-- A of a completed scan, as the history takes it, and SAT (R222, R223). -/
def scanEntry (e5m2 : Bool) (x : WcScan) : W32 × Bool :=
  let cap := fun (v : W32) => if f32NonFinite v then f32MaxFinite else v
  let a := cap (f32Mul (fp8Up e5m2 x.code) x.aux)
  let sat := x.code == if e5m2 then 0x7B else 0x7E
  if sat then (cap (f32Mul (f32Pow2 1) a) ||| 0x80000000, true) else (a, false)

def State.scaleRec (s : State) (tensor : Nat) : Nat := s.decl.scaleBase + 72 * tensor

/-- Push one completed scan into its tensor's history (R223). -/
def State.pushScan (s : State) (x : WcScan) : State :=
  let d := s.dirEntry x.tensor
  let a := s.scaleRec x.tensor
  let old := (List.range 16).map fun i => w32LE (memRead s.stateMem (a + 4 * i) 4)
  let r := scanEntry d.e5m2 x
  let hist := old.drop 1 ++ [r.1]
  let e0 := s.scaleE x.tensor
  let e := scaleOf d.e5m2 d.margin hist e0
  let s := s.stateWrite 0x2B a (hist.flatMap bytes32 ++ [BitVec.ofInt 8 e])
  if r.2 then
    s.event 0x2B 0x0604 0 [i4 x.tensor, i8 s.jq.step.toNat, i1 (e0 % 256).toNat, i1 (e % 256).toNat]
  else s

/-- A commit pulse's part: the exponents the active bank's copies were stored with, then every completed scan (R223). -/
def State.pushScans (s : State) : State :=
  let exps := (List.range s.img.catalogue.length).map fun t => (t, s.scaleE t)
  let done := s.ju.scans.filter WcScan.complete
  let s := done.foldl State.pushScan s
  { s with ju := { s.ju with wcExp := exps, scans := [] } }

/-- The working copy of one tensor written from its master in the active bank with the e in force (R221, R232). -/
def State.rewriteWc (s : State) (tensor : Nat) (c : CatEntry) : State :=
  let d := s.dirEntry tensor
  let e := s.scaleE tensor
  ((List.range c.chunkCount).map (c.chunkMap + ·)).foldl (fun s i =>
    match s.chunk i with
    | none => s
    | some ce =>
      if ce.owner ≠ s.me then s
      else
        let f0 := 32 * ce.group0
        let n := 32 * ce.rangeGroups
        let w := (List.range n).map fun k => w32LE (memRead s.stateMem (s.stateAddr d.wBase s.bank + 4 * (f0 + k)) 4)
        if c.cls = 2 then
          (s.hostWrite ce.tile (s.hostAddr (d.wcBase + 2 * f0) s.bank) (w.flatMap fun v => bytes16 (bf16Rne v))).nonFiniteIf
            (w.any fun v => bf16NonFinite (bf16Rne v)) .tiles
        else
          (s.hostWrite ce.tile (s.hostAddr (d.wcBase + f0) s.bank) (w.map fun v => fp8Of d.e5m2 (f32Mul v (f32Pow2 e)))).nonFiniteIf
            (w.any f32NonFinite) .tiles) s

/-- Every working copy from its master; the lean profile has none of its own (R208, R221). -/
def State.rewriteWcs (s : State) : State :=
  let s := if s.decl.lean then s else s.img.catalogue.zipIdx.foldl (fun s p => s.rewriteWc p.2 p.1) s
  { s with ju := { s.ju with wcExp := (List.range s.img.catalogue.length).map fun t => (t, s.scaleE t) } }

/-! ### Tiles that retire or join (R359, R360) -/

/-- The lowest-numbered spare tile. -/
def TileMapBlock.spare (t : TileMapBlock) : Option Nat := t.phys.findIdx? fun x => x == 1

/-- The logical tile that a physical tile serves. -/
def TileMapBlock.logical (t : TileMapBlock) (p : Nat) : Option Nat :=
  if t.phys.getD p 0 = 0 then t.map.findIdx? fun x => x.toNat == p else none

def TileMapBlock.setPhys (t : TileMapBlock) (p : Nat) (v : BitVec 2) : TileMapBlock :=
  { t with phys := modifyNth (fun _ => v) p t.phys }

def TileMapBlock.retire (t : TileMapBlock) (p : Nat) : TileMapBlock :=
  match t.logical p with
  | none => t.setPhys p 3
  | some l =>
    match t.spare with
    | none => t
    | some q => { ((t.setPhys p 3).setPhys q 0) with map := modifyNth (fun _ => BitVec.ofNat 6 q) l t.map }

def TileMapBlock.admitTile (t : TileMapBlock) (p : Nat) : TileMapBlock :=
  if t.phys.getD p 0 = 0 then t else t.setPhys p 1

/-- Retire tiles and take tiles back by bit map: tiles out of service first, so that no logical tile moves to a tile that retires with its
own (R359). -/
def TileMapBlock.change (t : TileMapBlock) (retire admitTile : BitVec 48) : TileMapBlock :=
  let out := (List.range 48).filter fun p => retire.getLsbD p && t.phys.getD p 0 != 0
  let inn := (List.range 48).filter fun p => retire.getLsbD p && t.phys.getD p 0 == 0
  let t := (out ++ inn).foldl (fun t p => t.retire p) t
  let t := (List.range 48).foldl (fun t p => if admitTile.getLsbD p then t.admitTile p else t) t
  { t with tested := t.tested &&& ~~~retire }

/-- Apply retirements and admissions; a remap resets the window's CORR (R385). -/
def State.changeTiles (s : State) (retire admitTile : BitVec 48) : State :=
  let old := s.jg.tiles.map
  let t := s.jg.tiles.change retire admitTile
  let wins := s.jt.wins.mapIdx fun l w => if t.map.getD l 0 == old.getD l 0 then w else { w with ecc := 0 }
  { s with jg := { s.jg with tiles := t }, jt := { s.jt with wins := wins } }

/-- The table epoch advances (R36). -/
def State.advanceEpoch (s : State) : State :=
  match s.live.staged with
  | none => s
  | some st =>
    let e := s.jg.epoch
    let s := { s with live := ⟨s.live.cur, { st with tileAdmit := 0, tileRetire := 0 }, none⟩,
                      jg := { s.jg with epoch := { e with current := e.current + 1, previous := e.current, staged := false,
                                                          advances := e.advances + 1 } } }
    s.changeTiles st.tileRetire st.tileAdmit

/-! ### Phases (R21, R401) -/

/-- A phase becomes active: a new activation with its count at 0. -/
def State.activate (s : State) (code : Nat) : State :=
  let s := s.setPhase code true
  { s with jq := { s.jq with acts := s.jq.acts ++ [Activation.mk s.jq.nextAct code 0 []], nextAct := s.jq.nextAct + 1 } }

/-- Nothing is left to issue (R38). -/
def State.dropEntries (s : State) : State :=
  { s with jq := { s.jq with acts := [], held := [], carried := [], phases := 0, gatesWaiting := 0 } }

/-- INTAKE becomes active: one attempt of a step begins (R21, R76, R212, R227). -/
def State.beginIntake (s : State) : State :=
  let tiles : List TileSt := s.tiles.map fun t => { t with inv := none, saved := none }
  let s := { s with ji := { s.ji with grads := [], kept := [], lost := [], maskMiss := [] },
                    jx := { s.jx with consumed := [], added := [], withheld := [], expired := [], hold := [], carries := [],
                                              stage := s.jx.stage.filter fun b => b.pool != Pool.hold },
                    ju := { s.ju with acc := ⟨0, 0, 0⟩, norms := [], passed := [], sections := [], ready := [], areas := [] },
                    jq := { s.jq with lap1Done := false }, tiles := tiles }
  s.activate 0

/-! ### The verdict contribution (R24, R65, R214) -/

/-- Send this member's contribution; FAULT and INCOMPLETE set later count towards the next verdict. -/
def State.sendVerdict (s : State) (veto : Bool) : State :=
  let s := s.setVerdict fun v => { v with veto := veto }
  let o := s.verdictWord
  let a := s.voteWord
  let s := s.setVerdict fun v => { v with pending := false, sent := true, sentAt := s.jq.slot, orSent := o, andSent := a,
                                          incomplete := false, fault := false }
  match s.gzSpec s.live.cur 0, s.gzSpec s.live.cur 1 with
  | some g, some h => (s.gzSetOwn 1 h [GzElem.ofNat a.toNat]).gzSetOwn 0 g [GzElem.ofNat o.toNat]
  | _, _ => s

/-- The verdict word's NONFINITE bit is formed and both reductions start; the contribution may have to wait. -/
def State.formVerdict (s : State) : State :=
  let nf := s.jg.nf.now &&& 31 != 0
  let s := s.clearNonFinite.setVerdict fun v => { v with formed := true, nf := nf }
  (s.gzStart 1 true).gzStart 0 true

/-- The verdict-send entry's work on entering VERDICT. -/
def State.verdictEntry (s : State) : State :=
  let v := s.jq.verdict
  if !s.phase 2 || !v.sendIssued || v.formed || s.silent then s
  else
    let s := s.formVerdict
    if s.ju.gateEn then s.setVerdict fun v => { v with pending := true, gateStep := s.jq.step.setWidth 24 }
    else s.sendVerdict false

def execVerdictEntry (s : State) : Host.Outcome State Fault Refusal := run State.verdictEntry s

/-- A write to `JU_COMMIT_GATE` (R214). -/
def State.wrCommitGate (s : State) (port : Mgmt) (v : W32) : State :=
  s.guarded port 0x060000 fun s =>
    let en := v.getLsbD 0
    let answer := v.getLsbD 1 || v.getLsbD 2
    s.rwl port 0x060000 (en != s.ju.gateEn) (!answer || s.jq.verdict.pending) fun s =>
      let s := { s with ju := { s.ju with gateEn := en } }
      if answer then s.sendVerdict (v.getLsbD 2) else s

def execCommitApprove (port : Mgmt) (value : W32) (s : State) : Host.Outcome State Fault Refusal :=
  run (fun s => if value.getLsbD 1 && !value.getLsbD 2 then s.wrCommitGate port value else s) s

def execCommitVeto (port : Mgmt) (value : W32) (s : State) : Host.Outcome State Fault Refusal :=
  run (fun s => if value.getLsbD 2 then s.wrCommitGate port value else s) s

/-- The verdict root's timer ends: the sweep closes with what has arrived (R25, R156). -/
def State.verdictTimeout (s : State) : State :=
  let v := s.jq.verdict
  if s.decl.verdictRoot ≠ s.me || !s.phase 2 || v.decision.isSome || s.silent || (s.jq.slot - v.enteredAt).toNat < s.jq.vTimeout.toNat
  then s
  else
    let s := if v.formed then s else s.formVerdict
    (s.gzExpire 1).gzExpire 0

def execVerdictTimeout (s : State) : Host.Outcome State Fault Refusal := run State.verdictTimeout s

/-- No decision within twice the timeout: EV_VERDICT_LOST, and a member without a local cause halts (R26, R364). -/
def State.verdictLost (s : State) : State :=
  let v := s.jq.verdict
  if !v.sent || v.decision.isSome || s.silent || (s.jq.slot - v.sentAt).toNat < 2 * s.jq.vTimeout.toNat then s
  else
    let s := s.event 0x3F 0x0103 2 [i8 v.sentAt.toNat, i8 v.orSent.toNat, i8 v.andSent.toNat]
    { s with jg := { s.jg with member := { s.jg.member with state := 1, cause := 8 } } }

def execVerdictLostTimeout (s : State) : Host.Outcome State Fault Refusal := run State.verdictLost s

/-! ### Copies (R229–R233) -/

/-- The chunks of a tensor that this member owns. -/
def State.ownedChunks (s : State) (c : CatEntry) : List ChunkEntry :=
  ((List.range c.chunkCount).map (c.chunkMap + ·)).filterMap s.chunk |>.filter fun e => e.owner == s.me

/-- Where the master or weight, M1 and M2 of a chunk lie in a bank: in host memory or not, address, length. -/
def State.chunkAreas (s : State) (tensor bank : Nat) (e : ChunkEntry) : List (Bool × Nat × Nat) :=
  let d := s.dirEntry tensor
  let f0 := 32 * e.group0
  let n := 32 * e.rangeGroups
  [if s.decl.lean then (true, s.hostAddr (d.wBase + 2 * f0) bank, 2 * n) else (false, s.stateAddr (d.wBase + 4 * f0) bank, 4 * n),
   (false, s.stateAddr (d.m1Base + 34 * e.group0) bank, 34 * e.rangeGroups),
   (false, s.stateAddr (d.m2Base + 34 * e.group0) bank, 34 * e.rangeGroups)]

/-- The areas of a copy, in stream order: per tensor its chunks and its scale-table record (R231; notes/assumptions/38.md). -/
def State.copyAreas (s : State) (bank : Nat) : List (Bool × Nat × Nat) :=
  s.img.catalogue.zipIdx.flatMap fun p =>
    (s.ownedChunks p.1).flatMap (s.chunkAreas p.2 bank) ++ [(false, s.scaleRec p.2, 72)]

/-- The residual areas. -/
def State.resAreas (s : State) : List (Bool × Nat × Nat) :=
  s.img.catalogue.map fun c => (false, c.resBase, c.resBytes * c.elems)

def State.readAreas (s : State) (l : List (Bool × Nat × Nat)) : List Byte :=
  l.flatMap fun a => memRead (if a.1 then s.hostMem else s.stateMem) a.2.1 a.2.2

/-- The factors of the blocks this member owns, in stream order (R169, R231). -/
def State.factAreas (s : State) : List (Bool × Nat × Nat) :=
  s.img.catalogue.zipIdx.flatMap fun p =>
    ((List.range p.1.blocks).filter fun b => s.ownsBlock p.2 p.1 b).flatMap fun b =>
      [Side.L, Side.R].map fun side => (false, s.factAddr p.2 p.1 b side, p.1.factBytes)

/-- Bytes of the factor region: L and R of every block. -/
def State.factRegion (s : State) : Nat := (s.img.catalogue.map fun c => c.blocks * (2 * c.factBytes)).foldl (· + ·) 0

/-- The header of a copy of the last committed step (R230). -/
def State.copyHeader (s : State) (step : StepNo) (ext : Bool) : CopyHdr :=
  { src := BitVec.ofNat 16 s.me, step := step, lean := s.decl.lean, dW := s.ju.digest.w, dM1 := s.ju.digest.m1,
    dM2 := s.ju.digest.m2, ext := ext }

/-- The 64 bytes of a copy's header (R230; the places of its fields: notes/assumptions/38.md). -/
def copyHdrBytes (h : CopyHdr) : List Byte :=
  bytesLE 2 h.src.toNat ++ [if h.lean then 1 else 0, if h.ext then 1 else 0, 0, 0, 0, 0] ++ bytesLE 8 h.step.toNat ++ bytes64 h.dW ++
    bytes64 h.dM1 ++ bytes64 h.dM2 ++ List.replicate 24 0

/-- A state copy leaves by a port on VC3: its header, data and trailer, in pieces that each fill one staging buffer at most and
take one credit (R131, R133, R229, R253; notes/assumptions/38.md). -/
def State.passCopy (s : State) (p : Nat) (h : CopyHdr) (data : List Byte) (crc : W64) : State :=
  (groupsOf 65600 (copyHdrBytes h ++ data ++ bytes64 crc)).foldl (fun s b => s.queueItem p 3 b) (s.emit (.copy p h data crc))

/-- A state copy of this member's own goes out, with its CRC-64 as the trailer (R229, R230). -/
def State.sendCopy (s : State) (p : Nat) (h : CopyHdr) (data : List Byte) : State := s.passCopy p h data (crc64 data)

/-- The pieces of copies that a port has delivered on VC3 are taken into the copy's area, and their buffers are free (R132). -/
def State.takePieces (s : State) : State :=
  (List.range 8).foldl (fun s p =>
    let n := ((s.port p).rx.items.filter fun i => i.1 == 3).length
    let s := s.setPort p fun q => { q with rx := { q.rx with items := q.rx.items.filter fun i => i.1 != 3 } }
    (List.range n).foldl (fun s _ => s.grantCredit p 3) s) s

/-- The port a copy for a member leaves by: dimension order (R130), the other direction where the first hop's port is not
usable (R365). -/
def State.copyPort (s : State) (m : Nat) : Nat :=
  match permDir s.decl.torus s.decl.coord (s.coordOf m) with
  | none => 0
  | some (a, minus) =>
    let p := axisPort a minus
    if s.portLive p then p else axisPort a (!minus)

/-- A checkpoint starts after the pulse of its step; where replicas exist it waits for the comparison of the step (R229, R231). -/
def State.startCopy (s : State) (step : StepNo) : State :=
  let ext := s.decl.buddyExt
  { s with ju := { s.ju with outSt := if s.decl.replicaDomain.isNone then 1 else 0,
                             ownCopy := some ⟨step, !ext, false, if ext then s.readAreas s.resAreas else []⟩ } }

/-- Is a checkpoint of this step to be taken (R229)? Where replicas exist, a comparison of the step must be under way. -/
def State.copyDue (s : State) (step : StepNo) : Bool :=
  s.ju.period != 0 && step.toNat % s.ju.period.toNat == 0 &&
    (s.decl.replicaDomain.isNone || s.ju.rep.cmp == some step)

/-- The copy streams once what it carries has been captured: with BUDDY_EXT, when INTAKE has read every residual and the
merges of the step are done (R231). -/
def State.copyProgress (s : State) : State :=
  match s.ju.ownCopy with
  | none => s
  | some o =>
    let o := if o.captured || s.phase 0 then o else { o with captured := true }
    let s := { s with ju := { s.ju with ownCopy := some o } }
    if s.ju.outSt ≠ 1 || !o.captured || (s.decl.buddyExt && s.jk.merges.any fun m => m.step == o.step) then s
    else
      let ext := s.decl.buddyExt
      let data := s.readAreas (s.copyAreas s.bank) ++ (if ext then o.resid ++ s.readAreas s.factAreas else [])
      let s := s.sendCopy (s.copyPort s.decl.buddy) (s.copyHeader o.step ext) data
      { s with ju := { s.ju with outSt := 2 } }

/-- The buddy has acknowledged every byte of the copy (R229). -/
def State.copyComplete (s : State) : State :=
  if s.ju.outSt ≠ 2 then s else { s with ju := { s.ju with outSt := 0, ownCopy := none } }

def execBuddyCopyComplete (s : State) : Host.Outcome State Fault Refusal := run State.copyComplete s

/-- A skip cuts an unfinished residual capture short (R231). -/
def State.copyCut (s : State) : State :=
  match s.ju.ownCopy with
  | some o =>
    if o.captured then s
    else
      ({ s with ju := { s.ju with outSt := 0, ownCopy := none, fails := stick s.ju.fails 1 } }).event 0x31 0x0603 1
        [i2 s.me, i8 o.step.toNat, i1 2]
  | none => s

/-- The copy held for its source is replaced; `JU_BUDDY_STAT` shows the copy that changed last (notes/assumptions/23.md). -/
def State.holdCopy (s : State) (c : HeldCopy) : State :=
  { s with ju := { s.ju with inSt := c.st, inStep := c.hdr.step.setWidth 32,
                             heldCopies := c :: s.ju.heldCopies.filter fun x => x.hdr.src != c.hdr.src } }

/-- A header arrives: the copy held for its source is WRITING, and those of other members stay (R230). -/
def State.headerIn (s : State) (h : CopyHdr) : State := s.takePieces.holdCopy ⟨h, [], 1⟩

def execBuddyHeaderReceive (hdr : CopyHdr) (s : State) : Host.Outcome State Fault Refusal :=
  run (fun s => if s.inReset then s else s.headerIn hdr) s

/-- The trailer arrives: VALID when its CRC matches, else FAILED (R230). -/
def State.trailerIn (s : State) (src : W16) (data : List Byte) (crc : W64) : State :=
  match s.ju.heldCopies.find? fun c => c.hdr.src == src && c.st == 1 with
  | none => s
  | some c =>
    let s := s.takePieces
    if crc64 data = crc then s.holdCopy ⟨c.hdr, data, 2⟩
    else
      let s := s.holdCopy ⟨c.hdr, [], 3⟩
      ({ s with ju := { s.ju with fails := stick s.ju.fails 1 } }).event 0x31 0x0603 1 [i2 src.toNat, i8 c.hdr.step.toNat, i1 1]

def execBuddyTrailerReceive (src : W16) (data : List Byte) (crc : W64) (s : State) : Host.Outcome State Fault Refusal :=
  run (fun s => s.trailerIn src data crc) s

/-- The state-copy gate (R229): the buddy has acknowledged, every export is over, every scan of the step is complete: also of a CARRY_MASK
gather that runs and has not brought a chunk yet. -/
def State.copyGate (s : State) : Bool :=
  s.ju.outSt == 0 && s.ju.ownCopy.isNone && s.je.exports.all Export.done && s.ju.scans.all WcScan.complete &&
    s.jx.gathers.all fun r =>
      r.flagged || r.step != s.jq.step - 1 || !((s.img.gathers[r.gather]?).map GatherEntry.carryMask).getD false

/-! ### Starting points (R90, R138, R146, R403) -/

/-- A port's VC0 to VC2 emptied: nothing queued, nothing in reassembly, nothing delivered and not taken. -/
def PeerPort.emptied (q : PeerPort) : PeerPort :=
  { q with tx := { q.tx with queues := q.tx.queues.mapIdx fun v l => if v < 3 then [] else l },
           rx := { q.rx with asm := q.rx.asm.mapIdx fun v a => if v < 3 then { a with isOpen := false, bytes := [] } else a,
                             items := q.rx.items.filter fun i => i.1 == 3 } }

/-- Every port emptied, and the receive buffers of VC1 and VC2 that this frees granted again (R132, R138). -/
def State.emptyPorts (s : State) : State :=
  (List.range 8).foldl (fun s p =>
    let r := (s.port p).rx
    let vcs := (r.items.map Prod.fst) ++ (r.asm.zipIdx.filter fun a => a.1.isOpen).map Prod.snd
    let s := s.setPort p PeerPort.emptied
    (vcs.filter fun v => v == 1 || v == 2).foldl (fun s v => s.grantCredit p v) s) s

/-- What waits for an entry, a start or an epoch that a draining block no longer reaches is given up, and its buffers are free
(R38, R138; notes/assumptions/18.md). -/
def State.dropWaiting (s : State) : State :=
  let s := (s.jx.rx ++ s.jx.early).foldl State.freeChunk s
  { s with jx := { s.jx with rx := [], early := [] }, jz := { s.jz with held := [], early := [] } }

/-- Staging emptied and every SEQ and run count back to 0 (R138, R146). -/
def State.resetSeq (s : State) : State :=
  let s := s.dropWaiting.emptyPorts
  let s := { s with ju := { s.ju with rep := { s.ju.rep with cmp := none, minRes := none, maxRes := none } } }.copyJudged false
  ({ s with jx := { s.jx with seqTx := [], seqRx := [], rx := [], early := [], late := [], ownNow := 0,
                              upNow := List.replicate 6 0, carries := [], hold := [], stage := [],
                              gathers := s.jx.gathers.filter GatherRun.flagged, xfers := s.jx.xfers.filter XferRun.flagged } }).gzReset

/-- A mask restart: the next step runs on stride masks, and so does the one after it (R90). The curves that govern the steps near
the present one stay (R85). -/
def State.maskRestart (s : State) : State :=
  { s with ji := { s.ji with built := [] }, jq := { s.jq with restart := s.jq.step } }

/-- A schedule load or a restore starts from the curves now in force for every step near its own (R85; notes/assumptions/33.md). -/
def State.densRestart (s : State) : State :=
  { s with ji := { s.ji with dens := List.replicate 4 s.live.cur.density } }

/-- The state tier's unbanked regions as a schedule load leaves them (R403). -/
def State.loadUnbanked (s : State) : State :=
  let d := s.decl
  let cat := s.img.catalogue
  let n := cat.length
  let mem := cat.foldl (fun m c => memClear m c.resBase (c.resBytes * c.elems)) s.stateMem
  let mem := cat.foldl (fun m c =>
    let rows := (c.groups + c.rowGroups - 1) / c.rowGroups
    memClear m c.maskBase (rows * 4 * maskSlotBytes c.rowGroups)) mem
  let mem := memClear (memClear (memClear mem d.satBase (8 * n)) d.normBase (32 * n)) d.scaleBase (72 * n)
  let mem := memClear (memClear mem d.factBase s.factRegion) d.rootBase (16 * s.allBlocks.length)
  let mem := (List.range n).foldl (fun m t => memWrite m (s.scaleRec t + 64) [BitVec.ofInt 8 (s.dirEntry t).eInit]) mem
  let s := { s with stateMem := mem, jk := { s.jk with merges := [] },
                    jx := { s.jx with gatherCnt := [], gathers := [], xferCnt := [], xfers := [] }, jc := { s.jc with written := [] },
                    ju := { s.ju with heldCopies := [], inSt := 0, inStep := 0, ownCopy := none, outSt := 0, scans := [] } }
  s.clearRoots

/-! ### Cycle 0 of a slot (R13, R21, R32, R374) -/

/-- One EV_SLIP for a run of slips that has ended, and its counter (R32). -/
def State.endSlips (s : State) : State :=
  match s.jq.slipEnd with
  | none => s
  | some r =>
    let s := { s with jq := { s.jq with slipEnd := none, slips := modifyNth (fun c => stick c r.length) (r.cause - 1) s.jq.slips } }
    s.event 0x3F 0x0104 0 ([i1 r.cause, i8 r.first.toNat, i4 r.length] ++ if r.remap then [i1 1] else [])

/-- The running command, if it is the one with this code, has its result (R342, R343). -/
def State.cmdEnds (s : State) (code result : Nat) : State :=
  if s.js.cmd.busy && s.js.cmd.code.toNat == code then
    { s with js := { s.js with cmd := { s.js.cmd with outcome := some (BitVec.ofNat 3 result) } } }
  else s

/-- TWIN_SWAP takes effect (R374): drive ownership moves, if both instances are healthy. -/
def State.swapDrive (s : State) : State :=
  let t := s.jg.twin
  if !t.swapDue then s
  else
    let ok := t.present && t.peerOk && t.fenced.isNone && s.jg.member.state == 0
    let t := { t with swap := false, swapDue := false }
    let t := if ok then { t with driving := !t.driving, failovers := stick t.failovers 1 } else t
    ({ s with jg := { s.jg with twin := t } }).cmdEnds 0x28 (if ok then 0 else 2)

/-- Cycle 0 of the next slot, once: a decision, a vote or a deadline may begin it before SLOT_START does the rest
(notes/assumptions/39.md). COMMIT lasts one slot. -/
def State.nextSlot (s : State) : State :=
  if s.jq.begun then s
  else
    let s := { s with jq := { s.jq with slot := s.jq.slot + 1, begun := true, slipping := s.jq.forceSlip, forceSlip := false },
                      pins := { s.pins with stepDone := false } }
    (s.setPhase 3 false).endSlips.swapDrive

/-! ### The commit pulse and the skip (R27–R29) -/

/-- Cycle 0 of the next slot, with STEP_DONE's effects: the slowest member, the waits, LATE, and the step's saturation counts
(R29, R99, R120, R123). -/
def State.stepDone (s : State) : State :=
  let s := s.nextSlot
  let x := s.jx
  let slow := s.jx.slowNext.getD (x.slowMember, x.slowWait)
  let mem := (List.range s.img.catalogue.length).foldl (fun m t => memClear m (s.decl.satBase + 8 * t) 4) s.stateMem
  { s with pins := { s.pins with stepDone := true }, stateMem := mem,
           ji := { s.ji with satSeen := [] },
           jx := { x with slowMember := slow.1, slowWait := slow.2, slowNext := none, ownLast := x.ownNow, upLast := x.upNow,
                          ownNow := 0, upNow := List.replicate 6 0, late := [] },
           jg := { s.jg with twin := { s.jg.twin with swapDue := s.jg.twin.swap } } }

/-- Drop received lap-1 chunks that no later entry will take, and free their buffers. -/
def State.dropRx (s : State) (keep : RxChunk → Bool) : State :=
  let out := s.jx.rx.filter fun c => !keep c
  out.foldl State.freeChunk { s with jx := { s.jx with rx := s.jx.rx.filter keep } }

/-- After the decision: the next attempt, or the drain that a quiesce asked for (R28, R38). -/
def State.nextAttempt (s : State) (intake : Bool) : State :=
  let v := s.jq.verdict
  let s := { s with jq := { s.jq with verdict := { VerdictBlock.reset with incomplete := v.incomplete && v.sent,
                                                                           fault := v.fault && v.sent } } }
  let s := (s.setPhase 2 false).setPhase 1 false
  if s.jq.quiesceReq then
    let s := s.dropEntries.dropWaiting
    { s with jq := { s.jq with quiesceReq := false, draining := true } }
  else
    let s := s.activate 3
    if intake then s.beginIntake else s

/-- The replica comparison of a step starts after its pulse (R228). -/
def State.startReplica (s : State) (step : StepNo) : State :=
  if s.decl.replicaDomain.isNone || s.ju.digestPeriod == 0 || step.toNat % s.ju.digestPeriod.toNat != 0 then s
  else
    let s := { s with ju := { s.ju with rep := { s.ju.rep with cmp := some step, own := s.ju.digest, minRes := none, maxRes := none } } }
    (s.gzStart 9 false).gzStart 10 false

/-- The pulse's digests go to the twin (R371). -/
def State.twinDigests (s : State) : State :=
  if !s.jg.twin.present then s
  else
    let d := s.ju.digest
    s.twinSend (.digests d.w d.m1 d.m2) (.digests d.w d.m1 d.m2)

/-- What the pulse changes in the block as a whole: bank, step, epochs, coefficients, queues (R27). -/
def State.pulse (s : State) (andWord : W64) : State :=
  let t := s.jq.step
  let prevDens := s.live.cur.density
  let s := s.installRoots.pushScans
  let s := { s with ju := { s.ju with digest := s.ju.acc, digestStep := t }, jq := { s.jq with step := t + 1 } }
  let s := if andWord.getLsbD 0 && andWord.getLsbD 1 then s.advanceEpoch else s
  let s := if andWord.getLsbD 2 && !s.jq.gen then
      (({ s with jq := { s.jq with gen := true, serveSlots := 0 } }).setPhase 5 false).activate 6
    else s
  let s := (s.latchCoefs.queueMerges t).queueRefreshes
  let s := { s with ji := { s.ji with dens := s.ji.dens.drop 1 ++ [prevDens], sketches := [],
                                      built := s.ji.built.filter fun m => decide ((m.step - (t + 1)).toNat < 2 ^ 39) } }
  let s := s.dropRx fun c => (chunkHdr c.hdr).step == t + 1
  let s := { s with jx := { s.jx with copyStep := false } }
  s.twinDigests

/-- A clean decision acts at cycle 0 of the slot after it is received (R27). -/
def State.commitPulse (s : State) : State :=
  match s.jq.verdict.decision with
  | none => s
  | some d =>
    if !d.clean || s.silent then s
    else
      let t := s.jq.step
      let s := (s.stepDone.pulse d.andWord).failHeld
      let s := s.nextAttempt (!s.jq.gen)
      let s := if s.jq.draining then s else s.activate 4
      let s := s.retestChunks.retestCells
      let s := s.startReplica t
      let s := if s.copyDue t then { s.startCopy t with jx := { s.jx with copyStep := true } } else s
      if s.je.exports.all Export.done then s else { s with jx := { s.jx with copyStep := true } }

def execCommitPulse (s : State) : Host.Outcome State Fault Refusal := run State.commitPulse s

/-- A skip: bank, counters, epochs, variant and coefficients stay, and INTAKE starts for the same step (R28, R212). -/
def State.skipDecision (s : State) : State :=
  match s.jq.verdict.decision with
  | none => s
  | some d =>
    if d.clean || s.silent then s
    else
      let t := s.jq.step
      let s := s.stepDone.copyCut
      let added := s.jx.added
      let s := { s with ji := { s.ji with built := s.ji.built.filter fun m => m.step != t + 2, sketches := [] } }
      let s := s.dropRx fun c => let h := chunkHdr c.hdr; added.contains (h.chunk, h.axis)
      s.nextAttempt true

def execSkipDecision (s : State) : Host.Outcome State Fault Refusal := run State.skipDecision s

/-- The switch back to LEARN at cycle 0 of the slot after the BOUNDARY result (R30); a result that asks for GEN still ends the
vote. -/
def State.boundarySwitch (s : State) : State :=
  match s.jq.boundaryResult with
  | none => s
  | some w =>
    let s := s.nextSlot
    let s := ({ s with jq := { s.jq with boundaryResult := none, boundarySent := false } }).setPhase 7 false
    if w.getLsbD 2 || !s.jq.gen then s
    else
      let s := ({ s with jq := { s.jq with gen := false } }).setPhase 6 false
      let s := if s.jq.acts.any fun a => a.phase == 5 then s.setPhase 5 true else s.activate 5
      s.beginIntake

def execBoundarySwitch (s : State) : Host.Outcome State Fault Refusal := run State.boundarySwitch s

/-! ### Restore (R232) -/

/-- Cut a stream into areas and write them. -/
def State.writeAreas (s : State) (data : List Byte) : List (Bool × Nat × Nat) → State × List Byte
  | [] => (s, data)
  | a :: rest =>
    let b := data.take a.2.2
    let s := if a.1 then s.hostWrite 0x31 a.2.1 b else s.stateWrite 0x31 a.2.1 b
    s.writeAreas (data.drop a.2.2) rest

/-- A restore to checkpoint c (R232). -/
def State.restore (s : State) (h : CopyHdr) (data : List Byte) : State :=
  let step := h.step + 1
  let r := s.writeAreas data (s.copyAreas (step.toNat % 2))
  let s := { r.1 with jq := { r.1.jq with step := step } }
  let s := s.rewriteWcs
  let s := if h.ext then
      (s.writeAreas r.2 (s.resAreas ++ s.factAreas)).1
    else
      let mem := s.img.catalogue.foldl (fun m c => memClear m c.resBase (c.resBytes * c.elems)) s.stateMem
      { s with stateMem := memClear mem s.decl.factBase s.factRegion }
  let s := { s with jk := { s.jk with merges := [] }, ju := { s.ju with scans := [], outSt := 0, ownCopy := none },
                    ji := { s.ji with sketches := [] } }
  s.clearRoots.resetSeq.maskRestart.densRestart.latchCoefs

end Sys2Proof.Machine
end

