-- ==== Sys2Proof/Machine/Power.lean ====
section
/-!
DEFINITION. The ramp governor (spec/16_integration_power_and_clocking.md R395–R399, spec/15 R384) and the meaning of INRUSH_DONE.
-/

namespace Sys2Proof.Machine

/-- I_g of a power group in ampere; group 15 holds half a band of tiles in J2-44 and none in J2-40 (R395). -/
def groupAmps (grade g : Nat) : Nat :=
  if g = 1 then 19
  else if g < 10 then 10
  else if g = 15 then (if grade = 0 then 0 else if grade = 1 then 6 else 12)
  else 12

/-- Whole levels of a group that fit into what is left of the budget; amounts are ampere × kHz × 16 (R396). -/
def levelsFit (amps jclkKHz left want : Nat) : Nat := if amps = 0 then want else min want (left / (amps * jclkKHz))

/-- Rises, or falls, in ascending group number: entries are group, level and target; the result is the new levels. -/
def rampPass (rise : Bool) (grade jclkKHz : Nat) : Nat → List (Nat × Nat × Nat) → List Nat
  | _, [] => []
  | left, (g, lev, tgt) :: rest =>
    let want := if rise then tgt - lev else lev - tgt
    let n := levelsFit (groupAmps grade g) jclkKHz left want
    (if rise then lev + n else lev - n) :: rampPass rise grade jclkKHz (left - n * groupAmps grade g * jclkKHz) rest

/-- Levels at the next cycle 0: a group moves one way only, so rises and falls can be granted one after the other. -/
def rampLevels (grade jclkKHz budget : Nat) (levels targets : List Nat) : List Nat :=
  let lim := 16 * budget * 1536000
  let up := rampPass true grade jclkKHz lim (((List.range 15).map (· + 1)).zip (levels.zip targets))
  rampPass false grade jclkKHz lim (((List.range 15).map (· + 1)).zip (up.zip targets))

/-- The level of a power group; group 0 is at 16 from the end of inrush (R395). -/
def State.level (s : State) (g : Nat) : Nat := if g = 0 then (if s.jp.inrushDone then 16 else 0) else s.jp.levels.getD (g - 1) 0

/-- The power groups an entry's unit needs (R395). -/
def State.powerGroups (s : State) (unit : Nat) : List Nat :=
  if unit < 40 then [10 + (s.jg.tiles.map.getD unit 0).toNat / 8]
  else if unit = 0x28 then [2, 3, 4, 5]
  else if unit = 0x29 then [6, 7, 8, 9]
  else if unit = 0x2B then [1]
  else [0]

/-- A phase control entry sets a group's target (R396). -/
def State.setTarget (s : State) (g : Nat) (up : Bool) : State :=
  if g = 0 ∨ g > 15 then s
  else
    { s with jp := { s.jp with targets := modifyNth (fun _ => if up then 16 else 0) (g - 1) s.jp.targets,
                               setAt := modifyNth (fun _ => s.jq.slot.toNat) (g - 1) s.jp.setAt } }

/-- At quiesce every target becomes 0. -/
def State.targetsDown (s : State) : State :=
  { s with jp := { s.jp with targets := List.replicate 15 0, setAt := List.replicate 15 s.jq.slot.toNat } }

/-- Levels change at cycle 0; a rise that reaches its target more than one slot after the target was set counts in WAKES, and
an entry held by a group that is now at 16 goes on (R396, R397). -/
def State.rampStep (s : State) : State :=
  let old := s.jp.levels
  let new := rampLevels s.decl.grade s.decl.jclkKHz s.jp.budget.toNat old s.jp.targets
  let late := (List.range 15).filter fun i =>
    decide (old.getD i 0 < new.getD i 0) && new.getD i 0 == s.jp.targets.getD i 0 && decide (s.jp.setAt.getD i 0 + 1 < s.jq.slot.toNat)
  { s with jp := { s.jp with levels := new, wakes := stick s.jp.wakes late.length,
                             holding := s.jp.holding.filter fun g => new.getD (g - 1) 16 != 16 } }

/-- An entry issued to a unit whose group is below level 16 holds the slot (R397). -/
def State.rampHold (s : State) (unit : Nat) : State :=
  let low := (s.powerGroups unit).filter fun g => g != 0 && s.level g != 16 && !s.jp.holding.contains g
  { s with jp := { s.jp with holding := s.jp.holding ++ low } }

/-- Groups with work in this slot: those of the units issued to, and of tiles that run an invocation. -/
def State.busyGroups (s : State) (units : List Nat) : List Nat :=
  let tiles := (List.range 40).filter fun t => (s.tile t).inv.isSome
  (units ++ tiles).flatMap s.powerGroups

/-- Ballast in this slot (R398): certain in a group above level 0 without work; how many cycles work uses is not given, so
beside work it is a free value (notes/assumptions/5.md). -/
def State.ballastStep (s : State) (units : List Nat) : State :=
  let awake := (List.range 15).map (· + 1) |>.filter fun g => 0 < s.level g
  let busy := s.busyGroups units
  let sure := awake.any fun g => !busy.contains g
  let s := if sure || awake.isEmpty then { s with jp := { s.jp with ballast := sure } }
    else
      let d := s.draw
      { d.2 with jp := { d.2.jp with ballast := (Config.openByte d.1).getLsbD 0 } }
  if s.jp.ballast then { s with jp := { s.jp with ballastSlots := stick s.jp.ballastSlots 1 } } else s

/-- `JP_STAT.AWAKE`: the groups at level 16. -/
def State.awake (s : State) : BitVec 16 :=
  (List.range 16).foldl (fun (a : BitVec 16) g => if s.level g = 16 then a ||| BitVec.ofNat 16 (2 ^ g) else a) 0

/-- A write to `JP_SLEW` (R384). -/
def State.wrJpSlew (s : State) (port : Mgmt) (v : W32) : State :=
  let b := v.extractLsb' 0 6
  s.guarded port 0x100000 fun s =>
    s.rwl port 0x100000 (b != s.jp.budget) (decide (2 ≤ b.toNat) && decide (b.toNat ≤ 32)) fun s =>
      { s with jp := { s.jp with budget := b } }

/-- Power-up inrush sequencing ends 2.0 ms after release, and the Duiker starts (R399). If JWRST_N is low the boot starts when
it rises (R392). -/
def State.inrushEnds (s : State) : State :=
  if s.js.boot.jporLow || s.jp.inrushDone then s
  else
    let s := { s with jp := { s.jp with inrushDone := true } }
    if s.js.boot.jwrstLow then s else { s with js := { s.js with boot := { s.js.boot with state := 1, inrush := false } } }

def execInrushDone (s : State) : Host.Outcome State Fault Refusal := run State.inrushEnds s

end Sys2Proof.Machine
end

