-- ==== Sys2Proof/Machine/Resilience.lean ====
section
/-!
DEFINITION. Tile failure and remap, member failure of units, the Twin, and restore traffic
(spec/14_resilience_and_live_service.md R353–R374), and the meanings of their commands.
-/

namespace Sys2Proof.Machine

/-! ### Tile failure (R354–R357) -/

/-- The chunks whose logical tile is t. -/
def State.tileChunks (s : State) (t : Nat) : List Nat :=
  s.img.chunks.zipIdx.filterMap fun p => if p.1.tile = t then some p.2 else none

/-- Has this member's contribution to a chunk gone into a sent chunk, a carry or a sum? -/
def State.contributed (s : State) (i : Nat) : Bool := s.jx.added.any fun p => p.1 == i

/-- Groups of chunk i are marked not received; once INTAKE is over they take g = +0.0 at once (R78, R357). -/
def State.unmarkChunk (s : State) (i : Nat) : State × Nat :=
  match s.chunk i, s.cat (s.chunkTensor i) with
  | some e, some c =>
    let tensor := s.chunkTensor i
    let lost := s.ji.grads.filter fun g => g.tensor == tensor && decide (e.group0 ≤ g.group) && decide (g.group < e.group0 + e.rangeGroups)
    let s := { s with ji := { s.ji with grads := s.ji.grads.filter fun g => !lost.contains g } }
    let s := if s.phase 0 then s else lost.foldl (fun s g => s.storeGroup tensor c g.group (List.replicate 32 0)) s
    (s, lost.length)
  | _, _ => (s, 0)

/-- Contributions not yet encoded into a sent chunk are lost. -/
def State.loseGroups (s : State) (t : Nat) : State × Nat :=
  let add := fun (a : State × Nat) (i : Nat) =>
    let r := a.1.unmarkChunk i
    (r.1, a.2 + r.2)
  ((s.tileChunks t).filter fun i => !s.contributed i).foldl add (s, 0)

/-- Carries held at an axis end are lost: POISON goes on in their place (R357). -/
def State.loseCarries (s : State) (t : Nat) : State × Nat :=
  let mine := fun (f : Folded) => ((s.chunk f.chunk).map ChunkEntry.tile) == some t && !f.poison
  let n := (s.jx.carries.filter mine).length
  let rest : List Folded := s.jx.carries.map fun f => if mine f then Folded.poisoned f.chunk f.axis f.tepoch none else f
  ({ s with jx := { s.jx with carries := rest } }, n)

def sideNum : Side → Nat
  | .L => 0
  | .R => 1

/-- Kept sample rows that are not yet in the sample buffer are lost (R357). -/
def State.loseRows (s : State) (t : Nat) : State × Nat :=
  let mine := fun (k : KeptRow) => match s.cat k.tensor with
    | some c => ((s.blockChunk k.tensor c k.block).map ChunkEntry.tile) == some t
    | none => false
  let rows := ((s.ji.kept.filter mine).map fun k => ((k.tensor * 2 + sideNum k.side) * 65536 + k.block) * 65536 + k.stratum).eraseDups
  ({ s with ji := { s.ji with kept := s.ji.kept.filter fun k => !mine k } }, rows.length)

/-- The tile's invocations start again on the spare (R207): a chunk pass is ready again, a block section is not yet done. -/
def State.rerun (s : State) (t : Nat) : State :=
  let st := s.tile t
  let invs := ((st.inv.map fun i => [i]).getD []) ++ ((st.saved.map fun p => [p.1]).getD [])
  let again := (invs.filter fun i => !i.isSection).map Inv.index
  let s := s.setTile t fun x => { x with inv := none, saved := none, regs := TileRegs.zero, regS := [], regSBlock := [] }
  { s with ju := { s.ju with ready := again ++ s.ju.ready } }

/-- A refresh whose scratchpad reservation was on the tile starts again from R178. -/
def State.rerunRefresh (s : State) (t : Nat) : State :=
  match s.jk.current with
  | none => s
  | some m =>
    match s.cat m.ref.tensor with
    | some c => if ((s.blockChunk m.ref.tensor c m.ref.block).map ChunkEntry.tile) == some t then s.markhorQuiesce else s
    | none => s

/-- KV blocks encoded but not acknowledged are encoded again from intake's copy. -/
def State.rerunBlocks (s : State) (t : Nat) : State :=
  { s with jc := { s.jc with reqs := s.jc.reqs.map fun q => if q.block % 40 = t then { q with issued := false } else q } }

/-- A code-memory check failure faults the running invocation as any program fault does, with cause 4 and ADDR 0 (R203, R204, R354). -/
def State.codeFault (s : State) (t : Nat) : State :=
  match s.tileCtx t with
  | none => s.fault
  | some x => s.progFault x 4 0

/-- A physical tile fails with a cause: it is fenced, what it held is rerun or lost, and its logical tile waits for its remap
in the next slot; without a spare the member fails. -/
def State.tileFails (s : State) (p cause : Nat) : State :=
  let t := s.jg.tiles
  let st := t.phys.getD p 3
  if s.inReset || (st != 0 && st != 1) then s
  else
    let log := t.logical p
    let t := { t.setPhys p 2 with lastPhys := BitVec.ofNat 6 p, lastLog := BitVec.ofNat 6 (log.getD 63),
                                  tested := t.tested &&& ~~~BitVec.ofNat 48 (2 ^ p) }
    let s := { s with jg := { s.jg with tiles := t } }
    match log with
    | none => s.event 0x40 0x0002 1 [i1 cause, i2 p, i2 0xFFFF, i2 0xFFFF, i8 s.jq.step.toNat, i4 0, i4 0, i4 0]
    | some l =>
      let s := if cause = 2 then s.codeFault l else s
      let g := s.loseGroups l
      let c := g.1.loseCarries l
      let r := c.1.loseRows l
      let s := ((r.1.rerun l).rerunRefresh l).rerunBlocks l
      let lost : Nat := c.2 + r.2
      let s := if lost = 0 then s else s.incomplete
      let spare := s.jg.tiles.spare
      let s := s.event 0x40 0x0002 1
        [i1 cause, i2 p, i2 l, i2 (spare.getD 0xFFFF), i8 s.jq.step.toNat, i4 g.2, i4 c.2, i4 r.2]
      if spare.isSome then { s with jg := { s.jg with tiles := { s.jg.tiles with remap := s.jg.tiles.remap ++ [BitVec.ofNat 6 l] } } }
      else s.memberFail 1

def execTileFailure (loss : TileLoss) (s : State) : Host.Outcome State Fault Refusal :=
  runUnit (decide (loss.phys < 48)) (fun s => s.tileFails loss.phys loss.cause.toNat) s

/-- The sequencer watchdog of a tile (cause 3). -/
def execTileWatchdog (phys : Nat) (s : State) : Host.Outcome State Fault Refusal :=
  runUnit (decide (phys < 48)) (fun s => s.tileFails phys 3) s

/-- One logical tile moves to the lowest-numbered spare (R355). -/
def State.remapOne (s : State) (l : Nat) : State :=
  match s.jg.tiles.spare with
  | none => s.memberFail 1
  | some q =>
    let t := s.jg.tiles.setPhys q 0
    ({ s with jg := { s.jg with tiles := { t with map := modifyNth (fun _ => BitVec.ofNat 6 q) l t.map } } }).setWin l fun w =>
      { w with ecc := 0 }

/-- In the slot after a detection (R355). -/
def State.remapTiles (s : State) : State :=
  let ls := s.jg.tiles.remap
  if ls.isEmpty then { s with jq := { s.jq with remapSlot := false } }
  else
    let s := { s with jg := { s.jg with tiles := { s.jg.tiles with remap := [] } }, jq := { s.jq with remapSlot := true } }
    ls.foldl (fun s l => s.remapOne l.toNat) s

/-- The failure of an array, an adder lane or the Gazelle path is a member failure (R353). -/
def execUnitFailure (failed : FailedUnit) (s : State) : Host.Outcome State Fault Refusal :=
  run (fun s => if s.inReset then s else s.memberFail (match failed with | .array => 5 | .adderLane => 6 | .gazelle => 6)) s

/-! ### The Twin (R370–R373) -/

def State.setTwin (s : State) (f : TwinBlock → TwinBlock) : State := { s with jg := { s.jg with twin := f s.jg.twin } }

/-- Does an item carry the value that another item of the same place must equal? -/
def TwinItem.sameAs : TwinItem → TwinItem → Bool
  | .chunk a _, .chunk b _ => a == b
  | .cell a _, .cell b _ => a == b
  | .digests .., .digests .. => true
  | _, _ => false

/-- The number and CRC that EV_TWIN_DIVERGE latches of an item. -/
def TwinItem.shown : TwinItem → Nat × W32
  | .chunk i c => (i, c)
  | .cell r c => (r, c)
  | .digests w _ _ => (0, w.setWidth 32)

/-- Drop the first member that meets a condition. -/
def dropOne {α : Type} (f : α → Bool) : List α → List α
  | [] => []
  | x :: rest => if f x then rest else x :: dropOne f rest

def selfTestBits (t : Option SelfTest) : Nat :=
  match t with
  | some x => b2n x.aPass + 2 * b2n x.bPass
  | none => 0

/-- A divergence in this slot (R372). -/
def State.diverge (s : State) (own other : TwinItem) : State :=
  if s.jg.twin.diverged.isSome then s
  else
    let s := s.setTwin fun t => { t with diverged := some (s.jq.slot, own.shown.1, own.shown.2, other.shown.2) }
    s.event 0x40 0x0004 1
      [i8 s.jq.slot.toNat, i4 own.shown.1, i4 own.shown.2.toNat, i4 other.shown.2.toNat, i1 (selfTestBits s.jg.twin.test)]

/-- Compare what has been sent with what has been heard, pair by pair in order (R371). -/
def State.twinCompare (s : State) (got : TwinItem) : State :=
  match s.jg.twin.sent.find? fun x => x.sameAs got with
  | none => s.setTwin fun t => { t with heard := t.heard ++ [got] }
  | some own =>
    let s := s.setTwin fun t => { t with sent := dropOne (fun x => x.sameAs got) t.sent }
    if own = got then s else s.diverge own got

/-- Pair the items heard before this instance sent its own. -/
def State.twinPairs (s : State) : State :=
  let heard := s.jg.twin.heard
  heard.foldl State.twinCompare (s.setTwin fun t => { t with heard := [] })

/-- The twin counts as failed: ownership moves two slots later without a self-test; when an instance has been fenced already,
both have failed (R371–R373). -/
def State.twinFailed (s : State) : State :=
  let t := s.jg.twin
  if !t.present || !t.peerOk then s
  else
    let s := s.setTwin fun t => { t with peerOk := false }
    if t.fenced.isSome then s.memberFail 7 else s.setTwin fun t => { t with moveIn := some 2 }

/-- A message from the twin over XA and XB. -/
def State.twinIn (s : State) (msg : TwinMsg) : State :=
  if !s.jg.twin.present || s.inReset then s
  else
    match msg with
    | .chunkCrc i c => s.twinCompare (.chunk i c)
    | .cellCrc r c => s.twinCompare (.cell r c)
    | .digests w a b => s.twinCompare (.digests w a b)
    | .memberFailed => s.twinFailed

def execTwinCheckReceive (msg : TwinMsg) (s : State) : Host.Outcome State Fault Refusal := run (fun s => s.twinIn msg) s

/-- Nothing heard on XA and XB for 4 slots (R371). -/
def execTwinSilenceTimeout (s : State) : Host.Outcome State Fault Refusal := run (fun s => if s.inReset then s else s.twinFailed) s

/-- Ethernet queues restart in RESET on an instance that takes over driving (R281, R373). -/
def State.queuesReset (s : State) : State :=
  let s := s.je.queues.foldl (fun s q => (s.exportEnds q.num 6).dropTx q.num) s
  { s with je := { s.je with queues := [], parked := [] } }

/-- An instance is fenced; when it was driving, ownership moves and EV_TWIN_FAILOVER is recorded. The driving instance sets
FAULT (R372). Instances: false = A, true = B. -/
def State.fenceTwin (s : State) (who : Bool) (cause : Nat) : State :=
  let t := s.jg.twin
  let drives := if t.driving then t.self else !t.self
  let moved := drives == who
  let now := t.self != who
  let s := s.setTwin fun t => { t with fenced := some who, driving := now, peerOk := t.peerOk && !now,
                                       failovers := if moved then stick t.failovers 1 else t.failovers }
  let s := if moved then s.event 0x40 0x0005 1 [i1 (b2n who), i1 cause, i8 s.jq.slot.toNat] else s
  let s := if now && !t.driving then s.queuesReset else s
  if now then s.fault else s

/-- The self-test's outcome at cycle 0 of slot d + 2 (R372). -/
def State.selfTestEnds (s : State) (r : SelfTest) : State :=
  match r.aPass, r.bPass with
  | false, true => s.fenceTwin false 1
  | true, false => s.fenceTwin true 1
  | true, true =>
    let s := s.setTwin fun t => { t with diverge := stick t.diverge 1 }
    if s.jg.twin.driving then s.fault else s
  | false, false => (if s.jg.twin.driving then s.fault else s).memberFail 7

/-- The Twin's part of cycle 0: self-test results are exchanged in slot d + 1 and act in slot d + 2; ownership that follows a
failed twin moves 2 slots after its detection. -/
def State.twinSlot (s : State) (st : SelfTest) : State :=
  if !s.jg.twin.present then s
  else
    let s := s.twinPairs
    let s := match s.jg.twin.diverged with
      | none => s
      | some d =>
        if s.jq.slot = d.1 + 1 then s.setTwin fun t => { t with test := some st }
        else if (s.jq.slot - d.1).toNat < 2 then s
        else
          (s.setTwin fun t => { t with diverged := none }).selfTestEnds (s.jg.twin.test.getD st)
    match s.jg.twin.moveIn with
    | none => s
    | some (n + 2) => s.setTwin fun t => { t with moveIn := some (n + 1) }
    | some _ => (s.setTwin fun t => { t with moveIn := none }).fenceTwin (!s.jg.twin.self) 2

/-! ### Restore traffic (R365, R366) -/

/-- The step that arguments 0 and 1 of RESTORE_SEND and ROLLBACK name (R376). -/
def CmdBlock.argStep (c : CmdBlock) : StepNo :=
  BitVec.ofNat 40 ((c.latched.getD 0 0).toNat + (c.latched.getD 1 0).toNat % 256 * 2 ^ 32)

/-- Is a command with this code running and not yet decided? -/
def State.cmdRuns (s : State) (code : Nat) : Bool := s.js.cmd.busy && s.js.cmd.code.toNat == code && s.js.cmd.outcome.isNone

/-- Does a copy on its way to its owner go on from here? Quiesced members forward restore traffic of others (R365); a failed
one serves RESTORE_SEND alone (R363). -/
def State.relaysCopy (s : State) (h : CopyHdr) : Bool := h.src.toNat != s.me && s.jq.quiesced && s.jg.member.state != 2

/-- A copy arrives. One for another member goes on towards it from a quiesced member (R365); a member that runs ROLLBACK for its
step takes its own; any other is discarded and counted (R366). -/
def State.restoreIn (s : State) (h : CopyHdr) (data : List Byte) (crc : W64) : State :=
  if s.inReset then s
  else
    let s := s.takePieces
    if s.relaysCopy h then s.passCopy (s.copyPort h.src.toNat) h data crc
    else if !s.cmdRuns 0x26 || h.step != s.js.cmd.argStep || h.src.toNat != s.me then
      { s with jg := { s.jg with member := { s.jg.member with restoreDiscard := stick s.jg.member.restoreDiscard 1 } } }
    else if crc64 data ≠ crc then s.cmdEnds 0x26 3
    else
      let s := (s.restore h data).cmdEnds 0x26 0
      { s with jg := { s.jg with member := { s.jg.member with restores := stick s.jg.member.restores 1 } },
               js := { s.js with cmd := { s.js.cmd with bytes := data.length } } }

def execRestoreDataReceive (hdr : CopyHdr) (data : List Byte) (crc : W64) (s : State) : Host.Outcome State Fault Refusal :=
  run (fun s => s.restoreIn hdr data crc) s

/-- No acknowledgement of RESTORE_SEND within 10 s (R365). -/
def execRestoreAckTimeout (s : State) : Host.Outcome State Fault Refusal :=
  run (fun s => if s.cmdRuns 0x25 then s.cmdEnds 0x25 7 else s) s

end Sys2Proof.Machine
end

