-- ==== Sys2Proof/Machine/Sequencer.lean ====
section
/-!
DEFINITION. The slot sequencer (spec/01_slots_steps_and_planes.md R13–R22, R30–R33, R38, R39, R401): streams, gates, phases,
deadlines, slips, doorbells, and the meanings of its commands.
-/

namespace Sys2Proof.Machine

/-! ### The schedule (R16, R402) -/

def SchedEntry.deadlineSlots (e : SchedEntry) : Nat := e.deadline * 16 ^ e.dlScale

def State.sched (s : State) : List SchedEntry := s.live.cur.schedule

/-- The work an entry's OP and OPERAND select. -/
def State.work (s : State) (e : SchedEntry) : Work :=
  ((s.live.cur.opEncs.find? fun o => o.unit == e.unit && o.op == e.op && o.operand == e.operand).map OpEnc.work).getD .idle

/-- The entries of one unit in one phase, in the order in which they fall due. DESIGN CHOICE (notes/assumptions/14.md): after an epoch
advance that swaps the schedule, an activation keeps its place in each stream and takes its further entries from the new schedule. -/
def State.stream (s : State) (phase unit : Nat) : List (Nat × SchedEntry) :=
  let mine := (s.sched.zipIdx.filter fun p => p.1.phase == phase && p.1.unit == unit).map fun p => (p.2, p.1)
  sortBy (fun a b => decide (a.2.slotOff < b.2.slotOff)) mine

def State.unitsOf (s : State) (phase : Nat) : List Nat :=
  ((s.sched.filter fun e => e.phase == phase).map SchedEntry.unit).eraseDups

/-! ### Gates (R16, R17, R402) -/

/-- Does an arrival condition hold? -/
def State.arrivalHolds (s : State) (a : Arrival) : Bool :=
  match a with
  | .contribution i axis => s.contribReady i axis
  | .chunkIn i axis => (s.arrived i axis).isSome
  | .intake => !s.phase 0 || s.intakeFull
  | .gatherIn g => s.gatherArrived g
  | .transferIn n => s.xferArrived n

/-- The arrival that a queue id stands for. -/
def State.arrivalOf (s : State) (arg : Nat) : Option Arrival := (s.live.cur.arrivals.find? fun p => p.1 == arg).map Prod.snd

/-- Does the entry's gate condition hold? -/
def State.gateOpen (s : State) (e : SchedEntry) : Bool :=
  match e.gate with
  | 0 => true
  | 1 => memGet s.jq.db e.gateArg != 0
  | 2 =>
    if e.gateArg = 4095 then s.rootsReady
    else if e.gateArg = 4094 then s.copyGate
    else if 3968 ≤ e.gateArg then
      let c := s.chan (e.gateArg - 3968)
      c.complete && !c.busy
    else match s.arrivalOf e.gateArg with
      | some a => s.arrivalHolds a
      | none => false
  | _ =>
    let r := s.gzRun e.gateArg
    r.result && !r.incomplete && !r.taken.contains e

/-- A result with INCOMPLETE makes its gate behave as if it had expired: its TIMEOUT_ACT and EV_GATE_TIMEOUT (R156). -/
def State.gateFailed (s : State) (e : SchedEntry) : Bool :=
  let r := s.gzRun e.gateArg
  e.gate == 3 && r.result && r.incomplete && !r.taken.contains e

/-- EV_GATE_TIMEOUT: unit, entry index, action and slot (R19). -/
def State.gateReport (s : State) (index : Nat) (e : SchedEntry) : State :=
  s.event e.unit 0x0101 0 [i2 e.unit, i4 index, i1 e.act, i8 s.jq.slot.toNat]

/-- In LATE a contribution that is not ready is bypassed at once (R120). -/
def State.lateBypass (s : State) (e : SchedEntry) : Bool :=
  match s.work e with
  | .lap1Add i _ => e.gate == 2 && e.act == 1 && match s.chunk i with
    | some c => s.jx.late.contains c.domain
    | none => false
  | _ => false

/-- INCOMPLETE and FAULT by TIMEOUT_ACT (R16). -/
def State.applyAct (s : State) (act : Nat) : State := if act = 2 then s.incomplete else if act = 3 then s.fault else s

/-! ### Streams (R17, R18) -/

/-- An entry taken for issue: whether its activation is not the newest of its phase, and the TIMEOUT_ACT under which it
goes on (0: its gate holds). -/
structure Due where
  old : Bool
  act : Nat
  unit : Nat
  index : Nat
  how : Nat
  deriving DecidableEq, Repr

def Activation.shift (a : Activation) (unit : Nat) : Shift := (a.shifts.find? fun x => x.unit == unit).getD ⟨unit, 0, 0⟩

def State.findAct (s : State) (id : Nat) : Option Activation := s.jq.acts.find? fun a => a.id == id

def State.setShift (s : State) (id : Nat) (sh : Shift) : State :=
  let acts : List Activation := s.jq.acts.map fun a =>
    if a.id = id then { a with shifts := sh :: a.shifts.filter fun x => x.unit != sh.unit } else a
  { s with jq := { s.jq with acts := acts } }

def State.dropHeld (s : State) (act index : Nat) : State :=
  { s with jq := { s.jq with held := s.jq.held.filter fun h => !(h.act == act && h.index == index) } }

def State.setHeld (s : State) (l : List Held) : State := { s with jq := { s.jq with held := l } }

/-- A doorbell gate that is judged satisfied consumes one count (R20). -/
def State.consumeBell (s : State) (e : SchedEntry) (how : Nat) : State :=
  if e.gate = 1 ∧ how = 0 then
    { s with jq := { s.jq with db := memSet s.jq.db e.gateArg (memGet s.jq.db e.gateArg - 1) } }
  else s

/-- An entry at a Gazelle-result gate goes on: the id's present run does not satisfy its gate again, so a later activation
of the entry waits for a run of its own (R149; notes/assumptions/54.md). -/
def State.takeResult (s : State) (e : SchedEntry) : State :=
  if e.gate = 3 then
    { s with jz := { s.jz with runs := s.jz.runs.map fun (r : GzRun) => if r.rid = e.gateArg then { r with taken := e :: r.taken } else r } }
  else s

/-- The TIMEOUT_ACT under which the head entry of a stream goes on now, 0 when its gate holds; none while it waits or is not
yet due. -/
def State.headGoes (s : State) (h : Option Held) (offset slots : Nat) (e : SchedEntry) : Option Nat :=
  match h with
  | some h =>
    if h.expired then some e.act
    else if h.lapsed && !h.reported then none
    else if s.gateOpen e then some 0
    else if s.gateFailed e && e.act != 0 then some e.act
    else none
  | none =>
    if offset < e.slotOff + slots then none
    else if s.gateOpen e then some 0
    else if s.gateFailed e && e.act != 0 then some e.act
    else if s.lateBypass e then some 1
    else none

/-- Take the entries of one stream that go on in this slot; an entry whose gate does not hold is held, and the stream with
it. -/
def State.runStream (id phase unit offset : Nat) (old : Bool) : Nat → State × List Due → State × List Due
  | 0, r => r
  | fuel + 1, (s, out) =>
    match s.findAct id with
    | none => (s, out)
    | some a =>
      let sh := a.shift unit
      match (s.stream phase unit)[sh.pos]? with
      | none => (s, out)
      | some (index, e) =>
        let h := s.jq.held.find? fun x => x.act == id && x.index == index
        match s.headGoes h offset sh.slots e with
        | some how =>
          let before := (h.map Held.expired) == some true
          let s := if !before && s.gateFailed e then s.gateReport index e else s
          let s := if before then s else s.applyAct (if how = 1 then 0 else how)
          let s := (((s.consumeBell e how).takeResult e).dropHeld id index).setShift id ⟨unit, offset - e.slotOff, sh.pos + 1⟩
          State.runStream id phase unit offset old fuel (s, out ++ [Due.mk old id unit index how])
        | none =>
          let failed := s.gateFailed e
          match h with
          | some x =>
            if failed && !x.reported && !x.lapsed then
              let held : List Held := s.jq.held.map fun y => if y = x then { y with reported := true } else y
              ((s.gateReport index e).setHeld held, out)
            else (s, out)
          | none =>
            if offset < e.slotOff + sh.slots then (s, out)
            else
              let s := if failed then s.gateReport index e else s
              (s.setHeld (s.jq.held ++ [Held.mk id index s.jq.slot failed false false]), out)

/-- The phase-offset count of an activation is frozen: ROOTS while GEN is active (R401). -/
def State.frozen (s : State) (a : Activation) : Bool := a.phase == 5 && s.jq.gen

/-- Entries of an earlier activation of the phase that the unit has not taken yet issue first (R401). -/
def State.olderLeft (s : State) (a : Activation) (unit : Nat) : Bool :=
  s.jq.acts.any fun b => b.phase == a.phase && decide (b.id < a.id) &&
    decide ((b.shift unit).pos < (s.stream a.phase unit).length)

/-- Every entry that goes on in this slot, over every activation and unit. -/
def State.takeDue (s : State) : State × List Due :=
  s.jq.acts.foldl (fun r a =>
    if s.frozen a then r
    else
      let old := s.jq.acts.any fun b => b.phase == a.phase && decide (a.id < b.id)
      (s.unitsOf a.phase).foldl (fun r u =>
        if r.1.olderLeft a u then r
        else State.runStream a.id a.phase u a.offset old ((s.stream a.phase u).length + 1) r) r)
    (s, [])

def dueBefore (a b : Due) : Bool := (a.old && !b.old) || (a.old == b.old && decide (a.index < b.index))

/-- Entries beyond the first 64 are carried, and their streams move one slot later (R18). -/
def State.carry (s : State) (rest : List Due) : State :=
  let streams := (rest.map fun d => (d.act, d.unit)).eraseDups
  let s := { s with jq := { s.jq with carried :=
    (sortBy (fun (a b : Due) => decide (a.index < b.index)) rest).map fun d => Carried.mk d.act d.index d.how } }
  streams.foldl (fun s p =>
    match s.findAct p.1 with
    | none => s
    | some a =>
      let sh := a.shift p.2
      let s := s.setShift p.1 { sh with slots := sh.slots + 1 }
      { s with jq := { s.jq with held := s.jq.held.filter fun h =>
          !(h.act == p.1 && h.due == s.jq.slot && ((s.sched[h.index]?).map SchedEntry.unit) == some p.2) } }) s

/-! ### The work of an entry -/

/-- An issued entry's work. The reductions of the verdict, of a BOUNDARY vote, of a resume and of a replica comparison start
with those events. -/
def State.doWork (s : State) (unit how operand : Nat) (w : Work) : State :=
  match w with
  | .idle => s
  | .intakeEnd => s.endIntake
  | .lap1Recv _ _ => s
  | .lap1Add i axis => s.lap1Add i axis (how == 1)
  | .gather g => s.gatherStart g
  | .gatherWait _ => s
  | .shift n => s.xferStart n
  | .perm n => s.xferStart n
  | .transferWait _ => s
  | .gzStart rid => if rid < 5 || rid == 9 || rid == 10 then s else s.gzStart rid false
  | .gzWait _ => s
  | .verdictSend => s.setVerdict fun v => { v with sendIssued := true }
  | .mover ch => if ch < 48 then s.schedMover s.jg.epoch.current ch operand else s
  | .arrayFeed j => if unit = 0x28 then s.arrayFeed 0 j else if unit = 0x29 then s.arrayFeed 1 j else s
  | .power g up => s.setTarget g up

/-- Issue one entry. -/
def State.issueOne (s : State) (d : Due) : State :=
  match s.sched[d.index]? with
  | none => s
  | some e => (s.rampHold e.unit).doWork e.unit d.how e.operand (s.work e)

/-! ### Waits (R122) and waiting streams (R18, R39) -/

/-- Held lap-1 entries: own-wait for contribution gates, up-wait by receiving port for arrival gates. -/
def State.countWaits (s : State) : State :=
  let arr := s.jq.held.filterMap fun h => match s.sched[h.index]? with
    | some e => if e.unit = 0x2B ∧ e.gate = 2 then s.arrivalOf e.gateArg else none
    | none => none
  let own := arr.any fun a => match a with | .contribution _ _ => true | _ => false
  let port := fun (a : Arrival) => match a with
    | .chunkIn i axis => (match s.chunk i with
      | some c => (s.dom c.domain).map fun d =>
          axisPort axis (d.minusOf i == s.byClosing d axis (d.minusOf i) (s.decl.coord.axis axis - d.org axis))
      | none => none)
    | _ => none
  let ports := arr.filterMap port
  { s with jx := { s.jx with ownNow := if own then stick s.jx.ownNow 1 else s.jx.ownNow,
                             upNow := s.jx.upNow.mapIdx fun p n => if ports.contains p then stick n 1 else n } }

/-- `JQ_STATUS.GATES_WAITING`: streams with a held or a carried entry. -/
def State.waitingStreams (s : State) : Nat :=
  let unit := fun (i : Nat) => ((s.sched[i]?).map SchedEntry.unit).getD 0
  ((s.jq.held.map fun h => (h.act, unit h.index)) ++ (s.jq.carried.map fun c => (c.act, unit c.index))).eraseDups.length

/-- Activations with nothing left to issue end; ROOTS keeps its count (R401). -/
def State.pruneActs (s : State) : State :=
  let live := fun (a : Activation) => a.phase == 5 ||
    (s.unitsOf a.phase).any (fun u => decide ((a.shift u).pos < (s.stream a.phase u).length)) ||
    s.jq.held.any (fun h => h.act == a.id) || s.jq.carried.any fun c => c.act == a.id
  { s with jq := { s.jq with acts := s.jq.acts.filter live } }

/-- The issue pass of an unslipped slot (R14, R17, R18, R401). -/
def State.issueStep (s : State) : State :=
  let r := s.takeDue
  let s := r.1
  let unit := fun (i : Nat) => ((s.sched[i]?).map SchedEntry.unit).getD 0
  let all := (s.jq.carried.map fun c => Due.mk true c.act (unit c.index) c.index c.how) ++ sortBy dueBefore r.2
  let now := all.take 64
  let s := { s with jq := { s.jq with carried := [] } }
  let s := if all.length ≤ 64 then s else s.carry (all.drop 64)
  let s := (now.foldl State.issueOne s).countWaits
  let acts : List Activation := s.jq.acts.map fun a => if s.frozen a then a else { a with offset := a.offset + 1 }
  let s := { s with jq := { s.jq with acts := acts, gatesWaiting := BitVec.ofNat 16 (min 65535 s.waitingStreams) } }
  (s.ballastStep (now.map Due.unit)).pruneActs

/-! ### Phases (R21, R22) -/

/-- This member's contribution to a chunk of the step is ready for the chunk's first axis, or a lap-1 chunk has come. -/
def State.lap1Ready (s : State) : Bool :=
  (s.img.chunks.zipIdx.any fun p =>
    match s.dom p.1.domain with
    | some d => (s.hop p.2 p.1 d d.firstAxis).isSome && s.contribReady p.2 d.firstAxis
    | none => false) ||
  s.jx.rx.any fun c => (chunkHdr c.hdr).op == 0

/-- Does this member take part in any chunk's lap 1? -/
def State.lap1Member (s : State) : Bool :=
  s.img.chunks.any fun e => match s.dom e.domain with
    | some d => d.contains s.decl.coord
    | none => false

/-- Every owned chunk reduced and consumed. -/
def State.lap1Over (s : State) : Bool :=
  s.img.chunks.zipIdx.all fun p => p.1.owner != s.me || s.jx.consumed.contains p.2

/-- The last layer has been gathered. -/
def State.gatherOver (s : State) : Bool :=
  (List.range s.img.gathers.length).all fun g => (s.findRun g fun r => r.flagged && r.step == s.jq.step - 1).isSome

/-- The conditions of the phase table, judged at cycle 0. -/
def State.phaseStep (s : State) : State :=
  let s := if s.phase 4 && s.gatherOver then s.setPhase 4 false else s
  if s.jq.gen || s.jq.verdict.decision.isSome then s
  else
    let s := if !s.phase 1 && !s.jq.lap1Done && s.lap1Ready then
        { s.activate 1 with jq := { (s.activate 1).jq with lap1Done := true } }
      else s
    let s := if s.phase 1 && s.lap1Over then s.setPhase 1 false else s
    if !s.phase 0 && !s.phase 1 && !s.phase 2 && (s.jq.lap1Done || !s.lap1Member) then
      (s.activate 2).setVerdict fun v => { v with enteredAt := s.jq.slot }
    else s

/-! ### Resume (R39) -/

/-- INTAKE of the unchanged step, on stride masks, with ROOTS, and ports back in service or training again (R260, R264); a block that quiesced in GEN serves again. -/
def State.resumeNow (s : State) : State :=
  let s := ({ s with jq := { s.jq with quiesced := false, running := true, resuming := false } }).maskRestart
  let s := { s with jq := { s.jq with verdict := VerdictBlock.reset }, jl := { s.jl with ports := s.jl.ports.map PeerPort.resumed } }
  if s.jq.gen then ({ s with jq := { s.jq with serveSlots := 0 } }).activate 6 else (s.activate 5).beginIntake

/-- The comparison of the schedule digests once MIN and MAX are in. -/
def State.resumeStep (s : State) : State :=
  let a := s.gzRun 3
  let b := s.gzRun 4
  if !s.jq.resuming || !a.result || !b.result then s
  else
    let x := (a.words.getD 0 GzElem.zero).nat
    let y := (b.words.getD 0 GzElem.zero).nat
    if x = y && !a.incomplete && !b.incomplete then s.resumeNow.cmdEnds 3 0
    else
      let s := { s with jq := { s.jq with resuming := false } }
      (s.declMismatch 10 x y).cmdEnds 3 5

/-! ### SLOT_START -/

/-- In a slipped slot no deadline action is applied: an entry whose deadline has expired with its gate still closed owes its action
to the first slot after the run of slips, whether or not its gate opens meanwhile (R19). -/
def State.lapse (s : State) : State :=
  let held : List Held := s.jq.held.map fun h =>
    match s.sched[h.index]? with
    | some e =>
      if decide (0 < e.deadline) && !h.expired && !h.reported && decide (e.deadlineSlots ≤ (s.jq.slot - h.due).toNat) && !s.gateOpen e
      then { h with lapsed := true } else h
    | none => h
  { s with jq := { s.jq with held := held } }

/-- Cycle 0 of a slot: the counter, the end of a run of slips, the Twin, remaps, power levels, phases and the issue of the
slot's entries. The units' work that no row of its own carries is done as its entry issues. -/
def State.slotStart (s : State) (st : SelfTest) : State :=
  if s.inReset then s
  else
    let s := s.nextSlot
    let s := { s with jq := { s.jq with begun := false, serveSlots := s.jq.serveSlots + b2n (s.phase 6) } }
    let s := ((s.twinSlot st).remapTiles).rampStep
    let s := if s.jq.running && !s.jq.slipping && !s.silent && !s.jq.draining then s.phaseStep.issueStep
      else (if s.jq.running && s.jq.slipping then s.lapse else s).ballastStep []
    let s := if s.silent then s else s.copyProgress
    s.resumeStep

def execSlotStart (st : SelfTest) (s : State) : Host.Outcome State Fault Refusal := run (fun s => s.slotStart st) s

/-! ### GATE_TIMEOUT (R19) -/

/-- The entry of a phase's unit that waits at its gate. -/
def State.waiting (s : State) (phase unit : Nat) : Option (Held × SchedEntry) :=
  (s.jq.held.filterMap fun h => (s.sched[h.index]?).map fun e => (h, e)).find? fun p =>
    p.2.phase == phase && p.2.unit == unit && !p.1.expired && !p.1.reported && decide (0 < p.2.deadline)

/-- What an expiry does beside letting the entry go on: POISON (R121), the bypass (R119), a root's result without what is
missing (R156), chunks given up (R128, R130), a late root (R183). -/
def State.expireWork (s : State) (e : SchedEntry) : State :=
  let s := if e.gate = 3 ∧ 1 < e.gateArg then s.gzExpire e.gateArg else s
  let s := if e.gate = 2 ∧ e.gateArg = 4095 then s.rootLate else s
  if e.act = 0 then s
  else
    match s.work e with
    | .lap1Recv i axis => s.lap1Expire i axis
    | .lap1Add i axis => if e.act = 1 then s.lap1Add i axis true else s
    | .gatherWait g => s.gatherExpire g
    | .transferWait n => s.xferExpire n
    | _ => s

/-- A gate deadline has expired: its action is applied at cycle 0 of the next slot that is not slipped. -/
def State.gateTimeout (s : State) (phase unit : Nat) : State :=
  let slips := if s.jq.begun then s.jq.slipping else s.jq.forceSlip
  match s.waiting phase unit with
  | none => s
  | some (h, e) =>
    let slot := if s.jq.begun then s.jq.slot else s.jq.slot + 1
    if slips || s.silent || !s.jq.running || (slot - h.due).toNat < e.deadlineSlots || (s.gateOpen e && !h.lapsed) then s
    else
      let s := s.nextSlot
      let held : List Held := s.jq.held.map fun x => if x = h then { x with reported := true, expired := e.act != 0 } else x
      let s := (s.setHeld held).gateReport h.index e
      (s.applyAct e.act).expireWork e

def execGateTimeout (phase : BitVec 4) (unit : BitVec 8) (s : State) : Host.Outcome State Fault Refusal :=
  run (fun s => s.gateTimeout phase.toNat unit.toNat) s

/-! ### SLOT_COMPLETION_CHECK (R15, R31, R32, R356, R397) -/

/-- The cause of one incomplete unit: 1 link retry, 2 refresh, 3 fault. A retry outstanding in the slot, a full replay buffer and a
degraded port before its degraded schedule is in force are link retries (R31, R251, R260). -/
def State.slipCause (s : State) (r : Incomplete) : Nat :=
  let link := match r.onPort with
    | some p =>
      let q := s.port p.toNat
      q.rx.retryOut || q.rx.retryAt == some s.jq.slot || q.replayFull ||
        (q.state == 5 && s.live.cur.degPort != some p.toNat)
    | none => false
  let ref := match r.onSp with
    | some p => s.jm.lateRef.contains p.toNat
    | none => false
  if link then 1 else if ref then 2 else 3

/-- Entries held by the ramp governor at cycle 1,535 (R397). -/
def State.rampDefer (s : State) : State :=
  if s.jp.holding.isEmpty then s
  else
    let s := { s with jp := { s.jp with heldSlots := stick s.jp.heldSlots 1 } }
    (s.jp.holding.foldl (fun s g => s.event 0x4C 0x1001 1 [i1 g, i8 s.jq.slot.toNat, i1 s.jp.budget.toNat]) s).fault

/-- EV_STALL when the consecutive slipped slots reach the limit (R32). -/
def State.stallStep (s : State) (units : List Nat) : State :=
  if !s.jq.slipping then { s with jq := { s.jq with slipCount := 0 } }
  else
    let n := s.jq.slipCount + 1
    let s := { s with jq := { s.jq with slipCount := n } }
    if n ≠ s.jq.slipLimit.toNat then s
    else
      let cause := (s.jq.run.map SlipRun.cause).getD 3
      let map := units.eraseDups.foldl (fun a u => a + 2 ^ u) 0
      (s.event 0x3F 0x0105 1 [i1 cause, i8 (s.jq.slot - BitVec.ofNat 48 (n - 1)).toNat, i8 (map % 2 ^ 64)]).fault

/-- The next slot is slipped for a cause: the run goes on or a new one starts. -/
def State.slipNext (s : State) (cause : Nat) (remap : Bool) : State :=
  let fresh : SlipRun := ⟨cause, s.jq.slot + 1, 1, remap⟩
  match s.jq.run with
  | none => { s with jq := { s.jq with run := some fresh, forceSlip := true } }
  | some r =>
    if r.cause = cause then
      { s with jq := { s.jq with run := some { r with length := r.length + 1, remap := r.remap || remap }, forceSlip := true } }
    else { s with jq := { s.jq with run := some fresh, slipEnd := some r, forceSlip := true } }

/-- Cycle 1,535: every unit complete, or the next slot slips, classified in the order of R31. A tile remap and the Twin's
self-test are identified causes that set no FAULT here. -/
def State.completionCheck (s : State) (reports : List Incomplete) : State :=
  if s.inReset then s
  else
    let causes := reports.map s.slipCause
    let ramp := !s.jp.holding.isEmpty
    let remap := !s.jg.tiles.remap.isEmpty || s.jq.remapSlot
    let twin := match s.jg.twin.diverged with | some d => s.jq.slot == d.1 | none => false
    let all := causes ++ (if ramp || remap || twin then [3] else [])
    let s := s.rampDefer.stallStep (reports.map fun r => r.unit.toNat)
    let s := { s with pins := { s.pins with stepDone := false }, jm := { s.jm with lateRef := [] } }
    if all.isEmpty then { s with jq := { s.jq with slipEnd := s.jq.run.or s.jq.slipEnd, run := none } }
    else
      let cause := all.foldl min 3
      let s := if cause = 3 && causes.contains 3 && !remap then s.fault else s
      s.slipNext cause remap

def execSlotCompletionCheck (reports : List Incomplete) (s : State) : Host.Outcome State Fault Refusal :=
  run (fun s => s.completionCheck reports) s

/-! ### Doorbells and the mode request (R20, R30, R383) -/

/-- Ring one doorbell; a count above 255 is ignored and recorded. -/
def State.ring (s : State) (d : Nat) : State :=
  let n := memGet s.jq.db d
  if n = 255 then s.event 0x3F 0x0102 1 [i2 d, i8 s.jq.slot.toNat]
  else { s with jq := { s.jq with db := memSet s.jq.db d (n + 1) } }

/-- A write to `JQ_DB_RING`; the ring of an offload doorbell starts the channel's next entry (R305). -/
def State.wrDbRing (s : State) (port : Mgmt) (v : W32) : State :=
  s.guarded port 0x010040 fun s =>
    let d := v.toNat % 4096
    if d = 0 then s.reject port 0x010040
    else
      let s := (s.ring d).ok port
      if 4080 ≤ d ∧ d < 4084 then s.offTry (60 + (d - 4080)) else s

def execDoorbellRing (port : Mgmt) (value : W32) (s : State) : Host.Outcome State Fault Refusal :=
  run (fun s => s.wrDbRing port value) s

/-- A write to `JQ_MODE_REQ`: the requested variant, and a ring of doorbell 0. -/
def State.wrModeReq (s : State) (port : Mgmt) (v : W32) : State :=
  s.guarded port 0x010044 fun s =>
    (({ s with jq := { s.jq with variantReq := v.getLsbD 0 } }).ring 0).ok port

def execModeReqWrite (port : Mgmt) (value : W32) (s : State) : Host.Outcome State Fault Refusal :=
  run (fun s => s.wrModeReq port value) s

/-- Every BOUNDARY_PERIOD slots of SERVE the vote word goes out (R21, R30). -/
def State.boundary (s : State) : State :=
  if !s.phase 6 || s.jq.boundarySent || s.silent || s.jq.serveSlots < s.decl.boundaryPeriod || s.decl.boundaryPeriod == 0 then s
  else
    let s := ({ s with jq := { s.jq with serveSlots := 0, boundarySent := true } }).activate 7
    s.gzStart 2 false

def execBoundaryPeriod (s : State) : Host.Outcome State Fault Refusal := run State.boundary s

/-! ### Quiesce (R38, R138, R186, R396) -/

/-- No traffic in the ring engine, the Gazelle path or the data-class Mover: nothing received and waiting, nothing held for a start
entry or an epoch, nothing in reassembly on VC0 to VC2, nothing queued to be sent. -/
def State.noTraffic (s : State) : Bool :=
  s.jx.rx.isEmpty && s.jx.early.isEmpty && s.jz.held.isEmpty && s.jz.early.isEmpty && s.jz.capQueue.isEmpty &&
    s.jz.reds.all GzRed.done &&
    (s.jl.ports.all fun p => (p.tx.queues.take 3).all List.isEmpty && (p.rx.asm.take 3).all (fun a => !a.isOpen) &&
      p.rx.items.all fun i => i.1 == 3) &&
    (s.jm.chans.take 48).all fun c => !c.busy

/-- The block comes to rest. -/
def State.quiesceNow (s : State) : State :=
  let s := { s with jq := { s.jq with quiesced := true, draining := false, running := false } }
  (s.dropEntries.resetSeq.markhorQuiesce.targetsDown).cmdEnds 2 0

def State.quiescedSet (s : State) : State := if s.jq.draining && s.noTraffic then s.quiesceNow else s

def execQuiescedSet (s : State) : Host.Outcome State Fault Refusal := run State.quiescedSet s

end Sys2Proof.Machine
end

