-- ==== Sys2Proof/Machine/Boot.lean ====
section
/-!
DEFINITION. Resets and boot (spec/13_image_boot_and_management.md R329–R335, spec/16 R389–R392), the schedule load
(spec/01 R37, spec/08 R403, spec/09 R263), the Duiker's watchdog, telemetry and flash and fuse timeouts, and the meanings of their
commands.
-/

namespace Sys2Proof.Machine

/-! ### Resets (R334, R389, R392) -/

/-- Physical tiles of a grade in the coding of `JS_ID` (R5, R352). -/
def gradeTiles (grade : Nat) : Nat := if grade = 0 then 40 else if grade = 1 then 44 else 48

/-- Every register at its reset value; memories, flash, fuses and the fixed grade stay (notes/assumptions/42.md). -/
def State.toReset (s : State) : State :=
  let r := State.reset
  { r with
    pending := s.pending, out := s.out, freeCnt := s.freeCnt, nvm := s.nvm, fuses := s.fuses, hostMem := s.hostMem,
    stateMem := s.stateMem, scratch := s.scratch, staging := s.staging, ethBuf := s.ethBuf,
    jg := { r.jg with tiles := TileMapBlock.factory (gradeTiles s.js.boot.grade.toNat) },
    je := { r.je with regions := s.je.regions },
    js := { r.js with boot := { r.js.boot with grade := s.js.boot.grade, jporLow := s.js.boot.jporLow, jwrstLow := s.js.boot.jwrstLow } } }

/-- JPOR_N falls: it governs (R392), and it clears the fuses, the event ring and `JS_REJECT` as well (R334). -/
def State.jporFalls (s : State) : State :=
  let s := { s with js := { s.js with boot := { s.js.boot with jporLow := true } } }
  { s.toReset with fuses := List.replicate 26 0 }

def execJporNAssert (s : State) : Host.Outcome State Fault Refusal := run State.jporFalls s

/-- XOFF held on every priority. -/
def holdAll (p : EthPort) : EthPort := { p with xoffSent := 0xFF }

/-- After a release every lane transmits and adapts (R262), and each Ethernet port holds XOFF on all priorities (R283). -/
def State.portsStart (s : State) : State :=
  { s with pins := { s.pins with adaptReq := 0xFF },
           je := { s.je with ports := s.je.ports.map fun p => holdAll p } }

/-- JPOR_N rises: the straps are sampled and inrush sequencing starts (R322, R390, R399). -/
def State.jporRises (s : State) (nvmMode twinSel : Bool) : State :=
  if !s.js.boot.jporLow then s
  else
    ({ s with js := { s.js with boot := { s.js.boot with jporLow := false, nvmMode := nvmMode, twinSel := twinSel,
                                                         inrush := true } } }).portsStart

def execJporNRelease (nvmMode twinSel : Bool) (s : State) : Host.Outcome State Fault Refusal :=
  run (fun s => s.jporRises nvmMode twinSel) s

/-- JWRST_N falls: ignored while JPOR_N is low (R392). What R334 names survives, and so do the straps, which only JPOR_N
samples, and the power switches (R399). -/
def State.jwrstFalls (s : State) : State :=
  let s := { s with js := { s.js with boot := { s.js.boot with jwrstLow := true } } }
  if s.js.boot.jporLow then s
  else
    let old := s.js
    let r := s.toReset
    { r with
      jp := { r.jp with inrushDone := s.jp.inrushDone },
      js := { r.js with
        boot := { r.js.boot with nvmMode := old.boot.nvmMode, twinSel := old.boot.twinSel, inrush := old.boot.inrush },
        ring := { r.js.ring with head := old.ring.head, tail := old.ring.tail, ring := old.ring.ring },
        rejCount := old.rejCount, rejPort := old.rejPort, rejCode := old.rejCode, rejOffset := old.rejOffset } }

def execJwrstNAssert (s : State) : Host.Outcome State Fault Refusal := run State.jwrstFalls s

/-- JWRST_N rises: boot repeats from the commit records, or follows the inrush sequencing that still runs (R334, R392). -/
def State.jwrstRises (s : State) : State :=
  if !s.js.boot.jwrstLow then s
  else
    let s := { s with js := { s.js with boot := { s.js.boot with jwrstLow := false } } }
    if s.js.boot.jporLow then s
    else if !s.jp.inrushDone then s.portsStart
    else ({ s with js := { s.js with boot := { s.js.boot with state := 1 } } }).portsStart

def execJwrstNRelease (s : State) : Host.Outcome State Fault Refusal := run State.jwrstRises s

/-! ### Fuses and flash during boot (R390, R351) -/

/-- Does boot run, up to T_v or SAFE? -/
def State.bootRuns (s : State) : Bool :=
  !s.inReset && decide (1 ≤ s.js.boot.state.toNat) && decide (s.js.boot.state.toNat ≤ 3)

/-- FUSE_ACK missing 1 ms after FUSE_REQ: the word counts as all zeros in this boot (R390). -/
def State.fuseMissed (s : State) (addr : Nat) : State :=
  if !s.bootRuns || 26 ≤ addr || s.js.boot.fuseMiss.contains addr then s
  else { s with js := { s.js with boot := { s.js.boot with fuseMiss := addr :: s.js.boot.fuseMiss } } }

def execFuseAckTimeout (addr : BitVec 5) (s : State) : Host.Outcome State Fault Refusal :=
  run (fun s => s.fuseMissed addr.toNat) s

/-! ### Command completion (R342) -/

/-- A command completes: BUSY clears, RESULT is set, DONE advances, EV_CMD_DONE and EV_RESTORE are recorded (R342, R351,
R377). -/
def State.cmdDone (s : State) (r : BitVec 3) : State :=
  let c := s.js.cmd
  let s := { s with js := { s.js with cmd := { c with busy := false, result := r, done := c.done + 1, outcome := none } } }
  let s := if c.code == 0x25 || c.code == 0x26 then
      s.event 0x4D 0x0B08 0 [i1 c.code.toNat, i8 c.argStep.toNat, i8 c.bytes, i1 r.toNat]
    else s
  if s.js.cmdEvent then s.event 0x4D 0x0B07 0 [i1 c.code.toNat, i1 r.toNat] else s

/-- A copy being staged and not yet whole is discarded (R335, R345). -/
def State.dropStaging (s : State) : State :=
  if s.jg.epoch.staged then s else { s with live := { s.live with staged := none }, jc := { s.jc with xtDue := if s.jc.xeLoaded then [] else s.jc.xtDue } }

/-- A flash command timed out after 10 s: EV_NVM_ERR (R351). A service command that uses the flash ends with NVM; boot ends in SAFE
with cause 9 (notes/assumptions/43.md). -/
def State.nvmTimeout (s : State) (opcode addr status : Nat) : State :=
  let ev := fun (s : State) => s.event 0x4D 0x0B03 1 [i1 opcode, i4 addr, i1 status]
  let code := s.js.cmd.code.toNat
  if s.bootRuns then (ev s).enterSafe 9
  else if s.js.restarting || s.inReset || !s.js.cmd.busy || !(code == 4 || code == 9 || code == 10) then s
  else if s.jg.epoch.staged then s
  else (ev s).dropStaging.cmdDone 4

def execNvmCommandTimeout (opcode : Byte) (addr : W32) (status : Byte) (s : State) : Host.Outcome State Fault Refusal :=
  run (fun s => s.nvmTimeout opcode.toNat addr.toNat status.toNat) s

/-! ### T_v or SAFE (R329–R333) -/

/-- The range of the first or a later telemetry sample: which limit it crosses (0 and 1: temperature low and high; 2 and 3:
voltage), if any (R332, R350). -/
def rangeCrossed (d : Decl) (temp volt : W16) : Option Nat :=
  if temp.toInt < d.tempLo then some 0
  else if d.tempHi < temp.toInt then some 1
  else if volt.toNat < d.voltLo then some 2
  else if d.voltHi < volt.toNat then some 3
  else none

/-- The grade that the tile count and the crossover show, in the coding of the declaration (R332). -/
def obsGrade (o : BootObs) : Nat := if o.tiles = 40 then 0 else if o.tiles = 44 then 1 else if o.twinPart then 3 else 2

/-- The declarations that fail before T_v (R7, R332): item, declared value, observed value. DESIGN CHOICE (notes/assumptions/32.md): the
item's codes and the form of the two values, which the manual does not give. -/
def declFails (d : Decl) (o : BootObs) (strapB : Bool) : List (Nat × Nat × Nat) :=
  let off := if o.jclkKHz < d.jclkKHz then d.jclkKHz - o.jclkKHz else o.jclkKHz - d.jclkKHz
  (if d.grade = obsGrade o then [] else [(1, d.grade, obsGrade o)]) ++
  (if d.twin = o.twinPart && (!d.twin || d.twinB = strapB) then []
   else [(2, b2n d.twin + 2 * b2n d.twinB, b2n o.twinPart + 2 * b2n strapB)]) ++
  (if off * 200 ≤ d.jclkKHz then [] else [(3, d.jclkKHz, o.jclkKHz)]) ++
  (if o.stateStatus = 0 then [] else [(4, d.stateBytes, o.stateStatus.toNat)]) ++
  (match rangeCrossed d o.temp o.volt with
   | none => []
   | some 0 => [(6, (d.tempLo % 2 ^ 64).toNat, (o.temp.toInt % 2 ^ 64).toNat)]
   | some 1 => [(6, (d.tempHi % 2 ^ 64).toNat, (o.temp.toInt % 2 ^ 64).toNat)]
   | some 2 => [(7, d.voltLo, o.volt.toNat)]
   | some _ => [(7, d.voltHi, o.volt.toNat)])

/-- SAFE with EV_IMAGE_INVALID (R333, R351). -/
def State.imageInvalid (s : State) (bank : Bool) (x : ImgFail) : State :=
  (s.event 0x4D 0x0B01 2 [i1 (b2n bank), i1 x.cause, i2 x.typ, i1 x.index, i4 (if x.cause = 1 then 0 else bankBase bank + x.offset)]).enterSafe
    x.cause

/-- Register values that the image loads (R140, R189, R235, R265, R383, R384). -/
def State.loadRegs (s : State) (r : RegInit) : State :=
  let wt := fun (w : W32) => VcWt.mk (w.extractLsb' 0 7) (w.extractLsb' 8 7) (w.extractLsb' 16 7)
  { s with
    jq := { s.jq with vTimeout := r.verdictTimeout.getD s.jq.vTimeout },
    jx := { s.jx with wt := (r.vcWt.map wt).getD s.jx.wt, wtCk := (r.vcWtCk.map wt).getD s.jx.wtCk },
    jk := { s.jk with tol := r.tol.getD s.jk.tol, installLag := r.installLag.getD s.jk.installLag },
    jl := { s.jl with bootWait := r.bootWait.getD s.jl.bootWait },
    jp := { s.jp with budget := r.slew.getD s.jp.budget } }

/-- The whole XT configuration space of an image (R321). -/
def RunImage.xtWords (i : RunImage) : List (Nat × W32) := i.xtRegionWords ++ xtTableWords i.live.prefixes

/-- T_v: the image's tables are in the units, and the expanders' configuration is to be written (R321, R331). -/
def State.verify (s : State) (f : SxiFile) (ms : W16) : State :=
  let h := f.header
  let i := f.tables
  let d := i.decl
  let w := fun (a : Nat) => BitVec.ofNat 64 (leAt h a 8)
  let s := { s with
    image := some i, imageHdr := ⟨w 32, w 40, w 48⟩, live := ⟨i.live, i.live, none⟩,
    ju := { s.ju with seed := d.seed },
    jc := { s.jc with xeLoaded := false, xtDue := i.xtWords },
    jg := { s.jg with
      member := { s.jg.member with state := if d.spare.isEmpty then 0 else 3 },
      twin := { s.jg.twin with present := d.twin, self := s.js.boot.twinSel, driving := d.twin && !s.js.boot.twinSel, peerOk := d.twin } },
    js := { s.js with boot := { s.js.boot with state := 4, cause := 0, tvMs := ms, verified := true } } }
  s.loadRegs i.regs

/-- The 26 fuse words of a boot; one without an acknowledgement counts as zeros (R390). -/
def State.fusesSeen (s : State) (o : BootObs) : List W64 :=
  (List.range 26).map fun i => if s.js.boot.fuseMiss.contains i then 0 else o.fuses.getD i 0

/-- What boot has read of the instance itself: fuses, sensors, and the grade with its factory tile map. -/
def State.bootSeen (s : State) (o : BootObs) : State :=
  let g : BitVec 3 := BitVec.ofNat 3 (if obsGrade o = 3 then 3 + b2n s.js.boot.twinSel else obsGrade o)
  { s with
    fuses := s.fusesSeen o,
    js := { s.js with temp := o.temp, volt := o.volt, boot := { s.js.boot with fuseMiss := [], grade := g } },
    jg := { s.jg with tiles := TileMapBlock.factory (gradeTiles g.toNat) } }

/-- An image that passes the checks of R327 and R329 against the declarations of R332. -/
def State.bootFile (s : State) (o : BootObs) (f : SxiFile) : State :=
  let bad := declFails f.tables.decl o s.js.boot.twinSel
  if bad.isEmpty then s.verify f o.ms
  else (bad.foldl (fun s x => s.declMismatch x.1 x.2.1 x.2.2) s).enterSafe 10

/-- Boot reading and checking end: the boot copy, its bank, the checks of R327, the header and manifest hash of R329, and the
declarations of R332. -/
def State.bootEnds (s : State) (o : BootObs) : State :=
  if !s.bootRuns || s.js.restarting then s
  else
    let s := s.bootSeen o
    if !o.nvmOk then s.enterSafe 9
    else
      match bootCopy s.nvm with
      | none => s.imageInvalid false ⟨1, 0, 0, 0⟩
      | some (cr, r) =>
        let s := { s with js := { s.js with boot := { s.js.boot with cr := cr, bank := r.bank } } }
        match s.nvm.bank r.bank with
        | none => s.imageInvalid r.bank ⟨2, 0, 0, 0⟩
        | some f =>
          match f.bootFail s.fuses with
          | some x => s.imageInvalid r.bank x
          | none =>
            if f.mhash ≠ r.mhash then
              -- R329 gives no cause for this one (notes/assumptions/41.md)
              let d := s.draw
              d.2.imageInvalid r.bank ⟨1 + (Config.openByte d.1).toNat % 9, 0, 0, 0⟩
            else s.bootFile o f

def execBootVerifyComplete (obs : BootObs) (s : State) : Host.Outcome State Fault Refusal := run (fun s => s.bootEnds obs) s

/-! ### The schedule load (R35–R37, R216–R221, R263, R403) -/

/-- The tables, the unbanked state, the coefficients and the working copies as a schedule load leaves them. -/
def State.loadTables (s : State) : State :=
  let map := s.live.cur.tileAdmit
  let cur := { s.live.cur with tileAdmit := 0, tileRetire := 0 }
  let s := { s with live := ⟨cur, cur, none⟩,
                    jg := { s.jg with epoch := { s.jg.epoch with current := 0, previous := 3, staged := false } },
                    jq := { s.jq with step := s.decl.startStep, gen := false },
                    js := { s.js with boot := { s.js.boot with state := 5 } } }
  let s := s.changeTiles (~~~map &&& BitVec.ofNat 48 (2 ^ gradeTiles s.js.boot.grade.toNat - 1)) 0
  s.loadUnbanked.resetSeq.maskRestart.densRestart.latchCoefs.rewriteWcs

/-- The schedule loads and starts: ROOTS and INTAKE become active (R21). -/
def State.startSchedule (s : State) : State :=
  let s := s.loadTables
  let s := { s with jq := { s.jq with quiesced := false, running := true } }
  (s.activate 5).beginIntake

/-- The image waits for its ports; a spare worker waits for TAKEOVER, and the expanders' configuration comes first (R321). -/
def State.loadDue (s : State) : Bool :=
  s.js.boot.verified && s.js.boot.state == 4 && s.jg.member.state != 3 && s.jc.xtDue.isEmpty && !s.inReset

/-- Is every declared port UP? -/
def State.portsUp (s : State) : Bool :=
  s.decl.peers.all fun d => (s.port d.port).state == 4 || (s.port d.port).state == 5

def execScheduleLoad (s : State) : Host.Outcome State Fault Refusal :=
  run (fun s => if s.loadDue && s.portsUp then s.startSchedule else s) s

/-- A declared port still not UP at the end of BOOT_WAIT has failed: `JL_PSTAT.STATE` is FAILED, or stays FENCED, and the member
fails with it, whichever port it is (R263, R362; notes/assumptions/13.md). -/
def State.bootPortFail (s : State) (p : Nat) : State :=
  let q := s.port p
  if q.state = 4 ∨ q.state = 5 then s
  else
    let s := if q.state = 6 then s else (s.stageClear p).setPort p fun x => { x.fresh with state := 7, attempt := 0, partnerValid := false }
    s.memberFail 2

/-- BOOT_WAIT has passed since T_v: a declared port still not UP is a port failure, and the schedule loads (R263, R362). -/
def State.bootWaitOver (s : State) : State :=
  if !s.loadDue then s else ((s.decl.peers.map PeerDecl.port).foldl State.bootPortFail s).startSchedule

def execBootWaitExpiry (s : State) : Host.Outcome State Fault Refusal := run State.bootWaitOver s

/-! ### The Duiker (R335, R350) -/

/-- The watchdog restarts the Duiker and ends any running command with ABORTED. -/
def State.watchdog (s : State) (fwAddr : Nat) : State :=
  if s.inReset || s.js.boot.state == 0 || s.js.restarting then s
  else
    let c := s.js.cmd
    let s := { s with js := { s.js with restarting := true } }
    let s := s.event 0x4D 0x0B05 1 [i4 fwAddr, i1 (if c.busy then c.code.toNat else 0)]
    if c.busy then s.dropStaging.cmdDone 6 else s

def execDuikerWatchdog (fwAddr : W32) (s : State) : Host.Outcome State Fault Refusal := run (fun s => s.watchdog fwAddr.toNat) s

def execDuikerRestartComplete (s : State) : Host.Outcome State Fault Refusal :=
  run (fun s => { s with js := { s.js with restarting := false } }) s

/-- The 1 ms sample, and EV_RANGE once per excursion (R350). -/
def State.sample (s : State) (temp volt : W16) : State :=
  if s.inReset || s.js.boot.state == 0 || s.js.restarting then s
  else
    let s := { s with js := { s.js with temp := temp, volt := volt } }
    if s.image.isNone then s
    else
      match rangeCrossed s.decl temp volt with
      | none => { s with js := { s.js with excursion := false } }
      | some k =>
        if s.js.excursion then s
        else ({ s with js := { s.js with excursion := true } }).event 0x4D 0x0B06 1 [i2 temp.toNat, i2 volt.toNat, i1 k]

def execTelemetrySample (temp volt : W16) (s : State) : Host.Outcome State Fault Refusal := run (fun s => s.sample temp volt) s

end Sys2Proof.Machine
end

