-- ==== Sys2Proof/Machine/Commands.lean ====
section
/-!
DEFINITION. The service commands (spec/13_image_boot_and_management.md R330, R342–R346, spec/14_resilience_and_live_service.md
R358–R367, R374, R376), the service lock (R344, R345) and the meanings of their commands.
-/

namespace Sys2Proof.Machine

/-! ### Issuing and completing (R342, R343) -/

/-- The running command's result is known. -/
def State.result (s : State) (r : Nat) : State :=
  { s with js := { s.js with cmd := { s.js.cmd with outcome := some (BitVec.ofNat 3 r) } } }

/-- SAFE accepts NOP, IMAGE_WRITE and IMAGE_COMMIT only (R333). -/
def safeAccepts (code : Nat) : Bool := code == 1 || code == 9 || code == 10

/-- A write to `JS_CMD`: BUSY while a command runs, LOCKED without the lock except for NOP, and otherwise the command starts with
its arguments latched; given when it is not allowed it ends with STATE (R342–R344). -/
def State.giveCmd (s : State) (port : Mgmt) (code : Nat) (allowed : Bool) (f : State → State) : State :=
  s.guarded port 0x0B0010 fun s =>
    if s.js.cmd.busy then s.refuse port 0x0B0010 1
    else if code ≠ 1 ∧ !s.holdsLock port then s.refuse port 0x0B0010 3
    else
      let c := s.js.cmd
      let s := ({ s with js := { s.js with cmd := { c with busy := true, code := BitVec.ofNat 8 code, latched := c.args, outcome := none,
                                                           port := port == Mgmt.sm, bytes := 0 } } }).ok port
      if (s.js.boot.state == 6 && !safeAccepts code) || !allowed then s.result 2 else f s

/-- Argument n as latched. -/
def State.arg (s : State) (n : Nat) : W32 := s.js.cmd.latched.getD n 0

/-- A schedule is loaded and `JS_BOOT.STATE` is RUNNING (R343). -/
def State.loaded (s : State) : Bool := s.js.boot.state == 5

/-- "Quiesced" as the Allowed columns use it (R343). -/
def State.restful (s : State) : Bool := s.loaded && s.jq.quiesced

def State.atWork (s : State) : Bool := s.loaded && !s.jq.quiesced

/-- Is nothing staged, nor being staged? -/
def State.noneStaged (s : State) : Bool := !s.jg.epoch.staged && s.live.staged.isNone

/-! ### Staging (R321, R346, R358) -/

/-- Does the expanders' staged copy hold other tables than these? -/
def State.xtDiffers (s : State) (words : List (Nat × W32)) : Bool := words.any fun p => s.xeWord p.1 != p.2

/-- Fill the staged copies; STAGED follows the last XT write, which comes first when the expanders' staged copy differs. -/
def State.stage (s : State) (t : LiveTables) : State :=
  let words := xtTableWords t.prefixes
  let s := { s with live := { s.live with staged := some t } }
  if s.xtDiffers words then { s with jc := { s.jc with xtDue := words } }
  else ({ s with jg := { s.jg with epoch := { s.jg.epoch with staged := true } } }).result 0

/-- Nothing is staged any more. -/
def State.unstageAll (s : State) : State :=
  { s with live := { s.live with staged := none }, jg := { s.jg with epoch := { s.jg.epoch with staged := false } },
           jc := { s.jc with xtDue := if s.jc.xeLoaded then [] else s.jc.xtDue } }

/-! ### QUIESCE and RESUME (R38, R39, R364) -/

/-- QUIESCE: a HALTED member has no step to finish, waits for no decision any more and returns to RUN; in GEN nothing more
is issued at once. -/
def State.quiesceStart (s : State) : State :=
  if s.jg.member.state = 1 then
    (({ s with jg := { s.jg with member := { s.jg.member with state := 0, cause := 0 } } }).setVerdict
      fun v => { v with sent := false }).quiesceNow
  else if s.jq.gen then
    let s := s.dropEntries.dropWaiting
    { s with jq := { s.jq with draining := true } }
  else { s with jq := { s.jq with quiesceReq := true } }

def State.cmdQuiesce (s : State) (port : Mgmt) : State := s.giveCmd port 0x02 s.atWork State.quiesceStart

def execQuiesce (port : Mgmt) (s : State) : Host.Outcome State Fault Refusal := run (fun s => s.cmdQuiesce port) s

/-- RESUME: the members compare their schedule digests by MIN and MAX (R39). -/
def State.resumeStart (s : State) : State :=
  let s := { s with jq := { s.jq with resuming := true } }
  (s.gzStart 3 false).gzStart 4 false

def State.cmdResume (s : State) (port : Mgmt) : State := s.giveCmd port 0x03 s.restful State.resumeStart

def execResume (port : Mgmt) (s : State) : Host.Outcome State Fault Refusal := run (fun s => s.cmdResume port) s

/-! ### LIVE_SWAP and UNSTAGE (R346) -/

/-- A flash command failed its status: EV_NVM_ERR, whose opcode and status byte are the flash's (R351;
notes/assumptions/43.md). -/
def State.flashFails (s : State) (addr : Nat) : State :=
  let d := s.draw
  let e := d.2.draw
  (e.2.event 0x4D 0x0B03 1 [i1 (Config.openByte d.1).toNat, i4 addr, i1 (Config.openByte e.1).toNat]).result 4

/-- The section types that ARG1 selects. -/
def swapTypes (mask : W32) : List Nat := (List.range 32).filter fun n => mask.getLsbD n

/-- The manifest entry of a type; of type 0x14 for a port. -/
def entryOf (l : List ManEntry) (typ port : Nat) : Option ManEntry :=
  l.find? fun m => m.typ == typ && (typ != 0x14 || m.index == port)

/-- Replace one live table by the image's; the tile admission map asks for retirements and admissions at the advance. -/
def State.takeTable (s : State) (f : SxiFile) (port : Nat) (t : LiveTables) (typ : Nat) : LiveTables :=
  let n := f.liveTables
  let phys := s.jg.tiles.phys
  let pick := fun (q : Nat → Bool) => (List.range 48).foldl (fun (a : BitVec 48) p => if q p then a ||| BitVec.ofNat 48 (2 ^ p) else a) 0
  match typ with
  | 0x02 => { t with schedule := n.schedule, opEncs := n.opEncs, arrivals := n.arrivals, degPort := none }
  | 0x03 => { t with phases := n.phases }
  | 0x08 => { t with reds := n.reds }
  | 0x09 => { t with density := n.density }
  | 0x0A => { t with progs := n.progs, code := n.code }
  | 0x0C => { t with coefSets := n.coefSets, coefCurves := n.coefCurves }
  | 0x0E => { t with factCoefs := n.factCoefs, damping := n.damping }
  | 0x10 => { t with prefixes := n.prefixes }
  | 0x11 => { t with moverParams := n.moverParams }
  | 0x12 =>
    { t with tileRetire := pick fun p => !n.tileAdmit.getLsbD p && decide (phys.getD p 3 = 0 ∨ phys.getD p 3 = 1),
             tileAdmit := pick fun p => n.tileAdmit.getLsbD p && s.jg.tiles.tested.getLsbD p && decide (phys.getD p 0 = 2 ∨ phys.getD p 0 = 3) }
  | 0x13 => { t with portAdmit := n.portAdmit }
  | 0x14 => { t with schedule := (f.degradedFor port).getD t.schedule, degPort := some port }
  | _ => t

/-- Does another bank's image fit the running one (R346 step 1)? -/
def State.compatible (s : State) (f : SxiFile) (running : List ManEntry) : Bool :=
  leAt f.header 32 8 == s.imageHdr.systemId.toNat && leAt f.header 40 8 == s.imageHdr.topoDigest.toNat &&
    f.entries.all fun m => m.live || running.any fun k => k.typ == m.typ && k.index == m.index && k.hash == m.hash

/-- Steps 2–5 of R346 with the image of the named bank. -/
def State.swapFrom (s : State) (f : SxiFile) : State :=
  let types := swapTypes (s.arg 1)
  let port := (s.arg 2).toNat % 8
  let l := f.entries
  let picked := types.map fun t => entryOf l t port
  if !picked.all (fun m => (m.map ManEntry.live) == some true) then s.result 1
  else if !(picked.filterMap id).all ManEntry.hashOk then s.result 3
  else
    let t := types.foldl (s.takeTable f port) s.live.cur
    if types.all fun x => liveCheck s.img t x then s.stage t else s.result 3

/-- LIVE_SWAP (R346). -/
def State.liveSwap (s : State) (flashOk : Bool) : State :=
  let bank := (s.arg 0).getLsbD 0
  if !flashOk then s.flashFails (bankBase bank)
  else
    match s.nvm.bank bank with
    | none => s.result 3
    | some f =>
      if bank == s.js.boot.bank then s.swapFrom f
      else if (f.fail15 s.fuses).isSome then s.result 3
      else
        let running := match s.nvm.bank s.js.boot.bank with | some r => r.entries | none => []
        if s.compatible f running then s.swapFrom f else s.result 5

def State.cmdLiveSwap (s : State) (port : Mgmt) (flashOk : Bool) : State := s.giveCmd port 0x04 (s.loaded && s.noneStaged) fun s => s.liveSwap flashOk

def execLiveSwap (port : Mgmt) (flashOk : Bool) (s : State) : Host.Outcome State Fault Refusal := run (fun s => s.cmdLiveSwap port flashOk) s

def State.cmdUnstage (s : State) (port : Mgmt) : State := s.giveCmd port 0x05 s.jg.epoch.staged fun s => s.unstageAll.result 0

def execUnstage (port : Mgmt) (s : State) : Host.Outcome State Fault Refusal := run (fun s => s.cmdUnstage port) s

/-! ### NOP, CLEAR_DB, STAGING_TEST -/

def State.cmdNop (s : State) (port : Mgmt) : State := s.giveCmd port 0x01 true fun s => s.result 0

def execNopCommand (port : Mgmt) (s : State) : Host.Outcome State Fault Refusal := run (fun s => s.cmdNop port) s

def State.clearDb (s : State) : State := { s with jq := { s.jq with db := [] } }

def State.cmdClearDb (s : State) (port : Mgmt) : State := s.giveCmd port 0x06 s.restful fun s => s.clearDb.result 0

def execClearDb (port : Mgmt) (s : State) : Host.Outcome State Fault Refusal := run (fun s => s.cmdClearDb port) s

/-- STAGING_TEST writes every staging byte, so what the buffers held is gone, and empties staging. -/
def State.stagingTest (s : State) (good : Bool) : State :=
  ({ s.resetSeq with staging := [], jx := { s.resetSeq.jx with stagingTested := true } }).result (if good then 0 else 3)

def State.cmdStagingTest (s : State) (port : Mgmt) (good : Bool) : State := s.giveCmd port 0x08 s.restful fun s => s.stagingTest good

def execStagingTest (port : Mgmt) (good : Bool) (s : State) : Host.Outcome State Fault Refusal := run (fun s => s.cmdStagingTest port good) s

/-! ### EXPORT (R233, R282) -/

/-- The working copy of a chunk: host address and length (R208). -/
def State.wcArea (s : State) (tensor bank : Nat) (c : CatEntry) (e : ChunkEntry) : Bool × Nat × Nat :=
  let w := if c.cls = 2 then 2 else 1
  (true, s.hostAddr ((s.dirEntry tensor).wcBase + w * 32 * e.group0) bank, w * 32 * e.rangeGroups)

/-- What an export reads, in state-directory order (R233): master or weight, moments, working copy, scale-table record. -/
def State.exportAreas (s : State) (bank : Nat) : List (Bool × Nat × Nat) :=
  s.img.catalogue.zipIdx.flatMap fun p =>
    ((s.ownedChunks p.1).flatMap fun e =>
      s.chunkAreas p.2 bank e ++ (if s.decl.lean then [] else [s.wcArea p.2 bank p.1 e])) ++ [(false, s.scaleRec p.2, 72)]

/-- A WRITE entry with its bytes. -/
def exportEntry (opcode : Nat) (raddr : Nat) (rkey imm : W32) (last : Bool) (b : List Byte) : SqEntry :=
  { opcode := opcode, signal := false, isFinal := last, wait := false, lspace := 0, length := b.length, laddr := 0,
    raddr := BitVec.ofNat 64 raddr, rkey := rkey, imm := imm, waitQ := 0, waitCount := 0, wrId := 0, inline := some b,
    exportLast := last }

/-- Data entries of at most 2^30 bytes. -/
def exportPieces (rkey : W32) : Nat → List (List Byte) → List SqEntry
  | _, [] => []
  | a, b :: rest => exportEntry 2 a rkey 0 false b :: exportPieces rkey (a + b.length) rest

/-- EXPORT: header, data and trailer are posted on the internal queue of ARG0, and the step is a copy step (R134, R233). -/
def State.exportState (s : State) : State :=
  let q := (s.arg 0).toNat
  let raddr := (s.arg 1).toNat + (s.arg 2).toNat * 2 ^ 32
  let rkey := s.arg 3
  let res := (s.arg 4).getLsbD 0
  let fac := (s.arg 4).getLsbD 1
  if q < 61440 ∨ 65535 < q then s.result 1
  else
    match s.queue q with
    | none => s.result 2
    | some x =>
      if x.state ≠ 1 then s.result 2
      else
        let step := s.jq.step - 1
        let data := s.readAreas (s.exportAreas s.bank) ++ (if res then s.readAreas s.resAreas else []) ++ (if fac then s.readAreas s.factAreas else [])
        let head := exportEntry 2 raddr rkey 0 false (copyHdrBytes (s.copyHeader step (res || fac)))
        let tail := exportEntry 3 (raddr + 64 + data.length) rkey (step.setWidth 32) true (bytes64 (crc64 data))
        let s := s.setQueue { x with posted := x.posted ++ [head] ++ exportPieces rkey (raddr + 64) (groupsOf (2 ^ 30) data) ++ [tail] }
        let rest := s.je.exports.filter fun e => e.queue != q
        ({ s with je := { s.je with exports := rest ++ [Export.mk q false] }, jx := { s.jx with copyStep := true } }).kickAll

def State.cmdExport (s : State) (port : Mgmt) : State := s.giveCmd port 0x07 (s.atWork && !s.jq.gen) State.exportState

def execExportCmd (port : Mgmt) (s : State) : Host.Outcome State Fault Refusal := run (fun s => s.cmdExport port) s

/-! ### IMAGE_WRITE and IMAGE_COMMIT (R330) -/

/-- SEQ of the boot copy; 0 where no copy was valid (notes/assumptions/41.md). -/
def State.bootSeq (s : State) : Nat :=
  match commitRec (if s.js.boot.cr then s.nvm.cr1 else s.nvm.cr0) with
  | some r => r.seq
  | none => 0

/-- Stage 1: erase the copy that is not the boot copy. -/
def State.eraseCopy (s : State) : State := { s with nvm := s.nvm.setRecord (!s.js.boot.cr) erasedRecord }

/-- Stages 1 and 2; the rest follows when the command completes. -/
def State.imageWrite (s : State) (f : Option SxiFile) (flashOk : Bool) : State :=
  let commit := (s.arg 3).getLsbD 0
  let bank := !s.js.boot.bank
  if (s.arg 2).toNat > 100663296 then s.result 1
  else if commit && s.bootSeq == 2 ^ 64 - 2 then s.result 4
  else
    let s := if commit then s.eraseCopy else s
    if flashOk then { s with nvm := s.nvm.setBank bank f }
    else ({ s with nvm := s.nvm.setBank bank none }).flashFails (bankBase bank)

def State.cmdImageWrite (s : State) (port : Mgmt) (file : Option SxiFile) (flashOk : Bool) : State := s.giveCmd port 0x09 true fun s => s.imageWrite file flashOk

def execImageWrite (port : Mgmt) (file : SxiFile) (flashOk : Bool) (s : State) : Host.Outcome State Fault Refusal := run (fun s => s.cmdImageWrite port (some file) flashOk) s

/-- IMAGE_COMMIT, stage 1, for the inactive bank only. -/
def State.imageCommit (s : State) (flashOk : Bool) : State :=
  if (s.arg 0).getLsbD 0 == s.js.boot.bank then s.result 1
  else if s.bootSeq = 2 ^ 64 - 2 then s.result 4
  else if flashOk then s.eraseCopy
  else s.flashFails (if s.js.boot.cr then 0 else 0x10000)

def State.cmdImageCommit (s : State) (port : Mgmt) (flashOk : Bool) : State := s.giveCmd port 0x0A true fun s => s.imageCommit flashOk

def execImageCommit (port : Mgmt) (flashOk : Bool) (s : State) : Host.Outcome State Fault Refusal := run (fun s => s.cmdImageCommit port flashOk) s

/-- Stages 3 and 4: the inactive bank is read back and checked, and the erased copy is programmed. -/
def State.imageStages (s : State) (commit : Bool) : State × Nat :=
  let bank := !s.js.boot.bank
  match s.nvm.bank bank with
  | none => (s, 3)
  | some f =>
    if !f.readBackOk s.fuses then (s, 3)
    else if !commit then (s, 0)
    else ({ s with nvm := s.nvm.setRecord (!s.js.boot.cr) (CommitRec.mk bank (s.bootSeq + 1) f.imageLen f.mhash).pack }, 0)

/-! ### Tiles and ports (R358–R361) -/

/-- Change an admission map: the current copy while quiesced, else a staged one (R358). -/
def State.changeMap (s : State) (now : State → State) (staged : LiveTables → LiveTables) : State :=
  if s.jq.quiesced then (now s).result 0 else s.stage (staged s.live.cur)

/-- When the commands of R358 are allowed. -/
def State.mapAllowed (s : State) : Bool := s.restful || (s.loaded && s.noneStaged)

/-- The tiles ARG0 and ARG1 name. -/
def State.argTiles (s : State) : BitVec 48 := BitVec.ofNat 48 ((s.arg 0).toNat + (s.arg 1).toNat % 65536 * 2 ^ 32)

/-- Every tile named is one the grade has. -/
def State.tilesExist (s : State) (m : BitVec 48) : Bool := decide (m.toNat < 2 ^ gradeTiles s.js.boot.grade.toNat)

/-- TILE_RETIRE fails with STATE if it would leave a logical tile without a physical tile (R359). -/
def State.tileRetire (s : State) : State :=
  let m := s.argTiles
  let after := (s.jg.tiles.change m 0).phys
  if !s.tilesExist m then s.result 1
  else if (List.range 48).any fun p => m.getLsbD p && after.getD p 3 == 0 then s.result 2
  else s.changeMap (fun s => s.changeTiles m 0) fun t => { t with tileRetire := m, tileAdmit := 0 }

def State.cmdTileRetire (s : State) (port : Mgmt) : State := s.giveCmd port 0x20 s.mapAllowed State.tileRetire

def execTileRetire (port : Mgmt) (s : State) : Host.Outcome State Fault Refusal := run (fun s => s.cmdTileRetire port) s

/-- TILE_TEST on a tile out of service or spare (R360). -/
def State.tileTest (s : State) (good : Bool) : State :=
  let p := (s.arg 0).toNat % 64
  let bit : BitVec 48 := BitVec.ofNat 48 (2 ^ p)
  if !decide (p < gradeTiles s.js.boot.grade.toNat) then s.result 1
  else if s.jg.tiles.phys.getD p 0 = 0 then s.result 2
  else
    let t := s.jg.tiles
    ({ s with jg := { s.jg with tiles := { t with tested := if good then t.tested ||| bit else t.tested &&& ~~~bit } } }).result
      (if good then 0 else 3)

def State.cmdTileTest (s : State) (port : Mgmt) (good : Bool) : State := s.giveCmd port 0x21 true fun s => s.tileTest good

def execTileTest (port : Mgmt) (good : Bool) (s : State) : Host.Outcome State Fault Refusal := run (fun s => s.cmdTileTest port good) s

/-- TILE_ADMIT accepts only tiles tested good since they left service, and makes them SPARE (R360). -/
def State.tileAdmit (s : State) : State :=
  let m := s.argTiles
  if !s.tilesExist m then s.result 1
  else if (List.range 48).any fun p => m.getLsbD p && (s.jg.tiles.phys.getD p 0 == 0 || !s.jg.tiles.tested.getLsbD p) then s.result 2
  else s.changeMap (fun s => s.changeTiles 0 m) fun t => { t with tileRetire := 0, tileAdmit := m }

def State.cmdTileAdmit (s : State) (port : Mgmt) : State := s.giveCmd port 0x22 s.mapAllowed State.tileAdmit

def execTileAdmit (port : Mgmt) (s : State) : Host.Outcome State Fault Refusal := run (fun s => s.cmdTileAdmit port) s

/-- Change the port admission map. -/
def State.setAdmit (s : State) (f : BitVec 8 → BitVec 8) : State :=
  s.changeMap (fun s => { s with live := { s.live with cur := { s.live.cur with portAdmit := f s.live.cur.portAdmit } } })
    fun t => { t with portAdmit := f t.portAdmit }

def State.argPorts (s : State) : BitVec 8 := (s.arg 0).setWidth 8

def State.cmdPortRetire (s : State) (port : Mgmt) : State := s.giveCmd port 0x23 s.mapAllowed fun s => s.setAdmit fun a => a &&& ~~~s.argPorts

def execPortRetire (port : Mgmt) (s : State) : Host.Outcome State Fault Refusal := run (fun s => s.cmdPortRetire port) s

/-- PORT_ADMIT accepts only ports that are UP (R361). -/
def State.portAdmit (s : State) : State :=
  let m := s.argPorts
  if (List.range 8).any fun p => m.getLsbD p && !((s.port p).state == 4 || (s.port p).state == 5) then s.result 2
  else s.setAdmit fun a => a ||| m

def State.cmdPortAdmit (s : State) (port : Mgmt) : State := s.giveCmd port 0x24 s.mapAllowed State.portAdmit

def execPortAdmit (port : Mgmt) (s : State) : Host.Outcome State Fault Refusal := run (fun s => s.cmdPortAdmit port) s

/-! ### Restores, takeover, Twin (R365–R367, R374) -/

/-- RESTORE_SEND: the held copy goes to its owner; COMMAND_COMPLETE is the owner's acknowledgement, RESTORE_ACK_TIMEOUT its
absence (R365; notes/assumptions/44.md). -/
def State.restoreSend (s : State) : State :=
  match s.ju.heldCopies.find? fun c => c.st == 2 && c.hdr.step == s.js.cmd.argStep with
  | none => s.result 2
  | some c =>
    let s := s.sendCopy (s.copyPort c.hdr.src.toNat) c.hdr c.data
    { s with js := { s.js with cmd := { s.js.cmd with bytes := c.data.length } } }

def State.cmdRestoreSend (s : State) (port : Mgmt) : State := s.giveCmd port 0x25 (s.restful || (s.jg.member.state == 2 && s.jg.member.donor)) State.restoreSend

def execRestoreSend (port : Mgmt) (s : State) : Host.Outcome State Fault Refusal := run (fun s => s.cmdRestoreSend port) s

/-- The entries of an export that have sent nothing yet are flushed, its FINAL write among them, and the PSNs they had are free. -/
def State.flushExport (s : State) (q : Queue) : State :=
  let out := q.ops.filter fun o => o.entry.inline.isSome && !o.started
  let kept := { q with posted := [], ops := q.ops.filter fun o => !(o.entry.inline.isSome && !o.started),
                       nextPsn := (out.head?.map SqOp.psn).getD q.nextPsn }
  let y := (out.map SqOp.entry ++ q.posted).foldl (fun x e => x.1.completeEntry x.2 e 1) (s, kept)
  y.1.setQueue y.2

/-- Each export in progress is flushed; its FINAL write is never sent (R281). -/
def State.flushExports (s : State) : State :=
  s.je.exports.foldl (fun s e =>
    if e.done then s
    else
      let s := match s.queue e.queue with
        | some q => s.flushExport q
        | none => s
      { s with je := { s.je with exports := s.je.exports.map fun x => if x.queue = e.queue then Export.mk x.queue true else x } }) s

/-- ROLLBACK waits for the member's own copy (R366). -/
def State.cmdRollback (s : State) (port : Mgmt) : State := s.giveCmd port 0x26 s.restful State.flushExports

def execRollback (port : Mgmt) (s : State) : Host.Outcome State Fault Refusal := run (fun s => s.cmdRollback port) s

/-- TAKEOVER: a spare worker adopts a member id, loads the schedule and is quiesced (R367). -/
def State.takeOver (s : State) : State :=
  let id := (s.arg 0).toNat % 65536
  match s.image, s.decl.spare.find? fun x => x.id == id with
  | some i, some x =>
    let d := { i.decl with member := id, coord := x.coord, peers := x.peers, buddy := x.buddy }
    let s := { s with image := some { i with decl := d }, jg := { s.jg with member := { s.jg.member with state := 0 } } }
    let s := s.loadTables
    ({ s with jq := { s.jq with quiesced := true, running := false } }).result 0
  | _, _ => s.result 1

def State.cmdTakeover (s : State) (port : Mgmt) : State := s.giveCmd port 0x27 (s.jg.member.state == 3) State.takeOver

def execTakeover (port : Mgmt) (s : State) : Host.Outcome State Fault Refusal := run (fun s => s.cmdTakeover port) s

/-- TWIN_SWAP waits for the next STEP_DONE (R374). -/
def State.cmdTwinSwap (s : State) (port : Mgmt) : State :=
  let t := s.jg.twin
  s.giveCmd port 0x28 (t.present && s.loaded && t.peerOk && t.fenced.isNone && s.jg.member.state == 0)
    fun s => s.setTwin fun t => { t with swap := true }

def execTwinSwap (port : Mgmt) (s : State) : Host.Outcome State Fault Refusal := run (fun s => s.cmdTwinSwap port) s

/-! ### COMMAND_COMPLETE -/

/-- The commands that complete when STAGED is set (R343, R358). -/
def stagingCommand (code : Nat) : Bool := code == 0x04 || code == 0x20 || code == 0x22 || code == 0x23 || code == 0x24

/-- A running command completes once its activity has (R342, R343); one that still waits for the data plane does not. -/
def State.commandComplete (s : State) : State :=
  let c := s.js.cmd
  let code := c.code.toNat
  if !c.busy || s.js.restarting || s.inReset then s
  else
    match c.outcome with
    | some r => s.cmdDone r
    | none =>
      if stagingCommand code && s.jg.epoch.staged then s.cmdDone 0
      else if code = 0x09 then
        let r := s.imageStages (c.latched.getD 3 0 |>.getLsbD 0)
        r.1.cmdDone (BitVec.ofNat 3 r.2)
      else if code = 0x0A then
        let r := s.imageStages true
        r.1.cmdDone (BitVec.ofNat 3 r.2)
      else if code = 0x25 then s.cmdDone 0
      else s

def execCommandComplete (s : State) : Host.Outcome State Fault Refusal := run State.commandComplete s

/-! ### Arguments and the service lock (R342, R344, R345, R352) -/

/-- A write to `JS_CMD_ARG(i)`. -/
def State.wrCmdArg (s : State) (port : Mgmt) (i : Nat) (v : W32) : State :=
  let off := 0x0B0020 + 4 * i
  s.guarded port off fun s =>
    if s.js.cmd.busy then s.refuse port off 1
    else if !s.holdsLock port then s.refuse port off 3
    else ({ s with js := { s.js with cmd := { s.js.cmd with args := modifyNth (fun _ => v) i s.js.cmd.args } } }).ok port

def execCmdArgWrite (port : Mgmt) (index : BitVec 3) (value : W32) (s : State) : Host.Outcome State Fault Refusal :=
  run (fun s => s.wrCmdArg port index.toNat value) s

def State.setLock (s : State) (f : LockBlock → LockBlock) : State := { s with js := { s.js with lock := f s.js.lock } }

/-- TAKE with a non-zero OWNER (R344). -/
def State.lockTake (s : State) (port : Mgmt) (owner : Byte) : State :=
  let l := s.js.lock
  if !l.held || (s.holdsLock port && l.owner == owner) then
    (s.setLock fun l => { l with tag := owner, held := true, port := port == .sm, owner := owner, remain := l.lease }).ok port
  else s.refuse port 0x0B0044 3

/-- RENEW with a non-zero OWNER. -/
def State.lockRenew (s : State) (port : Mgmt) (owner : Byte) : State :=
  if s.holdsLock port && s.js.lock.owner == owner then (s.setLock fun l => { l with tag := owner, remain := l.lease }).ok port
  else s.refuse port 0x0B0044 3

/-- RELEASE with a non-zero OWNER. -/
def State.lockRelease (s : State) (port : Mgmt) (owner : Byte) : State :=
  if s.holdsLock port && s.js.lock.owner == owner then (s.setLock fun l => { l with tag := owner, held := false, remain := 0 }).ok port
  else s.refuse port 0x0B0044 3

/-- A write to `JS_LOCK`: of several operations in one write the first of TAKE, RENEW and RELEASE is performed
(notes/assumptions/45.md). -/
def State.wrLock (s : State) (port : Mgmt) (v : W32) : State :=
  s.guarded port 0x0B0044 fun s =>
    let owner : Byte := v.setWidth 8
    let op := v.getLsbD 8 || v.getLsbD 9 || v.getLsbD 10
    if op && owner == 0 then s.reject port 0x0B0044
    else if v.getLsbD 8 then s.lockTake port owner
    else if v.getLsbD 9 then s.lockRenew port owner
    else if v.getLsbD 10 then s.lockRelease port owner
    else (s.setLock fun l => { l with tag := owner }).ok port

def execTake (port : Mgmt) (value : W32) (s : State) : Host.Outcome State Fault Refusal :=
  run (fun s => if value.getLsbD 8 then s.wrLock port value else s) s

def execRenew (port : Mgmt) (value : W32) (s : State) : Host.Outcome State Fault Refusal :=
  run (fun s => if !value.getLsbD 8 && value.getLsbD 9 then s.wrLock port value else s) s

def execRelease (port : Mgmt) (value : W32) (s : State) : Host.Outcome State Fault Refusal :=
  run (fun s => if !value.getLsbD 8 && !value.getLsbD 9 && value.getLsbD 10 then s.wrLock port value else s) s

/-- The lease expires: the lock is free, and the holder's unfinished work is discarded (R345). -/
def State.leaseEnds (s : State) : State :=
  if !s.js.lock.held || s.inReset then s
  else
    let l := s.js.lock
    let c := s.js.cmd
    let code := c.code.toNat
    -- a map change of R358 that waits for its staged copy cannot complete either (notes/assumptions/46.md)
    let abort := c.busy && (code == 4 || code == 9 || code == 10 || (stagingCommand code && c.outcome.isNone))
    let staged := s.live.staged.isSome
    let s := s.setLock fun l => { l with held := false, remain := 0 }
    let s := s.event 0x4D 0x0B04 1 [i1 (b2n l.port), i1 l.owner.toNat, i1 (if abort then code else 0), i1 (b2n staged)]
    let s := if staged then s.unstageAll else s
    if abort then s.cmdDone 6 else s

def execLeaseExpiry (s : State) : Host.Outcome State Fault Refusal := run State.leaseEnds s

/-- A write to `JS_LOCK_LEASE` (R352). -/
def State.wrLease (s : State) (port : Mgmt) (v : W32) : State :=
  let n := v.toNat % 65536
  s.guarded port 0x0B0048 fun s =>
    if s.js.lock.held && !s.holdsLock port then s.refuse port 0x0B0048 3
    else if n < 10 ∨ 60000 < n then s.reject port 0x0B0048
    else (s.setLock fun l => { l with lease := BitVec.ofNat 16 n }).ok port

def execLockLeaseWrite (port : Mgmt) (value : W32) (s : State) : Host.Outcome State Fault Refusal :=
  run (fun s => s.wrLease port value) s

end Sys2Proof.Machine
end

