-- ==== Sys2Proof/Machine/Registers.lean ====
section
/-!
DEFINITION. The registers as software sees them: the offset space and every field map
(spec/15_register_reference.md R379–R385 and the chapters it names), reads with their side effects, writes to registers that
have no command of their own, and the serial target port (spec/13_image_boot_and_management.md R336–R341).
-/

namespace Sys2Proof.Machine

/-- A register word from its fields: lowest bit and value. -/
def pk (l : List (Nat × Nat)) : W32 := BitVec.ofNat 32 (l.foldl (fun a p => a + p.2 * 2 ^ p.1) 0)

/-- Word n of a value of any width. -/
def wordAt {w : Nat} (x : BitVec w) (n : Nat) : W32 := BitVec.ofNat 32 (x.toNat / 2 ^ (32 * n))

/-- All n words of a value. -/
def wordsOf {w : Nat} (x : BitVec w) (n : Nat) : List W32 := (List.range n).map (wordAt x)

/-- Bits as a number. -/
def bitList (l : List Bool) : Nat := l.foldr (fun b a => b2n b + 2 * a) 0

/-- Bytes as words, four to a word. -/
def byteWords (l : List Nat) : List W32 :=
  (groupsOf 4 l).map fun g => BitVec.ofNat 32 (g.foldr (fun b a => b + 256 * a) 0)

/-! ### Multi-word windows that latch (R101, R381) -/

/-- The window that holds an offset: its first offset and the word within it. -/
def winOf (off : Nat) : Option (Nat × Nat) :=
  let fixed : List (Nat × Nat) :=
    [(0x000020, 3), (0x000040, 10), (0x010008, 2), (0x010010, 2), (0x020020, 8), (0x030040, 16), (0x040020, 8), (0x050020, 2),
     (0x060030, 2), (0x060040, 8), (0x080018, 2), (0x0A0008, 2), (0x0B0050, 2), (0x800004, 4)]
  match fixed.find? fun p => decide (p.1 ≤ off) && decide (off < p.1 + 4 * p.2) with
  | some p => some (p.1, (off - p.1) / 4)
  | none =>
    if 0x071000 ≤ off ∧ off < 0x071800 ∧ 0x20 ≤ off % 256 ∧ off % 256 < 0x30 then some (off / 16 * 16, off % 16 / 4)
    else if 0x090000 ≤ off ∧ off < 0x091000 ∧ 0x20 ≤ off % 64 ∧ off % 64 < 0x28 then some (off / 8 * 8, off % 8 / 4)
    else none

/-- The four words of a schedule entry (R16). -/
def SchedEntry.words (e : SchedEntry) : List W32 :=
  [pk [(0, e.slotOff), (24, e.phase), (28, e.unit % 16)],
   pk [(0, e.unit / 16), (4, e.op), (16, e.gate), (20, e.gateArg)],
   pk [(0, e.deadline), (16, e.act), (18, e.dlScale)],
   pk [(0, e.operand)]]

/-- What a read of word 0 latches, by the window's first offset. -/
def State.winWords (s : State) (base : Nat) : List W32 :=
  match base with
  | 0x000020 => (groupsOf 16 (s.jg.tiles.phys.map BitVec.toNat)).map fun g => BitVec.ofNat 32 (g.foldr (fun b a => b + 4 * a) 0)
  | 0x000040 => byteWords (s.jg.tiles.map.map BitVec.toNat)
  | 0x010008 => wordsOf s.jq.slot 2
  | 0x010010 => wordsOf s.jq.step 2
  | 0x020020 => wordsOf s.ji.lastDesc 8
  | 0x030040 => wordsOf s.jx.lastHdr 16
  | 0x040020 => wordsOf s.jz.lastHdr 4 ++ wordsOf s.jz.lastTrl 4
  | 0x050020 => [pk [(0, s.jk.tensor.toNat), (18, b2n s.jk.side), (19, s.jk.iter.toNat)], pk [(0, s.jk.block.toNat)]]
  | 0x060030 =>
    let f := s.ju.progFault
    [pk [(0, f.cause.toNat), (3, b2n f.valid), (4, f.tile.toNat), (10, f.tepoch.toNat), (12, f.pc.toNat)], pk [(0, f.addr.toNat)]]
  | 0x060040 =>
    let d := s.ju.digest
    wordsOf d.w 2 ++ wordsOf d.m1 2 ++ wordsOf d.m2 2 ++ wordsOf s.ju.digestStep 2
  | 0x080018 =>
    match s.je.parked with
    | [] => [0, 0]
    | k :: _ => [pk [(0, k.queue % 65536), (16, k.region % 4096), (28, k.eport), (29, 1)], k.page]
  | 0x0A0008 =>
    let c := s.jc
    [pk [(0, c.badCause.toNat), (3, b2n c.badValid), (4, c.badXe.toNat), (8, c.badRegion.toNat), (16, c.badCount.toNat)],
     pk [(0, c.badBlock.toNat)]]
  | 0x0B0050 =>
    [pk [(0, s.js.rejCount.toNat), (16, b2n s.js.rejPort), (17, s.js.rejCode.toNat)], pk [(0, s.js.rejOffset.toNat)]]
  | 0x800004 =>
    if s.loaded then ((s.sched[s.jt.schedIdx.toNat]?).map SchedEntry.words).getD [0, 0, 0, 0] else [0, 0, 0, 0]
  | b =>
    if b < 0x080000 then wordsOf (s.port ((b - 0x071000) / 256)).lastFrame 4
    else wordsOf (s.chan ((b - 0x090000) / 64)).faddr 2

/-! ### Registers of one word, by block -/

/-- Physical tiles of the grade in a state (R378). -/
def State.tileCount (s : State) (st : BitVec 2) : Nat :=
  ((s.jg.tiles.phys.take (gradeTiles s.js.boot.grade.toNat)).filter fun x => x == st).length

def State.regJG (s : State) (o : Nat) : Option W32 :=
  let e := s.jg.epoch
  let m := s.jg.member
  let t := s.jg.twin
  match o with
  | 0x0000 => some (pk [(0, s.jg.nf.now.toNat), (16, s.jg.nf.seen.toNat)])
  | 0x0004 => some (pk [(0, e.current.toNat), (2, e.previous.toNat), (4, b2n e.staged), (5, b2n s.drained), (6, b2n e.staleSeen),
      (16, e.advances.toNat)])
  | 0x0008 => some (pk [(0, m.state.toNat), (2, b2n m.donor), (4, m.cause.toNat), (8, m.restoreDiscard.toNat), (16, m.restores.toNat)])
  | 0x000C => some (pk [(0, s.tileCount 1), (6, s.tileCount 2), (12, s.tileCount 3), (18, s.jg.tiles.lastPhys.toNat),
      (24, s.jg.tiles.lastLog.toNat)])
  | 0x0010 => some (pk [(0, b2n t.present), (1, b2n t.self), (2, b2n t.driving), (3, b2n t.peerOk), (16, t.diverge.toNat),
      (24, t.failovers.toNat)])
  | _ => none

def State.regJQ (s : State) (o : Nat) : Option W32 :=
  let q := s.jq
  match o with
  | 0x0000 => some (pk [(0, q.phases.toNat), (8, b2n q.gen), (9, b2n q.variantReq), (10, s.bank), (11, b2n q.slipping),
      (12, b2n q.running), (13, b2n q.quiesced), (16, q.gatesWaiting.toNat)])
  | 0x0020 => some (q.slips.getD 0 0)
  | 0x0024 => some (q.slips.getD 1 0)
  | 0x0028 => some (q.slips.getD 2 0)
  | 0x0030 => some (pk [(0, q.slipLimit.toNat)])
  | 0x0034 => some (pk [(0, q.vTimeout.toNat)])
  | 0x0040 => some 0
  | 0x0044 => some (pk [(0, b2n q.variantReq)])
  | _ =>
    if 0x1000 ≤ o ∧ o < 0x2000 then some (BitVec.ofNat 32 (natLE (memRead q.db (o - 0x1000) 4)))
    else none

def State.regJI (s : State) (o : Nat) : Option W32 :=
  let i := s.ji
  match o with
  | 0x0000 => some (pk [(0, i.tqEn.toNat), (4, b2n i.dupFault)])
  | 0x0004 => some (pk [(0, i.discTag.toNat), (8, i.discKind.toNat), (16, i.discDup.toNat), (24, i.discPartial.toNat)])
  | 0x0008 => some (pk [(0, i.nfFirst.toNat), (18, b2n i.nfValid), (19, i.nfCount.toNat)])
  | 0x000C => some (pk [(0, i.maskLost.toNat), (16, i.resZeroed.toNat)])
  | 0x0010 => some i.satTotal
  | _ => none

def VcWt.word (w : VcWt) : W32 := pk [(0, w.w1.toNat), (8, w.w2.toNat), (16, w.w3.toNat)]

def State.regJX (s : State) (o : Nat) : Option W32 :=
  let x := s.jx
  match o with
  | 0x0000 => some (pk [(0, x.discKey.toNat), (8, x.discSeq.toNat), (16, x.discCrc.toNat), (24, x.discForm.toNat)])
  | 0x0004 => some (pk [(0, x.bypOwn.toNat), (16, x.bypSeen.toNat)])
  | 0x0008 => some (pk [(0, x.ownLast.toNat), (16, x.ownNow.toNat)])
  | 0x000C => some (pk [(0, x.slowMember.toNat), (16, x.slowWait.toNat)])
  | 0x0010 => some x.wt.word
  | 0x0014 => some x.wtCk.word
  | _ =>
    if 0x20 ≤ o ∧ o < 0x38 then
      let p := (o - 0x20) / 4
      some (pk [(0, (x.upLast.getD p 0).toNat), (16, (x.upNow.getD p 0).toNat)])
    else none

def State.regJZ (s : State) (o : Nat) : Option W32 :=
  match o with
  | 0x0000 => some (pk [(0, s.jz.discCrc.toNat), (16, s.jz.discForm.toNat)])
  | 0x0004 => some (pk [(0, s.jz.capHeld.toNat), (24, s.jz.capPeak.toNat)])
  | _ => none

def State.regJK (s : State) (o : Nat) : Option W32 :=
  let k := s.jk
  match o with
  | 0x0000 => some (pk [(0, k.installLag.toNat), (8, b2n k.hold)])
  | 0x0004 => some k.tol
  | 0x0008 => some (pk [(0, k.stale.toNat), (8, k.late.toNat), (16, b2n k.current.isSome), (24, min k.queue.length 255)])
  | 0x000C => some k.resid
  | 0x0010 => some (pk [(0, k.clamp.toNat), (16, k.missing.toNat), (24, k.nfTiles.toNat)])
  | 0x0014 => some (pk [(0, s.invalidSides % 2 ^ 24)])
  | _ => none

def State.regJU (s : State) (o : Nat) : Option W32 :=
  let u := s.ju
  let v := s.jq.verdict
  match o with
  | 0x0000 => some (pk [(0, b2n u.gateEn), (3, b2n v.pending), (8, v.gateStep.toNat)])
  | 0x0004 => some u.clip
  | 0x0008 => some (pk [(0, b2n u.rep.mismatch), (1, b2n u.rep.isMin), (2, b2n u.rep.isMax), (3, b2n u.rep.act), (16, u.rep.compares.toNat)])
  | 0x000C => some (pk [(0, u.period.toNat), (16, u.digestPeriod.toNat), (24, b2n s.decl.buddyExt)])
  | 0x0010 => some (pk [(0, u.updChunks.toNat), (16, u.updBlocks.toNat)])
  | 0x0020 => some (wordAt u.seed 0)
  | 0x0024 => some (wordAt u.seed 1)
  | 0x0028 => some (pk [(0, u.outSt.toNat), (2, u.inSt.toNat), (16, u.fails.toNat)])
  | 0x002C => some u.inStep
  | _ => none

def PeerPort.stat (p : PeerPort) (admitted : Bool) : W32 :=
  pk [(0, p.state.toNat), (3, b2n admitted), (4, b2n p.half), (5, bitList (p.lanes.map Lane.locked)),
      (13, bitList (p.lanes.map Lane.bad)), (21, p.cause.toNat)]

def PeerPort.bipWords (p : PeerPort) : List W32 := byteWords (p.lanes.map fun l => l.bip.toNat)

def State.regJL (s : State) (o : Nat) : Option W32 :=
  if o = 0 then some (pk [(0, s.jl.retryLimit.toNat), (4, s.jl.retryTo.toNat), (16, s.jl.bootWait.toNat)])
  else if 0x1000 ≤ o ∧ o < 0x1800 then
    let n := (o - 0x1000) / 256
    let p := s.port n
    match o % 256 with
    | 0x00 => some (p.stat (s.live.cur.portAdmit.getLsbD n))
    | 0x04 => some (pk [(0, p.fecCorr.toNat), (16, p.fecUncorr.toNat)])
    | 0x08 => some (pk [(0, p.cntSize.toNat), (8, p.cntHcrc.toNat), (16, p.cntFcrc.toNat), (24, p.cntSeq.toNat)])
    | 0x0C => some (pk [(0, p.retrySent.toNat), (16, p.replayed.toNat)])
    | 0x10 => some (pk [(0, p.partner.toNat), (16, p.partnerPort.toNat), (19, b2n p.partnerValid), (24, p.noAdmit.toNat)])
    | 0x18 => some (p.bipWords.getD 0 0)
    | 0x1C => some (p.bipWords.getD 1 0)
    | _ => none
  else none

def State.regJE (s : State) (o : Nat) : Option W32 :=
  let e := s.je
  match o with
  | 0x0000 => some 0
  | 0x0004 => some 0
  | 0x0008 => some (pk [(0, e.wInit.toNat), (8, e.cnpGap.toNat), (16, e.pfcHoldMs.toNat)])
  | 0x000C => some (pk [(0, s.opsInFlight), (16, (e.queues.filter s.chainWaits).length)])
  | 0x0010 => some (pk [(0, e.errQueue.toNat), (16, e.errCause.toNat), (19, b2n e.errValid), (20, e.errCount.toNat)])
  | _ =>
    if 0x1000 ≤ o ∧ o < 0x1200 then
      let p := s.eth ((o - 0x1000) / 256)
      match o % 256 with
      | 0x00 => some (pk [(0, p.state.toNat), (2, p.paused.toNat), (10, p.xoffSent.toNat)])
      | 0x04 => some (pk [(0, p.cntSize.toNat), (8, p.cntFcs.toNat), (16, p.cntUnsup.toNat), (24, p.cntEarly.toNat)])
      | 0x08 => some (pk [(0, p.xoff.toNat)])
      | _ => none
    else none

/-- The words of one Mover channel. -/
def Chan.word (c : Chan) (o : Nat) : Option W32 :=
  match o with
  | 0x00 => some ((c.ctl &&& 0x0003FFF8) ||| pk [(1, b2n c.pause)])
  | 0x04 => some (pk [(0, b2n c.busy), (1, b2n c.paused), (2, b2n c.halt), (3, b2n c.dir), (4, c.status.toNat), (6, c.err.toNat),
      (8, b2n c.paced), (9, b2n c.halfSeen), (10, b2n c.overrun), (16, c.completions.toNat)])
  | 0x08 => some c.pace
  | 0x0C => some c.cnt
  | 0x10 => some (wordAt c.src 0)
  | 0x14 => some (wordAt c.src 1)
  | 0x18 => some (wordAt c.dst 0)
  | 0x1C => some (wordAt c.dst 1)
  | _ => none

def State.regJM (s : State) (o : Nat) : Option W32 :=
  let m := s.jm
  if o < 0x1000 then (s.chan (o / 64)).word (o % 64)
  else if o = 0x1000 ∨ o = 0x1004 then some (wordAt m.done ((o - 0x1000) / 4))
  else if o = 0x1008 ∨ o = 0x100C then some (wordAt m.irqEn ((o - 0x1008) / 4))
  else if 0x1020 ≤ o ∧ o < 0x1040 then some (pk [(0, (m.qfill.getD ((o - 0x1020) / 4) 0).toNat)])
  else if 0x1040 ≤ o ∧ o < 0x1080 then
    let p := (o - 0x1040) / 4
    some (pk [(0, (m.spLateRef.getD p 0).toNat), (8, (m.spLate.getD p 0).toNat), (16, (m.spErr.getD p 0).toNat)])
  else if o = 0x1080 ∨ o = 0x1084 then (byteWords (m.hmErr.map BitVec.toNat))[(o - 0x1080) / 4]?
  else none

def State.regJC (s : State) (o : Nat) : Option W32 :=
  match o with
  | 0x0000 => some (pk [(0, b2n s.jc.verify)])
  | 0x0004 => some (pk [(0, s.jc.compressed.toNat), (14, s.jc.raw.toNat), (28, s.jc.verifyFail.toNat)])
  | _ => none

/-- The firmware version: a constant of the part, never 0 (R352). -/
def firmwareNo : Nat := if Config.firmware = 0 then 1 else Config.firmware.toNat

/-- `JS_LOCK_LEASE.REMAIN`: the model has no time, so the ms left are a free value within the lease (notes/assumptions/5.md). -/
def State.remain (s : State) : Nat :=
  if s.js.lock.held then
    ((Config.openByte s.freeCnt).toNat + 256 * (Config.openByte (s.freeCnt + 1)).toNat) % (s.js.lock.remain.toNat + 1)
  else 0

def State.regJS (s : State) (o : Nat) : Option W32 :=
  let b := s.js.boot
  let c := s.js.cmd
  let l := s.js.lock
  let r := s.js.ring
  match o with
  | 0x0000 => some (pk [(0, firmwareNo), (16, b.grade.toNat)])
  | 0x0004 => some (pk [(0, b.state.toNat), (3, b2n b.bank), (4, b2n b.nvmMode), (5, b2n b.cr), (8, b.cause.toNat), (16, b.tvMs.toNat)])
  | 0x0010 => some 0
  | 0x0014 => some (pk [(0, b2n c.busy), (1, c.result.toNat), (4, c.code.toNat), (16, c.done.toNat)])
  | 0x0040 => some (pk [(0, b2n s.js.cmdEvent)])
  | 0x0044 => some (pk [(0, l.tag.toNat), (11, b2n l.held), (12, b2n l.port)])
  | 0x0048 => some (pk [(0, l.lease.toNat), (16, s.remain)])
  | 0x0058 => some (pk [(0, s.js.smPartial.toNat), (8, s.js.smExtra.toNat), (16, s.js.smFrame.toNat)])
  | 0x0060 => some (pk [(0, r.head.toNat)])
  | 0x0064 => some (pk [(0, r.tail.toNat)])
  | 0x0068 => some (pk [(0, r.lost.toNat)])
  | 0x006C => some (pk [(0, b2n r.irqErr), (1, b2n r.irqFatal)])
  | 0x0070 => some (pk [(0, b2n r.enErr), (1, b2n r.enFatal)])
  | 0x0074 => some (pk [(0, s.js.temp.toNat)])
  | 0x0078 => some (pk [(0, s.js.volt.toNat)])
  | _ => if 0x20 ≤ o ∧ o < 0x40 then some (c.args.getD ((o - 0x20) / 4) 0) else none

/-- A word of the event ring; an entry that nothing has written reads as zeros (R347). -/
def State.regEv (s : State) (o : Nat) : W32 :=
  match tabGet (o / 64) s.js.ring.ring with
  | some e => BitVec.ofNat 32 (natLE ((e.bytes.drop (o % 64)).take 4))
  | none => 0

def State.regJP (s : State) (o : Nat) : Option W32 :=
  match o with
  | 0x0000 => some (pk [(0, s.jp.budget.toNat)])
  | 0x0004 => some (pk [(0, s.awake.toNat), (16, b2n s.jp.ballast), (17, b2n s.jp.inrushDone)])
  | 0x0008 => some (pk [(0, s.jp.wakes.toNat), (16, s.jp.heldSlots.toNat)])
  | 0x000C => some s.jp.ballastSlots
  | _ => none

def State.tileWin (s : State) (n : Nat) : TileWin := s.jt.wins.getD n ⟨false, 0, 0, 0⟩

def State.regJT (s : State) (o : Nat) : Option W32 :=
  if o = 0 then some (pk [(0, s.jt.schedIdx.toNat)])
  else if 0x10000 ≤ o ∧ o < 0x290000 then
    let n := (o - 0x10000) / 65536
    let w := s.tileWin n
    match o % 65536 with
    | 0 => some (pk [(0, (s.jg.tiles.map.getD n 0).toNat), (6, b2n w.busy), (7, w.kind.toNat), (9, w.tensor.toNat)])
    | 4 => some (pk [(0, w.ecc.toNat)])
    | _ => none
  else none

/-- A register of one word at an offset; none where nothing is mapped (R379, R380). -/
def State.regWord (s : State) (off : Nat) : Option W32 :=
  let o := off % 65536
  match off / 65536 with
  | 0x00 => s.regJG o
  | 0x01 => s.regJQ o
  | 0x02 => s.regJI o
  | 0x03 => s.regJX o
  | 0x04 => s.regJZ o
  | 0x05 => s.regJK o
  | 0x06 => s.regJU o
  | 0x07 => s.regJL o
  | 0x08 => s.regJE o
  | 0x09 => s.regJM o
  | 0x0A => s.regJC o
  | 0x0B => s.regJS o
  | 0x0C => some (s.regEv o)
  | 0x0D => some (s.regEv (0x10000 + o))
  | 0x0E => some (s.regEv (0x20000 + o))
  | 0x0F => some (s.regEv (0x30000 + o))
  | 0x10 => s.regJP o
  | _ => if 0x800000 ≤ off then s.regJT (off - 0x800000) else none

/-- What a read of an offset returns; none where nothing is mapped. -/
def State.readReg (s : State) (off : Nat) : Option W32 :=
  if off % 4 ≠ 0 then none
  else
    match winOf off with
    | some (base, 0) => some ((s.winWords base).getD 0 0)
    | some (base, k) => some (((tabGet base s.js.latches).getD []).getD k 0)
    | none => s.regWord off

/-! ### Side effects of reads (R339, R381) -/

def zeroBip (p : PeerPort) (lo hi : Nat) : PeerPort :=
  let lanes : List Lane := p.lanes.zipIdx.map fun x => if lo ≤ x.2 ∧ x.2 < hi then { x.1 with bip := 0 } else x.1
  { p with lanes := lanes }

/-- RC fields of a peer port's registers. -/
def State.clearJL (s : State) (o : Nat) : State :=
  if 0x1000 ≤ o ∧ o < 0x1800 then
    let n := (o - 0x1000) / 256
    match o % 256 with
    | 0x04 => s.setPort n fun p => { p with fecCorr := 0, fecUncorr := 0 }
    | 0x08 => s.setPort n fun p => { p with cntSize := 0, cntHcrc := 0, cntFcrc := 0, cntSeq := 0 }
    | 0x0C => s.setPort n fun p => { p with retrySent := 0, replayed := 0 }
    | 0x10 => s.setPort n fun p => { p with noAdmit := 0 }
    | 0x18 => s.setPort n fun p => zeroBip p 0 4
    | 0x1C => s.setPort n fun p => zeroBip p 4 8
    | _ => s
  else s

/-- RC fields of the Mover's and the memory ports' registers. -/
def State.clearJM (s : State) (o : Nat) : State :=
  let zero := fun (n : Nat) (l : List Byte) => modifyNth (fun _ => (0 : Byte)) n l
  if o < 0x1000 then (if o % 64 = 4 then s.setChan (o / 64) fun c => { c with completions := 0 } else s)
  else if 0x1040 ≤ o ∧ o < 0x1080 then
    let p := (o - 0x1040) / 4
    { s with jm := { s.jm with spLateRef := zero p s.jm.spLateRef, spLate := zero p s.jm.spLate, spErr := zero p s.jm.spErr } }
  else if o = 0x1080 then { s with jm := { s.jm with hmErr := List.replicate 4 0 ++ s.jm.hmErr.drop 4 } }
  else if o = 0x1084 then { s with jm := { s.jm with hmErr := s.jm.hmErr.take 4 ++ List.replicate 4 0 } }
  else s

/-- RC fields of the Ethernet ports' registers. -/
def State.clearJE (s : State) (o : Nat) : State :=
  if o = 0x10 then { s with je := { s.je with errCount := 0 } }
  else if o = 0x1004 ∨ o = 0x1104 then
    s.setEth ((o - 0x1000) / 256) fun p => { p with cntSize := 0, cntFcs := 0, cntUnsup := 0, cntEarly := 0 }
  else s

/-- The RC fields of the register at an offset become zero: nothing is counted between the read and its end. -/
def State.clearRc (s : State) (off : Nat) : State :=
  match off with
  | 0x000008 => { s with jg := { s.jg with member := { s.jg.member with restoreDiscard := 0, restores := 0 } } }
  | 0x000010 => { s with jg := { s.jg with twin := { s.jg.twin with diverge := 0, failovers := 0 } } }
  | 0x010020 => { s with jq := { s.jq with slips := modifyNth (fun _ => 0) 0 s.jq.slips } }
  | 0x010024 => { s with jq := { s.jq with slips := modifyNth (fun _ => 0) 1 s.jq.slips } }
  | 0x010028 => { s with jq := { s.jq with slips := modifyNth (fun _ => 0) 2 s.jq.slips } }
  | 0x020004 => { s with ji := { s.ji with discTag := 0, discKind := 0, discDup := 0, discPartial := 0 } }
  | 0x020008 => { s with ji := { s.ji with nfCount := 0 } }
  | 0x02000C => { s with ji := { s.ji with maskLost := 0, resZeroed := 0 } }
  | 0x020010 => { s with ji := { s.ji with satTotal := 0 } }
  | 0x030000 => { s with jx := { s.jx with discKey := 0, discSeq := 0, discCrc := 0, discForm := 0 } }
  | 0x030004 => { s with jx := { s.jx with bypOwn := 0, bypSeen := 0 } }
  | 0x040000 => { s with jz := { s.jz with discCrc := 0, discForm := 0 } }
  | 0x040004 => { s with jz := { s.jz with capHeld := 0 } }
  | 0x050008 => { s with jk := { s.jk with stale := 0, late := 0 } }
  | 0x050010 => { s with jk := { s.jk with clamp := 0, missing := 0, nfTiles := 0 } }
  | 0x060008 => { s with ju := { s.ju with rep := { s.ju.rep with compares := 0 } } }
  | 0x060010 => { s with ju := { s.ju with updChunks := 0, updBlocks := 0 } }
  | 0x060028 => { s with ju := { s.ju with fails := 0 } }
  | 0x0A0004 => { s with jc := { s.jc with compressed := 0, raw := 0, verifyFail := 0 } }
  | 0x0A0008 => { s with jc := { s.jc with badCount := 0 } }
  | 0x0B0048 => { s with freeCnt := if s.js.lock.held then s.freeCnt + 2 else s.freeCnt }
  | 0x0B0050 => { s with js := { s.js with rejCount := 0 } }
  | 0x0B0058 => { s with js := { s.js with smPartial := 0, smExtra := 0, smFrame := 0 } }
  | 0x0B0068 => { s with js := { s.js with ring := { s.js.ring with lost := 0 } } }
  | 0x100008 => { s with jp := { s.jp with wakes := 0, heldSlots := 0 } }
  | 0x10000C => { s with jp := { s.jp with ballastSlots := 0 } }
  | _ =>
    if 0x070000 ≤ off ∧ off < 0x080000 then s.clearJL (off - 0x070000)
    else if 0x080000 ≤ off ∧ off < 0x090000 then s.clearJE (off - 0x080000)
    else if 0x090000 ≤ off ∧ off < 0x0A0000 then s.clearJM (off - 0x090000)
    else if 0x810000 ≤ off ∧ off < 0xA90000 ∧ off % 65536 = 4 then s.setWin ((off - 0x810000) / 65536) fun w => { w with ecc := 0 }
    else s

/-- A read of word 0 of a window latches all its words. -/
def State.latch (s : State) (off : Nat) : State :=
  match winOf off with
  | some (base, 0) => { s with js := { s.js with latches := tabSet base (s.winWords base) s.js.latches } }
  | _ => s

/-- A whole read access (R336). -/
def State.busRead (s : State) (port : Mgmt) (off : Nat) : State :=
  if s.inReset then s
  else
    match s.readReg off with
    | none => s.refuse port off 5
    | some v =>
      if s.accessBusy port off false then s.refuse port off 1
      else ((s.latch off).clearRc off).respond port 0 v

/-- A read of any register; RC fields clear (R339). -/
def execRcRead (port : Mgmt) (offset : BitVec 24) (s : State) : Host.Outcome State Fault Refusal :=
  run (fun s => s.busRead port offset.toNat) s

/-- A read of word 0 of a multi-word window (R381). -/
def execLatchedWindowRead (port : Mgmt) (offset : BitVec 24) (s : State) : Host.Outcome State Fault Refusal :=
  run (fun s => match winOf offset.toNat with
    | some (_, 0) => s.busRead port offset.toNat
    | _ => s) s

/-! ### Writes (R12, R336, R381) -/

/-- A write without a lock or a range: RW, W1C and RO fields. -/
def State.plain (s : State) (port : Mgmt) (off : Nat) (f : State → State) : State :=
  s.guarded port off fun s => (f s).ok port

def wtOf (v : W32) : VcWt := ⟨v.extractLsb' 0 7, v.extractLsb' 8 7, v.extractLsb' 16 7⟩

def VcWt.sum64 (w : VcWt) : Bool := w.w1.toNat + w.w2.toNat + w.w3.toNat == 64

def State.wrVcWt (s : State) (port : Mgmt) (v : W32) : State :=
  s.guarded port 0x030010 fun s =>
    s.rwl port 0x030010 (wtOf v != s.jx.wt) (wtOf v).sum64 fun s => { s with jx := { s.jx with wt := wtOf v } }

def State.wrVcWtCk (s : State) (port : Mgmt) (v : W32) : State :=
  s.guarded port 0x030014 fun s =>
    s.rwl port 0x030014 (wtOf v != s.jx.wtCk) (wtOf v).sum64 fun s => { s with jx := { s.jx with wtCk := wtOf v } }

def State.wrSlipLimit (s : State) (port : Mgmt) (v : W32) : State :=
  let n : W16 := v.setWidth 16
  s.guarded port 0x010030 fun s =>
    s.rwl port 0x010030 (n != s.jq.slipLimit) (n != 0) fun s => { s with jq := { s.jq with slipLimit := n } }

def State.wrVTimeout (s : State) (port : Mgmt) (v : W32) : State :=
  let n : BitVec 24 := v.setWidth 24
  s.guarded port 0x010034 fun s =>
    s.rwl port 0x010034 (n != s.jq.vTimeout) (decide (16 ≤ n.toNat)) fun s => { s with jq := { s.jq with vTimeout := n } }

def State.wrJiCfg (s : State) (port : Mgmt) (v : W32) : State :=
  let en : BitVec 4 := v.setWidth 4
  let dup := v.getLsbD 4
  s.guarded port 0x020000 fun s =>
    s.rwl port 0x020000 (en != s.ji.tqEn || dup != s.ji.dupFault) true fun s => { s with ji := { s.ji with tqEn := en, dupFault := dup } }

def State.wrTol (s : State) (port : Mgmt) (v : W32) : State :=
  s.guarded port 0x050004 fun s =>
    s.rwl port 0x050004 (v != s.jk.tol) true fun s => { s with jk := { s.jk with tol := v } }

/-- `JU_REPLICA`: ACT is RWL, MISMATCH W1C. -/
def State.wrReplica (s : State) (port : Mgmt) (v : W32) : State :=
  let act := v.getLsbD 3
  s.guarded port 0x060008 fun s =>
    s.rwl port 0x060008 (act != s.ju.rep.act) true fun s =>
      { s with ju := { s.ju with rep := { s.ju.rep with act := act, mismatch := s.ju.rep.mismatch && !v.getLsbD 0 } } }

def State.wrBuddyCfg (s : State) (port : Mgmt) (v : W32) : State :=
  let k : W16 := v.setWidth 16
  let d : Byte := v.extractLsb' 16 8
  s.guarded port 0x06000C fun s =>
    let good := k != 0 && d != 0 && (s.decl.replicaDomain.isNone || k.toNat % d.toNat == 0)
    s.rwl port 0x06000C (k != s.ju.period || d != s.ju.digestPeriod) good fun s =>
      { s with ju := { s.ju with period := k, digestPeriod := d } }

def State.wrJlCfg (s : State) (port : Mgmt) (v : W32) : State :=
  let lim : BitVec 4 := v.setWidth 4
  let rto : Byte := v.extractLsb' 4 8
  let wait : W16 := v.extractLsb' 16 16
  s.guarded port 0x070000 fun s =>
    s.rwl port 0x070000 (lim != s.jl.retryLimit || rto != s.jl.retryTo || wait != s.jl.bootWait) (lim != 0) fun s =>
      { s with jl := { s.jl with retryLimit := lim, retryTo := rto, bootWait := wait } }

def State.wrCc (s : State) (port : Mgmt) (v : W32) : State :=
  let w : Byte := v.setWidth 8
  let gap : Byte := v.extractLsb' 8 8
  let hold : Byte := v.extractLsb' 16 8
  s.guarded port 0x080008 fun s =>
    s.rwl port 0x080008 (w != s.je.wInit || gap != s.je.cnpGap || hold != s.je.pfcHoldMs) (w != 0) fun s =>
      { s with je := { s.je with wInit := w, cnpGap := gap, pfcHoldMs := hold } }

def State.wrPfc (s : State) (port : Mgmt) (n : Nat) (v : W32) : State :=
  let x : BitVec 12 := v.setWidth 12
  let off := 0x081008 + 0x100 * n
  s.guarded port off fun s =>
    s.rwl port off (x != (s.eth n).xoff) true fun s => s.setEth n fun p => { p with xoff := x }

def State.wrJcCfg (s : State) (port : Mgmt) (v : W32) : State :=
  let b := v.getLsbD 0
  s.guarded port 0x0A0000 fun s =>
    s.rwl port 0x0A0000 (b != s.jc.verify) true fun s => { s with jc := { s.jc with verify := b } }

/-- A 48-bit address with one of its two words written. -/
def setAddr (a : Addr) (word : Nat) (v : W32) : Addr :=
  if word = 0 then BitVec.ofNat 48 (a.toNat / 2 ^ 32 * 2 ^ 32 + v.toNat)
  else BitVec.ofNat 48 (v.toNat % 65536 * 2 ^ 32 + a.toNat % 2 ^ 32)

/-- `JM_STAT(n)`: HALT, HALF_SEEN and OVERRUN are W1C. -/
def Chan.wrStat (c : Chan) (v : W32) : Chan :=
  { c with halt := c.halt && !v.getLsbD 2, halfSeen := c.halfSeen && !v.getLsbD 9, overrun := c.overrun && !v.getLsbD 10 }

/-- A register of a channel written: a new address of the side that a list describes starts the list anew
(notes/assumptions/35.md). -/
def Chan.wrReg (c : Chan) (o : Nat) (v : W32) : Chan :=
  match o with
  | 0x08 => { c with pace := v &&& 0xFFFFFF1F }
  | 0x0C => { c with cnt := v }
  | 0x10 => { c with src := setAddr c.src 0 v, sgDone := if c.sg && !c.sgDst then 0 else c.sgDone }
  | 0x14 => { c with src := setAddr c.src 1 v, sgDone := if c.sg && !c.sgDst then 0 else c.sgDone }
  | 0x18 => { c with dst := setAddr c.dst 0 v, sgDone := if c.sg && c.sgDst then 0 else c.sgDone }
  | 0x1C => { c with dst := setAddr c.dst 1 v, sgDone := if c.sg && c.sgDst then 0 else c.sgDone }
  | _ => c

/-- The one write that an offload channel takes: HALT is cleared, after which a ring reruns the entry (R305;
notes/assumptions/35.md). -/
def State.haltOpens (s : State) (ch : Nat) (v : W32) : Bool :=
  s.offloadOn && decide (60 ≤ ch) && (s.chan ch).halt && v.getLsbD 2

/-- A write to a register of a Mover channel (R296, R303, R305). -/
def State.wrChan (s : State) (port : Mgmt) (ch o : Nat) (v : W32) : State :=
  let off := 0x090000 + 0x40 * ch + o
  if o = 0 then s.wrCtl port ch v
  else
    s.guarded port off fun s =>
      if o = 4 ∧ s.haltOpens ch v then (s.setChan ch fun c => { c with halt := false }).ok port
      else if s.chanClosed ch then s.reject port off
      else if o = 4 then (s.setChan ch fun c => c.wrStat v).ok port
      else if 0x20 ≤ o then s.ok port
      else if (s.chan ch).running then s.reject port off
      else (s.setChan ch fun c => c.wrReg o v).ok port

/-- Bits of a 64-bit register cleared by a write of ones to one of its words. -/
def w1cWord (x : W64) (word : Nat) (v : W32) : W64 := x &&& ~~~BitVec.ofNat 64 (v.toNat * 2 ^ (32 * word))

/-- One word of a 64-bit register written. -/
def setWord (x : W64) (word : Nat) (v : W32) : W64 :=
  if word = 0 then BitVec.ofNat 64 (x.toNat / 2 ^ 32 * 2 ^ 32 + v.toNat)
  else BitVec.ofNat 64 (v.toNat * 2 ^ 32 + x.toNat % 2 ^ 32)

/-- A write to the Mover block. -/
def State.wrJM (s : State) (port : Mgmt) (o : Nat) (v : W32) : State :=
  let off := 0x090000 + o
  if o < 0x1000 then s.wrChan port (o / 64) (o % 64) v
  else if o < 0x1008 then s.plain port off fun s => { s with jm := { s.jm with done := w1cWord s.jm.done ((o - 0x1000) / 4) v } }
  else if o < 0x1010 then s.plain port off fun s => { s with jm := { s.jm with irqEn := setWord s.jm.irqEn ((o - 0x1008) / 4) v } }
  else if o < 0x1040 then
    let q := (o - 0x1020) / 4
    s.plain port off fun s =>
      ({ s with jm := { s.jm with qfill := modifyNth (fun _ => v.setWidth 12) q s.jm.qfill } }).repace (8 + q)
  else s.plain port off id

/-- `JS_EV_TAIL`: an index from TAIL to HEAD, and no overwrite advance in the same cycle (R382). -/
def State.wrTail (s : State) (port : Mgmt) (v : W32) (overwrite : Bool) : State :=
  s.guarded port 0x0B0064 fun s =>
    let r := s.js.ring
    let n : BitVec 12 := v.setWidth 12
    if overwrite || decide ((r.head - r.tail).toNat < (n - r.tail).toNat) then s.reject port 0x0B0064
    else ({ s with js := { s.js with ring := { r with tail := n } } }).ok port

def execEvTailWrite (port : Mgmt) (value : W32) (overwrite : Bool) (s : State) : Host.Outcome State Fault Refusal :=
  run (fun s => s.wrTail port value overwrite) s

/-- A command code written to `JS_CMD` as a register: what the hardware finds (self-tests, the flash, the file in host memory) is
free here; the commands' own rows carry it (R343, R376, R388; notes/assumptions/5.md, 6.md). -/
def State.wrCmd (s : State) (port : Mgmt) (v : W32) : State :=
  let d := s.draw
  let good := (Config.openByte d.1).getLsbD 0
  let t := d.2
  match v.toNat % 256 with
  | 0x01 => s.cmdNop port
  | 0x02 => s.cmdQuiesce port
  | 0x03 => s.cmdResume port
  | 0x04 => t.cmdLiveSwap port good
  | 0x05 => s.cmdUnstage port
  | 0x06 => s.cmdClearDb port
  | 0x07 => s.cmdExport port
  | 0x08 => t.cmdStagingTest port good
  | 0x09 =>
    let a := fun n => (s.js.cmd.args.getD n 0).toNat
    t.cmdImageWrite port (Config.sxiParse (memRead s.hostMem (a 0 + a 1 * 2 ^ 32) (a 2))) good
  | 0x0A => t.cmdImageCommit port good
  | 0x20 => s.cmdTileRetire port
  | 0x21 => t.cmdTileTest port good
  | 0x22 => s.cmdTileAdmit port
  | 0x23 => s.cmdPortRetire port
  | 0x24 => s.cmdPortAdmit port
  | 0x25 => s.cmdRestoreSend port
  | 0x26 => s.cmdRollback port
  | 0x27 => s.cmdTakeover port
  | 0x28 => s.cmdTwinSwap port
  | c => s.giveCmd port c true fun s => s.result 1

/-- A write to the service block. -/
def State.wrJS (s : State) (port : Mgmt) (o : Nat) (v : W32) : State :=
  match o with
  | 0x10 => s.wrCmd port v
  | 0x40 => s.plain port 0x0B0040 fun s => { s with js := { s.js with cmdEvent := v.getLsbD 0 } }
  | 0x44 => s.wrLock port v
  | 0x48 => s.wrLease port v
  | 0x64 => s.wrTail port v false
  | 0x6C => s.plain port 0x0B006C fun s =>
      let r := s.js.ring
      { s with js := { s.js with ring := { r with irqErr := r.irqErr && !v.getLsbD 0, irqFatal := r.irqFatal && !v.getLsbD 1 } } }
  | 0x70 => s.plain port 0x0B0070 fun s =>
      { s with js := { s.js with ring := { s.js.ring with enErr := v.getLsbD 0, enFatal := v.getLsbD 1 } } }
  | _ => if 0x20 ≤ o ∧ o < 0x40 then s.wrCmdArg port ((o - 0x20) / 4) v else s.plain port (0x0B0000 + o) id

/-- The write of one register. -/
def State.regWrite (s : State) (port : Mgmt) (off : Nat) (v : W32) : State :=
  match off with
  | 0x000000 => s.plain port off fun s =>
      { s with jg := { s.jg with nf := { s.jg.nf with seen := s.jg.nf.seen &&& ~~~v.extractLsb' 16 6 } } }
  | 0x000004 => s.plain port off fun s =>
      { s with jg := { s.jg with epoch := { s.jg.epoch with staleSeen := s.jg.epoch.staleSeen && !v.getLsbD 6 } } }
  | 0x010030 => s.wrSlipLimit port v
  | 0x010034 => s.wrVTimeout port v
  | 0x010040 => s.wrDbRing port v
  | 0x010044 => s.wrModeReq port v
  | 0x020000 => s.wrJiCfg port v
  | 0x030010 => s.wrVcWt port v
  | 0x030014 => s.wrVcWtCk port v
  | 0x050000 => s.wrJkCfg port v
  | 0x050004 => s.wrTol port v
  | 0x060000 => s.wrCommitGate port v
  | 0x060004 => s.plain port off fun s => { s with ju := { s.ju with clip := v } }
  | 0x060008 => s.wrReplica port v
  | 0x06000C => s.wrBuddyCfg port v
  | 0x060030 => s.plain port off fun s =>
      { s with ju := { s.ju with progFault := { s.ju.progFault with valid := s.ju.progFault.valid && !v.getLsbD 3 } } }
  | 0x070000 => s.wrJlCfg port v
  | 0x080000 => s.wrSqDb port v
  | 0x080004 => s.plain port off fun s => { s with je := { s.je with pi := v.setWidth 16 } }
  | 0x080008 => s.wrCc port v
  | 0x080010 => s.plain port off fun s => { s with je := { s.je with errValid := s.je.errValid && !v.getLsbD 19 } }
  | 0x080018 => s.wrPage port v
  | 0x081008 => s.wrPfc port 0 v
  | 0x081108 => s.wrPfc port 1 v
  | 0x0A0000 => s.wrJcCfg port v
  | 0x0A0008 => s.plain port off fun s => { s with jc := { s.jc with badValid := s.jc.badValid && !v.getLsbD 3 } }
  | 0x100000 => s.wrJpSlew port v
  | 0x800000 => s.plain port off fun s => { s with jt := { s.jt with schedIdx := v.setWidth 18 } }
  | _ =>
    if 0x090000 ≤ off ∧ off < 0x0A0000 then s.wrJM port (off - 0x090000) v
    else if 0x0B0000 ≤ off ∧ off < 0x0C0000 then s.wrJS port (off - 0x0B0000) v
    else s.plain port off id

/-- `JS_CMD` and `JS_CMD_ARG(0–7)`, which the busy rule of R342 guards. -/
def cmdReg (off : Nat) : Bool := off == 0x0B0010 || (decide (0x0B0020 ≤ off) && decide (off < 0x0B0040))

/-- A whole write access: decoding, the busy checks, the arbiter's conflict, and the register's own rules (R336, R341). -/
def State.busWrite (s : State) (port : Mgmt) (off : Nat) (v : W32) (be : BitVec 4) (lost : Bool) : State :=
  if s.inReset then s
  else if (s.readReg off).isNone || (port == .mw && be != 0xF) then s.refuse port off 5
  else if s.accessBusy port off true || (s.js.cmd.busy && cmdReg off) then s.refuse port off 1
  else if lost && port == .mw then s.refuse port off 2
  else s.regWrite port off v

def execRegisterWrite (port : Mgmt) (offset : BitVec 24) (value : W32) (be : BitVec 4) (lost : Bool) (s : State) :
    Host.Outcome State Fault Refusal :=
  run (fun s => s.busWrite port offset.toNat value be lost) s

/-! ### The serial target port (R338–R340) -/

/-- Odd parity over the header word. -/
def hdrParity (h : W32) : Bool := (List.range 32).foldl (fun b i => xor b (h.getLsbD i)) false

/-- Parity and the reserved bits of a header. -/
def hdrOk (h : W32) : Bool := hdrParity h && h.extractLsb' 24 6 == 0 && h.extractLsb' 0 2 == 0

/-- The status word (R338). -/
def smWord (done : Byte) (code : BitVec 3) : W32 := pk [(0, code.toNat), (16, done.toNat), (24, 0xA5)]

/-- The access of one transaction: a write at the 64th rising edge, a read's effects at the 96th; a faulty header makes none. -/
def State.smAccess (s : State) (hdr data : W32) (edges : Nat) : State :=
  let off := hdr.toNat % 2 ^ 24
  if !hdrOk hdr then
    if 32 ≤ edges then
      ({ s with js := { s.js with smFrame := stick s.js.smFrame 1 } }).respond .sm 6 0
    else s
  else if hdr.getLsbD 30 then (if 64 ≤ edges then s.busWrite .sm off data 0xF false else s)
  else if 96 ≤ edges then s.busRead .sm off
  else s

/-- One SM transaction of so many rising edges. -/
def State.smRun (s : State) (hdr data : W32) (edges : Nat) : State :=
  if s.inReset then s
  else
    let total := if hdr.getLsbD 30 then 96 else 128
    let s := s.smAccess hdr data edges
    if edges < total then { s with js := { s.js with smPartial := stick s.js.smPartial 1 } }
    else
      let s := { s with js := { s.js with smStatus := smWord s.js.smDone s.js.sm.code, smDone := s.js.smDone + 1 } }
      if total < edges then { s with js := { s.js with smExtra := stick s.js.smExtra 1 } } else s

def execSmTransaction (hdr data : W32) (edges : Nat) (s : State) : Host.Outcome State Fault Refusal :=
  run (fun s => s.smRun hdr data edges) s

end Sys2Proof.Machine
end

