-- ==== Sys2Proof/Machine/Dispatch.lean ====
section
/-!
DEFINITION. The meaning of each command: one arm per constructor of Instr.
-/

namespace Sys2Proof.Machine

def exec (i : Instr) (s : State) : Host.Outcome State Fault Refusal :=
  match i with
  | .slotStart a0 => Sys2Proof.Machine.execSlotStart a0 s
  | .slotCompletionCheck a0 => Sys2Proof.Machine.execSlotCompletionCheck a0 s
  | .gateTimeout a0 a1 => Sys2Proof.Machine.execGateTimeout a0 a1 s
  | .doorbellRing a0 a1 => Sys2Proof.Machine.execDoorbellRing a0 a1 s
  | .modeReqWrite a0 a1 => Sys2Proof.Machine.execModeReqWrite a0 a1 s
  | .boundaryPeriod => Sys2Proof.Machine.execBoundaryPeriod s
  | .verdictEntry => Sys2Proof.Machine.execVerdictEntry s
  | .verdictTimeout => Sys2Proof.Machine.execVerdictTimeout s
  | .verdictLostTimeout => Sys2Proof.Machine.execVerdictLostTimeout s
  | .commitPulse => Sys2Proof.Machine.execCommitPulse s
  | .skipDecision => Sys2Proof.Machine.execSkipDecision s
  | .boundarySwitch => Sys2Proof.Machine.execBoundarySwitch s
  | .quiescedSet => Sys2Proof.Machine.execQuiescedSet s
  | .tileReceive a0 a1 a2 a3 => Sys2Proof.Machine.execTileReceive a0 a1 a2 a3 s
  | .heldDescriptorRelease a0 a1 a2 => Sys2Proof.Machine.execHeldDescriptorRelease a0 a1 a2 s
  | .producerReset a0 => Sys2Proof.Machine.execProducerReset a0 s
  | .producerUp a0 => Sys2Proof.Machine.execProducerUp a0 s
  | .maskBuild a0 a1 => Sys2Proof.Machine.execMaskBuild a0 a1 s
  | .chunkReceive a0 a1 a2 a3 => Sys2Proof.Machine.execChunkReceive a0 a1 a2 a3 s
  | .gatherFlagWrite a0 => Sys2Proof.Machine.execGatherFlagWrite a0 s
  | .shiftFlagWrite a0 => Sys2Proof.Machine.execShiftFlagWrite a0 s
  | .gazelleCell a0 a1 a2 a3 => Sys2Proof.Machine.execGazelleCell a0 a1 a2 a3 s
  | .gazelleCapWindow => Sys2Proof.Machine.execGazelleCapWindow s
  | .arrayTileDrain a0 a1 => Sys2Proof.Machine.execArrayTileDrain a0 a1 s
  | .factorMerge a0 a1 => Sys2Proof.Machine.execFactorMerge a0 a1 s
  | .markhorRefreshStart => Sys2Proof.Machine.execMarkhorRefreshStart s
  | .markhorIteration => Sys2Proof.Machine.execMarkhorIteration s
  | .markhorHold a0 a1 => Sys2Proof.Machine.execMarkhorHold a0 a1 s
  | .chunkPassStart a0 => Sys2Proof.Machine.execChunkPassStart a0 s
  | .blockSectionStart a0 => Sys2Proof.Machine.execBlockSectionStart a0 s
  | .prePassStart a0 => Sys2Proof.Machine.execPrePassStart a0 s
  | .passComplete a0 => Sys2Proof.Machine.execPassComplete a0 s
  | .chunkConsumed a0 => Sys2Proof.Machine.execChunkConsumed a0 s
  | .nop a0 a1 => Sys2Proof.Machine.execNop a0 a1 s
  | .mov a0 a1 => Sys2Proof.Machine.execMov a0 a1 s
  | .add a0 a1 => Sys2Proof.Machine.execAdd a0 a1 s
  | .sub a0 a1 => Sys2Proof.Machine.execSub a0 a1 s
  | .mul a0 a1 => Sys2Proof.Machine.execMul a0 a1 s
  | .div a0 a1 => Sys2Proof.Machine.execDiv a0 a1 s
  | .min a0 a1 => Sys2Proof.Machine.execMin a0 a1 s
  | .max a0 a1 => Sys2Proof.Machine.execMax a0 a1 s
  | .fma a0 a1 => Sys2Proof.Machine.execFma a0 a1 s
  | .fnma a0 a1 => Sys2Proof.Machine.execFnma a0 a1 s
  | .sqrt a0 a1 => Sys2Proof.Machine.execSqrt a0 a1 s
  | .abs a0 a1 => Sys2Proof.Machine.execAbs a0 a1 s
  | .neg a0 a1 => Sys2Proof.Machine.execNeg a0 a1 s
  | .clt a0 a1 => Sys2Proof.Machine.execClt a0 a1 s
  | .sel a0 a1 => Sys2Proof.Machine.execSel a0 a1 s
  | .ld a0 a1 => Sys2Proof.Machine.execLd a0 a1 s
  | .st a0 a1 => Sys2Proof.Machine.execSt a0 a1 s
  | .ldx a0 a1 => Sys2Proof.Machine.execLdx a0 a1 s
  | .stx a0 a1 => Sys2Proof.Machine.execStx a0 a1 s
  | .acc a0 a1 => Sys2Proof.Machine.execAcc a0 a1 s
  | .accsq a0 a1 => Sys2Proof.Machine.execAccsq a0 a1 s
  | .fold a0 a1 => Sys2Proof.Machine.execFold a0 a1 s
  | .commitApprove a0 a1 => Sys2Proof.Machine.execCommitApprove a0 a1 s
  | .commitVeto a0 a1 => Sys2Proof.Machine.execCommitVeto a0 a1 s
  | .buddyCopyComplete => Sys2Proof.Machine.execBuddyCopyComplete s
  | .buddyHeaderReceive a0 => Sys2Proof.Machine.execBuddyHeaderReceive a0 s
  | .buddyTrailerReceive a0 a1 a2 => Sys2Proof.Machine.execBuddyTrailerReceive a0 a1 a2 s
  | .scheduleLoad => Sys2Proof.Machine.execScheduleLoad s
  | .dataFrame a0 a1 => Sys2Proof.Machine.execDataFrame a0 a1 s
  | .ackFrame a0 a1 => Sys2Proof.Machine.execAckFrame a0 a1 s
  | .retryFrame a0 a1 => Sys2Proof.Machine.execRetryFrame a0 a1 s
  | .creditFrame a0 a1 => Sys2Proof.Machine.execCreditFrame a0 a1 s
  | .identFrame a0 a1 => Sys2Proof.Machine.execIdentFrame a0 a1 s
  | .notReadyFrame a0 a1 => Sys2Proof.Machine.execNotReadyFrame a0 a1 s
  | .degradeFrame a0 a1 => Sys2Proof.Machine.execDegradeFrame a0 a1 s
  | .retryTimeout a0 => Sys2Proof.Machine.execRetryTimeout a0 s
  | .ackTimer a0 => Sys2Proof.Machine.execAckTimer a0 s
  | .creditTimer a0 => Sys2Proof.Machine.execCreditTimer a0 s
  | .markerReceive a0 a1 a2 => Sys2Proof.Machine.execMarkerReceive a0 a1 a2 s
  | .markerTransmit a0 a1 => Sys2Proof.Machine.execMarkerTransmit a0 a1 s
  | .codewordDecode a0 a1 a2 a3 => Sys2Proof.Machine.execCodewordDecode a0 a1 a2 a3 s
  | .laneLos a0 a1 => Sys2Proof.Machine.execLaneLos a0 a1 s
  | .degradeRepeat a0 => Sys2Proof.Machine.execDegradeRepeat a0 s
  | .degradeRealignTimeout a0 => Sys2Proof.Machine.execDegradeRealignTimeout a0 s
  | .trainingAttempt a0 => Sys2Proof.Machine.execTrainingAttempt a0 s
  | .trainingAlignTimeout a0 => Sys2Proof.Machine.execTrainingAlignTimeout a0 s
  | .trainingIdentTimeout a0 => Sys2Proof.Machine.execTrainingIdentTimeout a0 s
  | .adaptDone a0 => Sys2Proof.Machine.execAdaptDone a0 s
  | .bootWaitExpiry => Sys2Proof.Machine.execBootWaitExpiry s
  | .qpContextLoad a0 a1 => Sys2Proof.Machine.execQpContextLoad a0 a1 s
  | .sqDoorbell a0 a1 => Sys2Proof.Machine.execSqDoorbell a0 a1 s
  | .rqDoorbell a0 a1 => Sys2Proof.Machine.execRqDoorbell a0 a1 s
  | .roceRequestPacket a0 a1 => Sys2Proof.Machine.execRoceRequestPacket a0 a1 s
  | .roceAck a0 a1 a2 => Sys2Proof.Machine.execRoceAck a0 a1 a2 s
  | .roceNak a0 a1 a2 a3 => Sys2Proof.Machine.execRoceNak a0 a1 a2 a3 s
  | .rnrNak a0 a1 a2 a3 => Sys2Proof.Machine.execRnrNak a0 a1 a2 a3 s
  | .readResponse a0 a1 a2 a3 a4 => Sys2Proof.Machine.execReadResponse a0 a1 a2 a3 a4 s
  | .cnp a0 a1 => Sys2Proof.Machine.execCnp a0 a1 s
  | .pfcFrame a0 a1 a2 => Sys2Proof.Machine.execPfcFrame a0 a1 a2 s
  | .roceAckTimeout a0 => Sys2Proof.Machine.execRoceAckTimeout a0 s
  | .rnrTimerExpiry a0 => Sys2Proof.Machine.execRnrTimerExpiry a0 s
  | .pfcXoffRepeat a0 => Sys2Proof.Machine.execPfcXoffRepeat a0 s
  | .pageDone a0 a1 => Sys2Proof.Machine.execPageDone a0 a1 s
  | .ethLinkChange a0 a1 => Sys2Proof.Machine.execEthLinkChange a0 a1 s
  | .pfcHoldTimeout a0 a1 => Sys2Proof.Machine.execPfcHoldTimeout a0 a1 s
  | .ethConfigLoad => Sys2Proof.Machine.execEthConfigLoad s
  | .moverStart a0 a1 a2 => Sys2Proof.Machine.execMoverStart a0 a1 a2 s
  | .moverPause a0 a1 a2 => Sys2Proof.Machine.execMoverPause a0 a1 a2 s
  | .moverUnpause a0 a1 a2 => Sys2Proof.Machine.execMoverUnpause a0 a1 a2 s
  | .moverStop a0 a1 a2 => Sys2Proof.Machine.execMoverStop a0 a1 a2 s
  | .moverDrained a0 a1 => Sys2Proof.Machine.execMoverDrained a0 a1 s
  | .moverComplete a0 => Sys2Proof.Machine.execMoverComplete a0 s
  | .memResponse a0 a1 a2 a3 => Sys2Proof.Machine.execMemResponse a0 a1 a2 a3 s
  | .memRequestTimeout a0 => Sys2Proof.Machine.execMemRequestTimeout a0 s
  | .pacingThreshold a0 a1 => Sys2Proof.Machine.execPacingThreshold a0 a1 s
  | .offloadEntryComplete a0 => Sys2Proof.Machine.execOffloadEntryComplete a0 s
  | .kvBlockEncode a0 => Sys2Proof.Machine.execKvBlockEncode a0 s
  | .kvBlockWritten a0 a1 => Sys2Proof.Machine.execKvBlockWritten a0 a1 s
  | .expanderSlot a0 a1 a2 a3 => Sys2Proof.Machine.execExpanderSlot a0 a1 a2 a3 s
  | .expanderFetchResponse a0 a1 a2 a3 => Sys2Proof.Machine.execExpanderFetchResponse a0 a1 a2 a3 s
  | .xtConfigWrite => Sys2Proof.Machine.execXtConfigWrite s
  | .xtEpochAdvance => Sys2Proof.Machine.execXtEpochAdvance s
  | .xrReport a0 => Sys2Proof.Machine.execXrReport a0 s
  | .jporNAssert => Sys2Proof.Machine.execJporNAssert s
  | .jporNRelease a0 a1 => Sys2Proof.Machine.execJporNRelease a0 a1 s
  | .jwrstNAssert => Sys2Proof.Machine.execJwrstNAssert s
  | .jwrstNRelease => Sys2Proof.Machine.execJwrstNRelease s
  | .inrushDone => Sys2Proof.Machine.execInrushDone s
  | .bootVerifyComplete a0 => Sys2Proof.Machine.execBootVerifyComplete a0 s
  | .nopCommand a0 => Sys2Proof.Machine.execNopCommand a0 s
  | .quiesce a0 => Sys2Proof.Machine.execQuiesce a0 s
  | .resume a0 => Sys2Proof.Machine.execResume a0 s
  | .liveSwap a0 a1 => Sys2Proof.Machine.execLiveSwap a0 a1 s
  | .unstage a0 => Sys2Proof.Machine.execUnstage a0 s
  | .clearDb a0 => Sys2Proof.Machine.execClearDb a0 s
  | .exportCmd a0 => Sys2Proof.Machine.execExportCmd a0 s
  | .stagingTest a0 a1 => Sys2Proof.Machine.execStagingTest a0 a1 s
  | .imageWrite a0 a1 a2 => Sys2Proof.Machine.execImageWrite a0 a1 a2 s
  | .imageCommit a0 a1 => Sys2Proof.Machine.execImageCommit a0 a1 s
  | .tileRetire a0 => Sys2Proof.Machine.execTileRetire a0 s
  | .tileTest a0 a1 => Sys2Proof.Machine.execTileTest a0 a1 s
  | .tileAdmit a0 => Sys2Proof.Machine.execTileAdmit a0 s
  | .portRetire a0 => Sys2Proof.Machine.execPortRetire a0 s
  | .portAdmit a0 => Sys2Proof.Machine.execPortAdmit a0 s
  | .restoreSend a0 => Sys2Proof.Machine.execRestoreSend a0 s
  | .rollback a0 => Sys2Proof.Machine.execRollback a0 s
  | .takeover a0 => Sys2Proof.Machine.execTakeover a0 s
  | .twinSwap a0 => Sys2Proof.Machine.execTwinSwap a0 s
  | .commandComplete => Sys2Proof.Machine.execCommandComplete s
  | .cmdArgWrite a0 a1 a2 => Sys2Proof.Machine.execCmdArgWrite a0 a1 a2 s
  | .take a0 a1 => Sys2Proof.Machine.execTake a0 a1 s
  | .renew a0 a1 => Sys2Proof.Machine.execRenew a0 a1 s
  | .release a0 a1 => Sys2Proof.Machine.execRelease a0 a1 s
  | .leaseExpiry => Sys2Proof.Machine.execLeaseExpiry s
  | .lockLeaseWrite a0 a1 => Sys2Proof.Machine.execLockLeaseWrite a0 a1 s
  | .evTailWrite a0 a1 a2 => Sys2Proof.Machine.execEvTailWrite a0 a1 a2 s
  | .smTransaction a0 a1 a2 => Sys2Proof.Machine.execSmTransaction a0 a1 a2 s
  | .registerWrite a0 a1 a2 a3 a4 => Sys2Proof.Machine.execRegisterWrite a0 a1 a2 a3 a4 s
  | .rcRead a0 a1 => Sys2Proof.Machine.execRcRead a0 a1 s
  | .latchedWindowRead a0 a1 => Sys2Proof.Machine.execLatchedWindowRead a0 a1 s
  | .duikerWatchdog a0 => Sys2Proof.Machine.execDuikerWatchdog a0 s
  | .duikerRestartComplete => Sys2Proof.Machine.execDuikerRestartComplete s
  | .telemetrySample a0 a1 => Sys2Proof.Machine.execTelemetrySample a0 a1 s
  | .nvmCommandTimeout a0 a1 a2 => Sys2Proof.Machine.execNvmCommandTimeout a0 a1 a2 s
  | .fuseAckTimeout a0 => Sys2Proof.Machine.execFuseAckTimeout a0 s
  | .tileFailure a0 => Sys2Proof.Machine.execTileFailure a0 s
  | .tileWatchdog a0 => Sys2Proof.Machine.execTileWatchdog a0 s
  | .twinCheckReceive a0 => Sys2Proof.Machine.execTwinCheckReceive a0 s
  | .twinSilenceTimeout => Sys2Proof.Machine.execTwinSilenceTimeout s
  | .restoreAckTimeout => Sys2Proof.Machine.execRestoreAckTimeout s
  | .restoreDataReceive a0 a1 a2 => Sys2Proof.Machine.execRestoreDataReceive a0 a1 a2 s
  | .pfcPauseExpiry a0 a1 => Sys2Proof.Machine.execPfcPauseExpiry a0 a1 s
  | .unitFailure a0 => Sys2Proof.Machine.execUnitFailure a0 s

end Sys2Proof.Machine
end

