-- ==== Sys2Proof/Safety.lean ====
section
/-!
DEFINITION. What counts as a sound state and as a safe run of Jalos-2, in the terms the statements use.
-/

namespace Sys2Proof.Machine

/-- Every memory is in its canonical form. -/
def State.memOk (s : State) : Bool :=
  Memory.wf s.hostMem && Memory.wf s.stateMem && Memory.wf s.scratch && Memory.wf s.staging && Memory.wf s.ethBuf &&
    Memory.wf s.jq.db && s.tiles.all fun t => Memory.wf t.regS && Memory.wf t.regSBlock

/-- `JG_EPOCH.PREVIOUS` is CURRENT − 1 modulo 4 (R37). -/
def State.epochOk (s : State) : Bool := s.jg.epoch.previous == s.jg.epoch.current - 1

/-- Every event recorded so far stands in the ring (R347). -/
def State.eventsIn (s : State) : Bool := s.js.ring.evq.isEmpty

/-- A member that works: boot did not end in SAFE, and the member has neither failed nor halted (R333, R362). -/
def State.working (s : State) : Bool := s.js.boot.state != 6 && s.jg.member.state == 0

/-- What stands in the queue names units that exist. -/
def State.queueOk (s : State) : Bool :=
  s.pending.all fun c => match exec c s with
    | .next _ => true
    | _ => false

/-- The event entered last, the entry just below HEAD (R347). -/
def State.newest (s : State) : Option EvEntry := tabGet (s.js.ring.head - 1).toNat s.js.ring.ring

/-- The response a management port was given last (R336). -/
def State.response (s : State) (port : Mgmt) : Resp :=
  match port with
  | .mw => s.js.mw
  | .sm => s.js.sm

/-- Accesses are served: no reset is low, the Duiker runs, and boot is over (R335–R337, R389). -/
def State.listening (s : State) : Bool :=
  !s.inReset && !s.js.restarting && decide (4 ≤ s.js.boot.state.toNat)

/-- A port may change what only the owner of the service lock may change, in a block at rest (R381). -/
def State.serviceable (s : State) (port : Mgmt) : Bool := s.listening && s.holdsLock port && s.jq.quiesced

/-- A command ends in the given state, in which its events have entered the ring; nothing was driven before it and the
queue stays. -/
def Does (c : Instr) (s : State) (f : State → State) : Prop :=
  exec c s = .next { (f { s with out := [] }).finish with pending := s.pending }

/-- How a write answers that may change a field of type RWL (R336, R381): LOCKED for a port without the service lock, REJECTED while
the block runs or for a value out of range, and otherwise the write's effect with OK. -/
def AnswersRwl (c : Instr) (s : State) (port : Mgmt) (offset : Nat) (changes inRange : Bool) (f : State → State) : Prop :=
  (changes = true → s.holdsLock port = false → Does c s fun s => s.refuse port offset 3) ∧
  (changes = true → s.holdsLock port = true → s.jq.quiesced = false → Does c s fun s => s.refuse port offset 4) ∧
  ((changes = false ∨ (s.holdsLock port = true ∧ s.jq.quiesced = true)) →
    (inRange = false → Does c s fun s => s.refuse port offset 4) ∧ (inRange = true → Does c s fun s => (f s).ok port))

/-- w is the next word of the invocation that runs on a tile, and the tile may issue it (R192, R195, R196). -/
def State.atWord (s : State) (tile : Nat) (w : W32) (x : TileCtx) : Prop :=
  tile < 40 ∧ s.tileCtx tile = some x ∧ s.jq.gen = false ∧ s.inReset = false ∧ x.inv.finished = false ∧ x.inv.preDue = false ∧
    (s.tables x.inv.epoch).code[x.pc]? = some w

/-- The word after this one is next. -/
def State.nextWord (s : State) (x : TileCtx) : State := s.setInv x.tile fun i => i.next x.pass x.iters

/-- A port hears a frame of a type that passes every check: not discarded in resync, start code, HCRC, type, size and end code, no errored
bytes, FCRC (R240, R245, R247–R249). -/
def State.hearsGood (s : State) (p typ : Nat) (f : Frame) : Bool :=
  let h := frameHdr f.hdr
  (s.port p).hears && !s.inResync p f && (s.cutOf p f).all (fun c => !c.errored) && h.sof == 0xD5 && headerCrc f.hdr.toNat == h.hcrc && h.typ == typ && frameSizeOk h f &&
    frameCrc f.hdr f.payload == f.trailer.extractLsb' 0 32

/-- The command of each frame type (R246). -/
def frameCommands : List (Nat × (BitVec 3 → Frame → Instr)) :=
  [(0, .dataFrame), (1, .ackFrame), (2, .retryFrame), (3, .creditFrame), (4, .identFrame), (5, .notReadyFrame),
   (6, .degradeFrame)]

/-- No frame waits for credit or replay space on a port. -/
def State.queuesEmpty (s : State) (p : Nat) : Bool := (s.port p).tx.queues.all List.isEmpty

/-- No queue has anything to send or in flight (R272, R273). -/
def State.sendsIdle (s : State) : Bool :=
  s.je.queues.all fun q => q.ops.isEmpty && q.posted.isEmpty && q.sqCi == q.sqPi

/-- A frame that passes the MAC's checks of R267–R269 on a port whose configuration is loaded. -/
def State.roceGood (s : State) (e : Nat) (i : EthIn) : Bool :=
  (s.eth e).state != 0 && s.je.loaded && decide (64 ≤ i.len) && decide (i.len ≤ 9216) && i.fcsOk &&
    i.supported && i.parses && i.dmac == (s.img.rdma.ports.map EthDecl.mac).getD e 0 && i.icrcOk

/-- A command code may be given from a port: boot and the Duiker are ready, no command runs, the port holds the lock or gives NOP, and
SAFE takes the code (R333, R342–R344). -/
def State.mayGive (s : State) (port : Mgmt) (code : Nat) : Bool :=
  s.listening && !s.js.cmd.busy && (code == 1 || s.holdsLock port) && (s.js.boot.state != 6 || safeAccepts code)

/-- A command starts: BUSY, its code, its arguments latched, and OK to the port (R342). -/
def State.starts (s : State) (port : Mgmt) (code : Nat) : State :=
  ({ s with js := { s.js with cmd := { s.js.cmd with
      busy := true, code := BitVec.ofNat 8 code, latched := s.js.cmd.args, outcome := none, port := port == Mgmt.sm, bytes := 0 } } }).ok
    port

/-- An argument that the next command will latch. -/
def State.argNow (s : State) (n : Nat) : W32 := s.js.cmd.args.getD n 0

/-- A row of the command table (R343, R358, R360, R361, R365–R367, R374): code, command, and when it is allowed. -/
structure CmdRow where
  code : Nat
  cmd : Mgmt → Instr
  allowed : State → Bool

/-- The command table, for a file and an outcome that the surroundings provide. -/
def cmdTable (good : Bool) (file : SxiFile) : List CmdRow :=
  [⟨0x01, .nopCommand, fun _ => true⟩, ⟨0x02, .quiesce, State.atWork⟩, ⟨0x03, .resume, State.restful⟩,
   ⟨0x04, fun p => .liveSwap p good, fun s => s.loaded && s.noneStaged⟩, ⟨0x05, .unstage, fun s => s.jg.epoch.staged⟩,
   ⟨0x06, .clearDb, State.restful⟩, ⟨0x07, .exportCmd, fun s => s.atWork && !s.jq.gen⟩,
   ⟨0x08, fun p => .stagingTest p good, State.restful⟩, ⟨0x09, fun p => .imageWrite p file good, fun _ => true⟩,
   ⟨0x0A, fun p => .imageCommit p good, fun _ => true⟩, ⟨0x20, .tileRetire, State.mapAllowed⟩,
   ⟨0x21, fun p => .tileTest p good, fun _ => true⟩, ⟨0x22, .tileAdmit, State.mapAllowed⟩,
   ⟨0x23, .portRetire, State.mapAllowed⟩, ⟨0x24, .portAdmit, State.mapAllowed⟩,
   ⟨0x25, .restoreSend, fun s => s.restful || (s.jg.member.state == 2 && s.jg.member.donor)⟩,
   ⟨0x26, .rollback, State.restful⟩, ⟨0x27, .takeover, fun s => s.jg.member.state == 3⟩,
   ⟨0x28, .twinSwap, fun s => s.jg.twin.present && s.loaded && s.jg.twin.peerOk && s.jg.twin.fenced.isNone &&
     s.jg.member.state == 0⟩]

/-- Any register write, which must be decoded and whole, on a port that may access (R336). -/
def State.writable (s : State) (port : Mgmt) (off : BitVec 24) (be : BitVec 4) : Bool :=
  s.listening && (s.readReg off.toNat).isSome && (port == .sm || be == 0xF)

/-- A safe step: it answers a next state, in which every event has been recorded. -/
def SafeStep (s : State) : Prop := ∃ t, step s = .next t ∧ t.eventsIn = true

end Sys2Proof.Machine
end

