-- ==== Sys2Proof/WellFormed.lean ====
section
/-!
DEFINITION. Well-formed commands: what the surroundings of Jalos-2 can present at all, by the widths and lengths the
spec gives its ports, tables and frames. The meanings do not rest on it: they answer every command.
-/

namespace Sys2Proof

open Machine

/-- A logical tile (R5). -/
def logicalTile (t : Nat) : Bool := decide (t < 40)

/-- A physical tile (R5). -/
def physicalTile (p : Nat) : Bool := decide (p < 48)

/-- Whole 64-byte beats (R286). -/
def beatsOk (l : List Byte) : Bool := l.length % 64 == 0

/-- LEN has 13 bits and counts 24 bytes besides the payload (R245); a size outside R247's limits is the receiver's to find. -/
def Frame.wf (f : Frame) : Bool := decide (f.payload.length ≤ 8167)

/-- A report names a port or a state port, not both (R31). -/
def Incomplete.wf (r : Incomplete) : Bool := r.onPort.isNone || r.onSp.isNone

/-- A RoCE payload is at most one MTU of 4,096 bytes (R266). -/
def RocePacket.wf (p : RocePacket) : Bool := decide (p.payload.length ≤ 4096)

/-- 26 fuse words (R390) and a tile count that some grade has (R5). -/
def BootObs.wf (o : BootObs) : Bool := o.fuses.length == 26 && (o.tiles == 40 || o.tiles == 44 || o.tiles == 48)

/-- A request's port is that of its address, which is a multiple of 64, and of 512 for a state-port read; an HM tag has 8 bits
(R291–R293). -/
def MemReq.wf (r : MemReq) : Bool :=
  r.addr.toNat % 64 == 0 &&
    match r.port with
    | .hm n => n.toNat == r.addr.toNat / 4096 % 8 && decide (r.tag.toNat < 256)
    | .sp n => n.toNat == r.addr.toNat / 4096 % 16 && (r.write || r.addr.toNat % 512 == 0)

/-- A command that can be presented. -/
def Instr.wf : Instr → Bool
  | .slotStart _ => true
  | .slotCompletionCheck reports => reports.all Incomplete.wf
  | .gateTimeout phase _ => decide (phase.toNat < 8)
  | .doorbellRing _ _ => true
  | .modeReqWrite _ _ => true
  | .boundaryPeriod => true
  | .verdictEntry => true
  | .verdictTimeout => true
  | .verdictLostTimeout => true
  | .commitPulse => true
  | .skipDecision => true
  | .boundarySwitch => true
  | .quiescedSet => true
  | .tileReceive _ desc payload _ => beatsOk payload && (desc.isSome || !payload.isEmpty)
  | .heldDescriptorRelease _ payload _ => beatsOk payload
  | .producerReset _ => true
  | .producerUp _ => true
  | .maskBuild tensor _ => decide (tensor < 262144)
  | .chunkReceive _ vc _ payload => decide (vc.toNat = 1 ∨ vc.toNat = 2) && decide (payload.length ≤ 65536)
  | .gatherFlagWrite gather => decide (gather < 65536)
  | .shiftFlagWrite transfer => decide (transfer < 65536)
  | .gazelleCell _ _ payload _ => payload.length == 64
  | .gazelleCapWindow => true
  | .arrayTileDrain _ _ => true
  | .factorMerge tensor _ => decide (tensor < 262144)
  | .markhorRefreshStart => true
  | .markhorIteration => true
  | .markhorHold _ _ => true
  | .chunkPassStart tile => logicalTile tile
  | .blockSectionStart tile => logicalTile tile
  | .prePassStart tile => logicalTile tile
  | .passComplete tile => logicalTile tile
  | .chunkConsumed _ => true
  | .nop tile _ => logicalTile tile
  | .mov tile _ => logicalTile tile
  | .add tile _ => logicalTile tile
  | .sub tile _ => logicalTile tile
  | .mul tile _ => logicalTile tile
  | .div tile _ => logicalTile tile
  | .min tile _ => logicalTile tile
  | .max tile _ => logicalTile tile
  | .fma tile _ => logicalTile tile
  | .fnma tile _ => logicalTile tile
  | .sqrt tile _ => logicalTile tile
  | .abs tile _ => logicalTile tile
  | .neg tile _ => logicalTile tile
  | .clt tile _ => logicalTile tile
  | .sel tile _ => logicalTile tile
  | .ld tile _ => logicalTile tile
  | .st tile _ => logicalTile tile
  | .ldx tile _ => logicalTile tile
  | .stx tile _ => logicalTile tile
  | .acc tile _ => logicalTile tile
  | .accsq tile _ => logicalTile tile
  | .fold tile _ => logicalTile tile
  | .commitApprove _ _ => true
  | .commitVeto _ _ => true
  | .buddyCopyComplete => true
  | .buddyHeaderReceive _ => true
  | .buddyTrailerReceive _ _ _ => true
  | .scheduleLoad => true
  | .dataFrame _ frame => frame.wf
  | .ackFrame _ frame => frame.wf
  | .retryFrame _ frame => frame.wf
  | .creditFrame _ frame => frame.wf
  | .identFrame _ frame => frame.wf
  | .notReadyFrame _ frame => frame.wf
  | .degradeFrame _ frame => frame.wf
  | .retryTimeout _ => true
  | .ackTimer _ => true
  | .creditTimer _ => true
  | .markerReceive _ _ _ => true
  | .markerTransmit _ _ => true
  | .codewordDecode _ _ low high =>
    (low.length == 4 && high.length == 4 && (low ++ high).all fun l => l.length == 340) ||
      ((low ++ high).length == 4 && (low.isEmpty || high.isEmpty) && (low ++ high).all fun l => l.length == 680)
  | .laneLos _ _ => true
  | .degradeRepeat _ => true
  | .degradeRealignTimeout _ => true
  | .trainingAttempt _ => true
  | .trainingAlignTimeout _ => true
  | .trainingIdentTimeout _ => true
  | .adaptDone _ => true
  | .bootWaitExpiry => true
  | .qpContextLoad _ _ => true
  | .sqDoorbell _ _ => true
  | .rqDoorbell _ _ => true
  | .roceRequestPacket _ pkt => pkt.wf
  | .roceAck _ _ _ => true
  | .roceNak _ _ _ _ => true
  | .rnrNak _ _ _ _ => true
  | .readResponse _ _ _ payload _ => decide (payload.length ≤ 4096)
  | .cnp _ _ => true
  | .pfcFrame _ _ quanta => quanta.length == 8
  | .roceAckTimeout _ => true
  | .rnrTimerExpiry _ => true
  | .pfcXoffRepeat tick => tick.fillKiB.length == 8
  | .pageDone _ _ => true
  | .ethLinkChange _ _ => true
  | .pfcHoldTimeout _ _ => true
  | .ethConfigLoad => true
  | .moverStart _ _ _ => true
  | .moverPause _ _ _ => true
  | .moverUnpause _ _ _ => true
  | .moverStop _ _ _ => true
  | .moverDrained _ _ => true
  | .moverComplete _ => true
  | .memResponse req _ _ _ => req.wf
  | .memRequestTimeout req => req.wf
  | .pacingThreshold _ _ => true
  | .offloadEntryComplete _ => true
  | .kvBlockEncode tile => logicalTile tile
  | .kvBlockWritten _ _ => true
  | .expanderSlot _ _ _ slot => [2048, 2560, 3072, 3584, 4096].contains slot.length
  | .expanderFetchResponse _ line rest _ => line.length == 64 && rest.length % 64 == 0
  | .xtConfigWrite => true
  | .xtEpochAdvance => true
  | .xrReport _ => true
  | .jporNAssert => true
  | .jporNRelease _ _ => true
  | .jwrstNAssert => true
  | .jwrstNRelease => true
  | .inrushDone => true
  | .bootVerifyComplete obs => obs.wf
  | .nopCommand _ => true
  | .quiesce _ => true
  | .resume _ => true
  | .liveSwap _ _ => true
  | .unstage _ => true
  | .clearDb _ => true
  | .exportCmd _ => true
  | .stagingTest _ _ => true
  | .imageWrite _ _ _ => true
  | .imageCommit _ _ => true
  | .tileRetire _ => true
  | .tileTest _ _ => true
  | .tileAdmit _ => true
  | .portRetire _ => true
  | .portAdmit _ => true
  | .restoreSend _ => true
  | .rollback _ => true
  | .takeover _ => true
  | .twinSwap _ => true
  | .commandComplete => true
  | .cmdArgWrite _ _ _ => true
  | .take _ _ => true
  | .renew _ _ => true
  | .release _ _ => true
  | .leaseExpiry => true
  | .lockLeaseWrite _ _ => true
  | .evTailWrite _ _ _ => true
  | .smTransaction _ _ _ => true
  | .registerWrite _ _ _ _ _ => true
  | .rcRead _ _ => true
  | .latchedWindowRead _ _ => true
  | .duikerWatchdog _ => true
  | .duikerRestartComplete => true
  | .telemetrySample _ _ => true
  | .nvmCommandTimeout _ _ _ => true
  | .fuseAckTimeout addr => decide (addr.toNat < 26)
  | .tileFailure loss => physicalTile loss.phys
  | .tileWatchdog phys => physicalTile phys
  | .twinCheckReceive _ => true
  | .twinSilenceTimeout => true
  | .restoreAckTimeout => true
  | .restoreDataReceive _ _ _ => true
  | .pfcPauseExpiry _ _ => true
  | .unitFailure _ => true

end Sys2Proof
end

