-- ==== Sys2Proof/Certificates/Slice0/Obligations.lean ====
section
/-!
DEFINITION. The statements about Jalos-2 for the provers. Each docstring names the rule of spec/ that the statement formalises, or
the assumption-log entry when it rests on a choice of the model. Where a statement writes an outcome through `Does`, the state
inside is given whole: every field not named there is unchanged, and `Does` itself enters the events in the ring.
-/

open Sys2Proof Sys2Proof.Machine

/-! ### The block as a machine -/

/-- A step runs the command at the front of the queue on the rest of the queue, and a block with an empty queue idles (the
empty queue is the model's own: notes/assumptions/1.md). -/
def Obligations.StepRunsTheFrontCommand : Prop :=
  (∀ (c : Instr) (s : State), step { s with pending := c :: s.pending } = exec c s) ∧
  ∀ s : State, s.pending = [] → step s = .next s

/-- Every command that the surroundings can present has a next state: it never stops, it leaves the queue alone, and every
event it records is in the ring when it ends (R347). No step leaves an event unrecorded, and a step never adds to the queue:
what waits after it waited before it (R347; the queue is the model's). A tile command that names a tile Jalos does not have
stops (R5 gives 40 logical tiles and at most 48 physical ones). It rests on what the model takes where the spec is silent:
notes/assumptions/7.md and notes/assumptions/10.md. -/
def Obligations.CommandsComplete : Prop :=
  (∀ (c : Instr) (s : State), c.wf = true → s.eventsIn = true →
    ∃ t, exec c s = .next t ∧ t.pending = s.pending ∧ t.eventsIn = true) ∧
  (∀ s t : State, s.eventsIn = true → step s = .next t → t.eventsIn = true ∧ t.pending = s.pending.tail) ∧
  ((∀ (tile : Nat) (w : W32) (s : State), 40 ≤ tile →
    exec (.nop tile w) s = .fault .noSuchUnit ∧ exec (.add tile w) s = .fault .noSuchUnit ∧
      exec (.fold tile w) s = .fault .noSuchUnit ∧ exec (.chunkPassStart tile) s = .fault .noSuchUnit ∧
      exec (.kvBlockEncode tile) s = .fault .noSuchUnit) ∧
  ∀ (p : Nat) (s : State), 48 ≤ p → exec (.tileWatchdog p) s = .fault .noSuchUnit)

/-- What reset leaves, by the reset columns of the register tables (R37, R344, R350, R352, R378, R383, R384) and R389. -/
def Obligations.ResetLeavesTheGivenValues : Prop :=
  let s := State.reset
  s.jq.slot = 0 ∧ s.jq.quiesced = true ∧ s.jq.running = false ∧ s.jq.phases = 0 ∧ s.jq.gen = false ∧
    s.jq.slipLimit = 0x0100 ∧ s.jq.vTimeout = 0x000800 ∧ s.jq.slips = [0, 0, 0] ∧
    s.jg.epoch.current = 0 ∧ s.jg.epoch.previous = 3 ∧ s.jg.epoch.staged = false ∧
    s.jg.member.state = 0 ∧ s.jg.nf.now = 0 ∧ s.jg.nf.seen = 0 ∧ s.jp.budget = 0x08 ∧ s.jp.levels = List.replicate 15 0 ∧
    s.js.lock.held = false ∧ s.js.lock.lease = 0x03E8 ∧ s.js.ring.head = 0 ∧ s.js.ring.tail = 0 ∧
    s.js.ring.enErr = true ∧ s.js.ring.enFatal = true ∧ s.ju.gateEn = false ∧ s.ju.clip = 0x3F800000 ∧
    s.pins.stepDone = false ∧ s.jirq0 = false ∧ s.jirq1 = false ∧ s.jirq2 = false ∧ s.jirq3 = false ∧
    (∀ n, s.tqReady n = false)

/-! ### Invariants -/

/-- `JG_EPOCH.PREVIOUS` stays CURRENT − 1 modulo 4 whatever command runs (R37). -/
def Obligations.EpochsStayConsecutive : Prop :=
  ∀ s t : State, s.epochOk = true → step s = .next t → t.epochOk = true

/-- The state after reset meets the invariants that steps keep: consecutive epochs, memories in their canonical form, every
event in the ring, an empty queue. It rests on what the model takes where the spec is silent: notes/assumptions/8.md. -/
def Obligations.ResetMeetsTheInvariants : Prop :=
  State.reset.epochOk = true ∧ State.reset.memOk = true ∧ State.reset.eventsIn = true ∧ State.reset.pending = []

/-! ### Events -/

/-- One event enters the ring at HEAD with code, severity, slot, step and items; HEAD advances, a full ring loses its oldest
entry and counts the loss, and severity 1 or 2 latches its interrupt (R347, R349). -/
def Obligations.AnEventEntersTheRing : Prop :=
  ∀ (s : State) (source code sev : Nat) (items : List EvItem), s.eventsIn = true →
    let r := s.js.ring
    let full := r.head + 1 = r.tail
    let t := (s.event source code sev items).finish
    t.newest = some ⟨BitVec.ofNat 16 code, BitVec.ofNat 2 sev, s.jq.slot, s.jq.step, items⟩ ∧
      t.js.ring.head = r.head + 1 ∧ (full → t.js.ring.tail = r.tail + 1 ∧ t.js.ring.lost = stick r.lost 1) ∧
      (¬full → t.js.ring.tail = r.tail ∧ t.js.ring.lost = r.lost) ∧
      t.js.ring.irqErr = (r.irqErr || sev == 1) ∧ t.js.ring.irqFatal = (r.irqFatal || sev == 2) ∧
      t.jirq2 = (t.js.ring.irqErr && t.js.ring.enErr) ∧ t.jirq3 = (t.js.ring.irqFatal && t.js.ring.enFatal) ∧
      t.jirq0 = s.jirq0 ∧ t.jirq1 = s.jirq1 ∧
      (∀ i, i ≠ r.head.toNat → tabGet i t.js.ring.ring = tabGet i r.ring) ∧
      t = { s with js := { s.js with ring := t.js.ring } }

/-! ### The slot sequencer -/

/-- SLOT_START: the slot counter advances by one, once per slot whether or not the schedule runs, and neither the step nor
the epoch changes with it (R13, R27). The issue pass takes the entry of a stream of one when it is due and ungated, leaves it
while it is not due, and holds it when its doorbell has not rung; a held stream issues nothing (R16, R17). It rests on what
the model takes where the spec is silent: notes/assumptions/39.md. -/
def Obligations.SlotsStartAndIssue : Prop :=
  (∀ (s : State) (st : SelfTest), s.inReset = false →
    ∃ t, exec (.slotStart st) s = .next t ∧ t.jq.slot = (if s.jq.begun then s.jq.slot else s.jq.slot + 1) ∧
      t.jq.begun = false ∧ t.jq.step = s.jq.step ∧ t.jg.epoch.current = s.jg.epoch.current ∧
      (s.jq.running = false → s.jq.resuming = false → t.jq.acts = s.jq.acts ∧ t.jq.held = s.jq.held)) ∧
  (∀ (s : State) (a : Activation) (e : SchedEntry), s.jq.acts = [a] → s.sched = [e] → e.phase = a.phase → a.shifts = [] →
    s.jq.held = [] → s.frozen a = false →
    (a.offset < e.slotOff → s.takeDue = (s, [])) ∧
    (e.slotOff ≤ a.offset → e.gate = 0 → s.takeDue.2 = [⟨false, a.id, e.unit, 0, 0⟩]) ∧
    (e.slotOff ≤ a.offset → e.gate = 1 → memGet s.jq.db e.gateArg ≠ 0 → s.takeDue.2 = [⟨false, a.id, e.unit, 0, 0⟩]) ∧
    (e.slotOff ≤ a.offset → e.gate = 1 → memGet s.jq.db e.gateArg = 0 →
      s.takeDue = ({ s with jq := { s.jq with held := [⟨a.id, 0, s.jq.slot, false, false, false⟩] } }, [])))

/-- SLOT_COMPLETION_CHECK: with every unit complete the next slot is not slipped; else it is, for the first cause in the
order link retry, refresh, fault, and a fault sets FAULT; the run of slips grows or a new one starts (R15, R31, R32). The
slot that brings the consecutive slipped slots to SLIP_LIMIT records EV_STALL and sets FAULT (R32). -/
def Obligations.CompletionCheckSlipsTheSlot : Prop :=
  (∀ (s : State) (reports : List Incomplete), s.inReset = false → s.jp.holding = [] → s.jg.tiles.remap = [] →
    s.jq.remapSlot = false → s.jg.twin.diverged = none → s.jq.slipping = false →
    (reports = [] → Does (.slotCompletionCheck reports) s fun s =>
      { s with jq := { s.jq with slipCount := 0, slipEnd := s.jq.run.or s.jq.slipEnd, run := none },
               pins := { s.pins with stepDone := false }, jm := { s.jm with lateRef := [] } }) ∧
    (reports ≠ [] →
      let c := (reports.map s.slipCause).foldl min 3
      let fresh : SlipRun := ⟨c, s.jq.slot + 1, 1, false⟩
      Does (.slotCompletionCheck reports) s fun s =>
        { s with jq := { s.jq with slipCount := 0, forceSlip := true,
                                   verdict := { s.jq.verdict with fault := s.jq.verdict.fault || c == 3 },
                                   run := match s.jq.run with
                                     | none => some fresh
                                     | some r => if r.cause = c then some { r with length := r.length + 1 } else some fresh,
                                   slipEnd := match s.jq.run with
                                     | none => s.jq.slipEnd
                                     | some r => if r.cause = c then s.jq.slipEnd else some r },
                 pins := { s.pins with stepDone := false }, jm := { s.jm with lateRef := [] } })) ∧
  (∀ (s : State) (reports : List Incomplete), s.inReset = false → s.jp.holding = [] → s.jg.tiles.remap = [] →
    s.jq.remapSlot = false → s.jg.twin.diverged = none → s.jq.slipping = true → s.jq.slipCount + 1 = s.jq.slipLimit.toNat →
    s.eventsIn = true →
    ∃ t, exec (.slotCompletionCheck reports) s = .next t ∧ t.jq.verdict.fault = true ∧
      t.jq.slipCount = s.jq.slipLimit.toNat ∧ t.newest.map EvEntry.code = some 0x0105 ∧ t.js.ring.irqErr = true)

/-- GATE_TIMEOUT: the deadline's action is applied to the entry that waits (2 INCOMPLETE, 3 FAULT), EV_GATE_TIMEOUT is
recorded, and the entry may go on unless its action is 0; so too after a run of slips for an entry whose deadline expired
before it, though its gate has opened in the meantime (R16, R19). For an entry that only waits at a doorbell the state is
given whole. -/
def Obligations.GateTimeoutAppliesTheAction : Prop :=
  ∀ (s : State) (phase : BitVec 4) (unit : BitVec 8) (h : Held) (e : SchedEntry),
    s.jq.begun = true → s.jq.slipping = false → s.silent = false → s.jq.running = true →
    s.waiting phase.toNat unit.toNat = some (h, e) → e.deadlineSlots ≤ (s.jq.slot - h.due).toNat →
    (s.gateOpen e = false ∨ h.lapsed = true) →
    (∃ t, exec (.gateTimeout phase unit) s = .next t ∧ (e.act = 2 → t.jq.verdict.incomplete = true) ∧
      (e.act = 3 → t.jq.verdict.fault = true) ∧ t.jq.slot = s.jq.slot ∧ t.jq.step = s.jq.step) ∧
    (e.gate = 1 → s.work e = .idle → Does (.gateTimeout phase unit) s fun s =>
      (({ s with jq := { s.jq with held := s.jq.held.map fun x =>
            if x = h then { x with reported := true, expired := e.act != 0 } else x } }).event e.unit 0x0101 0
          [i2 e.unit, i4 h.index, i1 e.act, i8 s.jq.slot.toNat]).applyAct e.act)

/-- DOORBELL_RING and MODE_REQ_WRITE: a ring adds one to the doorbell's count, a ring at 255 is ignored and recorded as
EV_DB_OVERFLOW, doorbell 0 cannot be rung through `JQ_DB_RING`, and a mode request sets the variant asked for and rings
doorbell 0 (R20, R30, R383). -/
def Obligations.DoorbellsCount : Prop :=
  ∀ (s : State) (port : Mgmt) (v : W32), s.listening = true →
    let ringOne := fun (d : Nat) (s : State) =>
      if memGet s.jq.db d = 255 then s.event 0x3F 0x0102 1 [i2 d, i8 s.jq.slot.toNat]
      else { s with jq := { s.jq with db := memSet s.jq.db d (memGet s.jq.db d + 1) } }
    let d := v.toNat % 4096
    (d ≠ 0 → (d < 4080 ∨ 4084 ≤ d) → Does (.doorbellRing port v) s fun s => (ringOne d s).ok port) ∧
    (4080 ≤ d → d < 4084 → Does (.doorbellRing port v) s fun s => ((ringOne d s).ok port).offTry (d - 4020)) ∧
    (d = 0 → Does (.doorbellRing port v) s fun s => s.refuse port 0x010040 4) ∧
    Does (.modeReqWrite port v) s fun s => (ringOne 0 { s with jq := { s.jq with variantReq := v.getLsbD 0 } }).ok port

/-- BOUNDARY_PERIOD: after BOUNDARY_PERIOD slots of SERVE the member asks for a BOUNDARY vote once, and the next run of
reduction id 2 starts where the member belongs to the commit domain (R21, R30). BOUNDARY_SWITCH: the vote's result takes
effect at cycle 0 of the next slot; without WANT_GEN in the AND word the block returns to LEARN and INTAKE for the same step,
else it stays in GEN; the step and the epoch never change (R29, R30). -/
def Obligations.BoundaryVotesSwitch : Prop :=
  (∀ s : State, s.phase 6 = true → s.jq.boundarySent = false → s.silent = false → s.decl.boundaryPeriod ≠ 0 →
    s.decl.boundaryPeriod ≤ s.jq.serveSlots →
    ∃ t, exec .boundaryPeriod s = .next t ∧ t.jq.serveSlots = 0 ∧ t.jq.boundarySent = true ∧
      t.jq.acts = s.jq.acts ++ [⟨s.jq.nextAct, 7, 0, []⟩] ∧ t.jq.step = s.jq.step ∧ t.jq.gen = s.jq.gen ∧
      ((∃ d, s.dom s.decl.commitDomain = some d ∧ d.contains s.decl.coord = true) → s.jz.held = [] →
        (t.gzRun 2).run = (s.gzRun 2).run + 1)) ∧
  (∀ (s : State) (w : W64), s.jq.boundaryResult = some w →
    ∃ t, exec .boundarySwitch s = .next t ∧ t.jq.boundaryResult = none ∧ t.jq.boundarySent = false ∧
      t.jq.step = s.jq.step ∧ t.jg.epoch.current = s.jg.epoch.current ∧
      (w.getLsbD 2 = true → t.jq.gen = s.jq.gen) ∧
      (w.getLsbD 2 = false → s.jq.gen = true →
        t.jq.gen = false ∧ t.phase 0 = true ∧ t.phase 6 = false ∧ t.phase 5 = true))

/-- QUIESCED_SET: when a draining block holds no traffic it comes to rest: QUIESCED is set, nothing is left to issue,
sequence numbers and run counts are back at 0, every power target is 0, and the QUIESCE command has its OK (R38, R138, R146,
R396). It rests on what the model takes where the spec is silent: notes/assumptions/18.md. -/
def Obligations.ADrainedBlockQuiesces : Prop :=
  ∀ s : State, s.jq.draining = true → s.noTraffic = true →
    ∃ t, exec .quiescedSet s = .next t ∧ t.jq.quiesced = true ∧ t.jq.draining = false ∧ t.jq.running = false ∧
      t.jq.acts = [] ∧ t.jq.held = [] ∧ t.jq.phases = 0 ∧ t.jx.seqTx = [] ∧ t.jx.seqRx = [] ∧ t.jz.runs = [] ∧
      t.jp.targets = List.replicate 15 0 ∧ t.jq.step = s.jq.step ∧ t.jq.slot = s.jq.slot ∧
      (s.js.cmd.busy = true → s.js.cmd.code = 2 → t.js.cmd.outcome = some 0)

/-! ### The verdict and the commit -/

/-- VERDICT_ENTRY: the verdict word's NONFINITE bit is formed from the per-step bits of intake, tiles, arrays, ring and
Gazelle, which go to SEEN and clear; with the commit gate enabled the member waits in PENDING with the step's low 24 bits,
else its contribution is sent (R24, R65, R214). -/
def Obligations.VerdictEntryFormsTheContribution : Prop :=
  ∀ s : State, s.phase 2 = true → s.jq.verdict.sendIssued = true → s.jq.verdict.formed = false → s.silent = false →
    (s.ju.gateEn = true → ∃ t, exec .verdictEntry s = .next t ∧ t.jq.verdict.pending = true ∧
      t.jq.verdict.gateStep = s.jq.step.setWidth 24 ∧ t.jq.step = s.jq.step ∧
      (s.jz.held = [] → t.jq.verdict.sent = s.jq.verdict.sent ∧ t.jg.nf = ⟨0, s.jg.nf.seen ||| s.jg.nf.now⟩ ∧
        t.jq.verdict.nf = (s.jg.nf.now &&& 31 != 0))) ∧
    (s.ju.gateEn = false → s.jz.held = [] → ∃ t, exec .verdictEntry s = .next t ∧ t.jq.verdict.sent = true ∧
      t.jq.verdict.sentAt = s.jq.slot ∧ t.jq.verdict.pending = false ∧ t.jq.step = s.jq.step ∧
      t.jq.verdict.orSent = BitVec.ofNat 64 (b2n (s.jg.nf.now &&& 31 != 0) + 2 * b2n s.jq.verdict.incomplete +
        4 * b2n s.jq.verdict.fault))

/-- COMMIT_APPROVE and COMMIT_VETO: in PENDING a write to `JU_COMMIT_GATE` that leaves EN as it is sends the contribution,
with VETO exactly when bit 2 is written, and ends PENDING; without PENDING the write is REJECTED and nothing is sent (R24,
R214). -/
def Obligations.TheCommitGateAnswers : Prop :=
  ∀ (s : State) (port : Mgmt) (v : W32), s.listening = true → v.getLsbD 0 = s.ju.gateEn →
    (s.jq.verdict.pending = true →
      (v.getLsbD 1 = true → v.getLsbD 2 = false → ∃ t, exec (.commitApprove port v) s = .next t ∧
        t.jq.verdict.sent = true ∧ t.jq.verdict.pending = false ∧ t.jq.verdict.veto = false ∧
        t.jq.verdict.orSent = BitVec.ofNat 64 (b2n s.jq.verdict.nf + 2 * b2n s.jq.verdict.incomplete +
          4 * b2n s.jq.verdict.fault) ∧ t.response port = ⟨0, 0⟩) ∧
      (v.getLsbD 2 = true → ∃ t, exec (.commitVeto port v) s = .next t ∧
        t.jq.verdict.sent = true ∧ t.jq.verdict.pending = false ∧ t.jq.verdict.veto = true ∧
        t.jq.verdict.orSent = BitVec.ofNat 64 (b2n s.jq.verdict.nf + 2 * b2n s.jq.verdict.incomplete +
          4 * b2n s.jq.verdict.fault + 8) ∧ t.response port = ⟨0, 0⟩)) ∧
    (s.jq.verdict.pending = false →
      (v.getLsbD 1 = true → v.getLsbD 2 = false → Does (.commitApprove port v) s fun s => s.refuse port 0x060000 4) ∧
      (v.getLsbD 2 = true → Does (.commitVeto port v) s fun s => s.refuse port 0x060000 4))

/-- VERDICT_TIMEOUT at a verdict root alone on its lines, its own words still missing or present: the verdict is decided at
once, clean exactly when no part was left out or bad, its own words among them, and the OR word is zero (R25, R156).
VERDICT_LOST_TIMEOUT: a member that has contributed and heard no decision within twice TIMEOUT records EV_VERDICT_LOST and
halts with cause 8; both banks and the step stay (R26, R364). It rests on what the model takes where the spec is silent:
notes/assumptions/16.md. -/
def Obligations.VerdictDeadlinesDecide : Prop :=
  (∀ (s : State) (d : DomEntry) (a b : GzRed), s.decl.verdictRoot = s.me → s.phase 2 = true →
    s.jq.verdict.decision = none → s.silent = false → s.jq.verdict.formed = true →
    s.jq.vTimeout.toNat ≤ (s.jq.slot - s.jq.verdict.enteredAt).toNat →
    s.dom s.decl.commitDomain = some d → d.gzAxes = [] → s.gzRed 0 0 = some a → s.gzRed 1 0 = some b →
    a.axis = 0 → b.axis = 0 → a.done = false → b.done = false → (s.gzRun 0).cells = 0 → (s.gzRun 0).words = [] →
    let o := (a.own.getD []).getD 0 GzElem.zero
    let n := (b.own.getD []).getD 0 GzElem.zero
    let clean := !a.inc && !b.inc && !a.bad && !b.bad && a.own.isSome && b.own.isSome && o == GzElem.zero
    ∃ t, exec .verdictTimeout s = .next t ∧ t.phase 2 = false ∧ t.jq.step = s.jq.step ∧
      t.jq.verdict.decision = some ⟨clean, BitVec.ofNat 64 o.nat, BitVec.ofNat 64 n.nat⟩) ∧
  (∀ s : State, s.jq.verdict.sent = true → s.jq.verdict.decision = none → s.silent = false →
    2 * s.jq.vTimeout.toNat ≤ (s.jq.slot - s.jq.verdict.sentAt).toNat →
    Does .verdictLostTimeout s fun s =>
      ({ s with jg := { s.jg with member := { s.jg.member with state := 1, cause := 8 } } }).event 0x3F 0x0103 2
        [i8 s.jq.verdict.sentAt.toNat, i8 s.jq.verdict.orSent.toNat, i8 s.jq.verdict.andSent.toNat])

/-- COMMIT_PULSE: a clean decision advances the step by one, so the active bank flips, drives STEP_DONE, publishes the step's
digests, and advances the table epoch exactly when tables are staged and the AND word has DRAINED and STAGED (R27, R29, R36,
R211, R227). SKIP_DECISION: a skip drives STEP_DONE and leaves the step, the active bank, the table epoch, the variant, the
coefficient file and the published digests as they were (R28, R29). -/
def Obligations.DecisionsAct : Prop :=
  (∀ (s : State) (d : Decision), s.jq.verdict.decision = some d → d.clean = true → s.silent = false →
    ∃ t, exec .commitPulse s = .next t ∧ t.jq.step = s.jq.step + 1 ∧ t.pins.stepDone = true ∧
      t.commitParity = !s.commitParity ∧ t.ju.digest = s.ju.acc ∧ t.ju.digestStep = s.jq.step ∧
      t.jq.slot = (if s.jq.begun then s.jq.slot else s.jq.slot + 1) ∧
      t.jg.epoch.current = (if d.andWord.getLsbD 0 && d.andWord.getLsbD 1 && s.live.staged.isSome
        then s.jg.epoch.current + 1 else s.jg.epoch.current)) ∧
  (∀ (s : State) (d : Decision), s.jq.verdict.decision = some d → d.clean = false → s.silent = false →
    ∃ t, exec .skipDecision s = .next t ∧ t.pins.stepDone = true ∧ t.jq.step = s.jq.step ∧
      t.commitParity = s.commitParity ∧ t.jg.epoch.current = s.jg.epoch.current ∧ t.jq.gen = s.jq.gen ∧
      t.ju.kfile = s.ju.kfile ∧ t.ju.digest = s.ju.digest ∧
      (s.jq.quiesceReq = false → t.phase 0 = true ∧ t.phase 3 = true) ∧
      (s.jq.quiesceReq = true → t.jq.draining = true ∧ t.jq.phases = 0))

/-! ### Power -/

/-- In one slot change the rises, and the falls, of the power groups each stay within BUDGET × slot length, and no level
passes its target (R396). Currents are in ampere × kHz × sixteenths, so that the bound is 16 × BUDGET × 1,536,000. It rests
on what the model takes where the spec is silent: notes/assumptions/50.md. -/
def Obligations.RampsStayWithinTheBudget : Prop :=
  ∀ (rise : Bool) (grade jclk lim : Nat) (l : List (Nat × Nat × Nat)),
    let new := rampPass rise grade jclk lim l
    new.length = l.length ∧
      ((l.zip new).map fun p => (if rise then p.2 - p.1.2.1 else p.1.2.1 - p.2) * groupAmps grade p.1.1 * jclk).sum ≤ lim ∧
      ∀ p ∈ l.zip new, if rise then p.1.2.1 ≤ p.2 ∧ (p.2 ≤ p.1.2.2 ∨ p.2 = p.1.2.1)
        else p.2 ≤ p.1.2.1 ∧ (p.1.2.2 ≤ p.2 ∨ p.2 = p.1.2.1)

/-! ### Intake and the tile queues -/

/-- TILE_RECEIVE refuses a descriptor of the wrong step (TAG), one that breaks a KIND condition, and a group that is already
in (DUP): each is counted, recorded as EV_INTAKE_DISCARD and its payload discarded; DUP sets FAULT when the register asks for
it (R76, R77). TILE_RECEIVE of a good gradient tile with its whole payload, and HELD_DESCRIPTOR_RELEASE of one that was held:
every group of its rectangle is received, the descriptor is latched, and the queue is free for the next tile; a queue whose
TQ_EN bit is 0 keeps what it holds (R76, R81, R101, R287, R288). PRODUCER_RESET cuts an open tile short and counts it, drops
a held descriptor, and lowers READY; PRODUCER_UP raises it again (R77, R289). It rests on what the model takes where the spec
is silent: notes/assumptions/31.md. -/
def Obligations.TileQueuesReceive : Prop :=
  (∀ (s : State) (n : BitVec 2) (raw : BitVec 512) (payload : List Byte) (last : Bool),
    s.tqReady n.toNat = true → (s.tq n.toNat).st = .idle →
    let d := descHdr raw
    let t := s.jq.step.toNat
    let gone := fun (r : Reason) => Does (.tileReceive n (some raw) payload last) s fun s =>
      (s.discard n.toNat raw r).setTq n.toNat (if last then .idle else .discard)
    let tagBad := d.kind ≤ 2 ∧ d.step ≠ t % 2 ^ 16 ∧ d.step ≠ (t + 1) % 2 ^ 16
    (tagBad → gone .tag) ∧ (¬tagBad → s.kindOk d = false → gone .kind) ∧
    (¬tagBad → s.kindOk d = true → s.mustHold d = false → s.isDup n.toNat d = true → gone .dup) ∧
    (¬tagBad → s.kindOk d = true → s.mustHold d = true →
      Does (.tileReceive n (some raw) payload last) s fun s => s.setTq n.toNat (.held raw))) ∧
  (∀ (s : State) (n : BitVec 2) (raw : BitVec 512) (payload : List Byte) (last : Bool) (c : CatEntry),
    let d := descHdr raw
    d.kind = 0 → s.phase 0 = true → d.step = s.jq.step.toNat % 2 ^ 16 → s.isDup n.toNat d = false →
    s.cat d.tensor = some c → payload.length = (d.bytes + 63) / 64 * 64 → 0 < d.bytes →
    (s.tqReady n.toNat = true → (s.tq n.toNat).st = .idle → s.kindOk d = true →
      ∃ t, exec (.tileReceive n (some raw) payload last) s = .next t ∧
        (∀ g ∈ d.groups c, (t.gPrime d.tensor g).isSome = true) ∧ t.ji.lastDesc = raw.extractLsb' 0 256 ∧
        (t.tq n.toNat).st = .idle ∧ t.jq.step = s.jq.step) ∧
    ((s.tq n.toNat).st = .held raw → (s.tq n.toNat).pup = true → s.inReset = false → s.jq.gen = false →
      (s.ji.tqEn.getLsbD n.toNat = true → ∃ t, exec (.heldDescriptorRelease n payload last) s = .next t ∧
        (∀ g ∈ d.groups c, (t.gPrime d.tensor g).isSome = true) ∧ t.ji.lastDesc = raw.extractLsb' 0 256 ∧
        (t.tq n.toNat).st = .idle ∧ t.jq.step = s.jq.step) ∧
      (s.ji.tqEn.getLsbD n.toNat = false → Does (.heldDescriptorRelease n payload last) s id))) ∧
  (∀ (s : State) (n : BitVec 2),
    (∃ t, exec (.producerReset n) s = .next t ∧ t.tqReady n.toNat = false ∧
      (∀ d got, (s.tq n.toNat).st = .isOpen d got → t.ji.discPartial = stick s.ji.discPartial 1) ∧
      (∀ d, (s.tq n.toNat).st = .held d → t.ji.discPartial = s.ji.discPartial) ∧ t.ji.grads = s.ji.grads) ∧
    Does (.producerUp n) s fun s =>
      { s with ji := { s.ji with tqs := modifyNth (fun q => { q with pup := true }) n.toNat s.ji.tqs } })

/-- MASK_BUILD: the owner that holds the sketch of every chunk of a row builds the row's mask for step t + 2, with K groups
of the highest codes, once (R84, R87, R88). -/
def Obligations.TheOwnerBuildsTheMask : Prop :=
  (∀ (s : State) (tensor row : Nat) (c : CatEntry), s.cat tensor = some c → s.rowChunks c row ≠ [] →
    (∀ i ∈ s.rowChunks c row, (tabGet i s.ji.sketches).isSome = true) → s.buildsMask c = true →
    (s.ji.built.any fun m => m.tensor == tensor && m.row == row && m.step == s.jq.step + 2) = false →
    let codes := ((s.rowChunks c row).filterMap fun i => tabGet i s.ji.sketches).flatten
    ∃ t, exec (.maskBuild tensor row) s = .next t ∧
      t.ji.built = ⟨tensor, row, s.jq.step + 2, buildMask codes (selCount (c.rowLen row) (s.density c 2))⟩ :: s.ji.built ∧
      t.stateMem = s.stateMem ∧ t.jq.step = s.jq.step) ∧
  ∀ (codes : List Byte) (k : Nat), k ≤ codes.length → ((buildMask codes k).filter id).length = k ∧
    (buildMask codes k).length = codes.length ∧
    ∀ i j, (buildMask codes k).getD i false = true → j < codes.length → (buildMask codes k).getD j true = false →
      (codes.getD j 0).toNat < (codes.getD i 0).toNat ∨ (codes.getD j 0 = codes.getD i 0 ∧ i < j)

/-! ### The ring -/

/-- CHUNK_RECEIVE, tests 1 and 2: a chunk whose KEY is not its domain's is discarded and counted without FAULT; one out of
sequence is discarded with FAULT; both free their buffer (R113). CHUNK_RECEIVE of a lap-1 chunk that passes every test and
whose hop is this member's, in a block that does not drain: it waits in a buffer of the RX pool for its entry, the port's
next SEQ is expected, and nothing else changes (R113, R118, R131, R135). It rests on what the model takes where the spec is
silent: notes/assumptions/59.md. -/
def Obligations.ChunksAreTested : Prop :=
  (∀ (s : State) (port : BitVec 3) (vc : BitVec 2) (raw : BitVec 512) (payload : List Byte), s.inReset = false →
    (vc = 1 ∨ vc = 2) → s.eventsIn = true →
    let h := chunkHdr raw
    ((∀ d, s.dom h.domain = some d → d.key.toNat ≠ h.key) →
      ∃ t, exec (.chunkReceive port vc raw payload) s = .next t ∧ t.jx.discKey = stick s.jx.discKey 1 ∧
        t.jx.rx = s.jx.rx ∧ t.jx.lastHdr = raw ∧ t.jq.verdict.fault = s.jq.verdict.fault ∧
        t.newest.map EvEntry.code = some 0x0301) ∧
    ((∃ d, s.dom h.domain = some d ∧ d.key.toNat = h.key) → h.seq ≠ seqNext s.jx.seqRx port.toNat vc.toNat →
      ∃ t, exec (.chunkReceive port vc raw payload) s = .next t ∧ t.jx.discSeq = stick s.jx.discSeq 1 ∧
        t.jx.rx = s.jx.rx ∧ t.jx.seqRx = s.jx.seqRx ∧ t.jx.lastHdr = raw ∧ t.jq.verdict.fault = true ∧
        t.newest.map EvEntry.code = some 0x0302)) ∧
  (∀ (s : State) (port : BitVec 3) (vc : BitVec 2) (raw : BitVec 512) (payload : List Byte) (e : ChunkEntry) (d : DomEntry)
    (c : CatEntry), s.inReset = false → (vc = 1 ∨ vc = 2) →
    let h := chunkHdr raw
    s.dom h.domain = some d → d.key.toNat = h.key → h.seq = seqNext s.jx.seqRx port.toNat vc.toNat →
    chunkCrcOk raw payload = true → s.chunkForm raw payload = true → h.op = 0 → h.tepoch = s.jg.epoch.current →
    h.step = s.jq.step → h.mepoch = h.step.toNat % 4 → s.chunk h.chunk = some e → s.dom e.domain = some d →
    s.cat (s.chunkTensor h.chunk) = some c → s.mapAgrees h e = true → s.lap1Mine port.toNat h e d = true →
    s.jx.expired.contains (h.chunk, h.axis) = false → s.jq.draining = false →
    Does (.chunkReceive port vc raw payload) s fun s =>
      let b := bytesLE 64 raw.toNat ++ payload
      let u := (s.setPort port.toNat fun q => { q with rx := { q.rx with items := dropItem vc.toNat b q.rx.items } }).stagePut
        .rx port.toNat vc.toNat raw b
      { u with
        jx := { u.jx with lastHdr := raw, seqRx := seqSet s.jx.seqRx port.toNat vc.toNat (h.seq + 1),
                          rx := s.jx.rx ++ [⟨port.toNat, vc.toNat, raw, payload, false⟩] } })

/-- GATHER_FLAG_WRITE and SHIFT_FLAG_WRITE: when every chunk of the oldest open run is accounted for, its 16-byte flag record
is written, with status 2 when a chunk was poisoned or missing and 1 otherwise, and the run is closed (R126, R129, R130). It
rests on what the model takes where the spec is silent: notes/assumptions/21.md. -/
def Obligations.FlagRecordsAreWritten : Prop :=
  (∀ (s : State) (g : Nat) (ge : GatherEntry) (r : GatherRun), s.img.gathers[g]? = some ge →
    (s.findRun g fun r => !r.flagged) = some r → s.runFull r = true →
    ∃ t, exec (.gatherFlagWrite g) s = .next t ∧
      t.hostMem = memWrite s.hostMem (ge.flagBase + 16 * (r.run % ge.nbuf))
        (bytesLE 8 (r.step.toNat + g % 2 ^ 16 * 2 ^ 40 + (if r.bad then 2 else 1) * 2 ^ 56) ++ bytesLE 8 r.run) ∧
      t.jx.gathers = s.jx.gathers.map (fun x => if x.gather == r.gather && x.run == r.run then { r with flagged := true } else x) ∧
      t.stateMem = s.stateMem ∧ t.jq = s.jq ∧ (ge.carryMask = false → t.ju = s.ju)) ∧
  ∀ (s : State) (n : Nat) (x : XferEntry) (r : XferRun), s.img.xfers[n]? = some x →
    (s.findXfer n fun y => !y.flagged) = some r → (∀ k, k < x.chunks → k ∈ r.got) →
    Does (.shiftFlagWrite n) s fun s =>
      ({ s with jx := { s.jx with xfers := s.jx.xfers.map fun (y : XferRun) =>
                        if y.xfer == r.xfer && y.run == r.run then { r with flagged := true } else y } }).hostWrite 0x2B x.flag
        (bytesLE 8 ((s.jq.step - 1).toNat + n % 2 ^ 16 * 2 ^ 40 + (if r.bad then 2 else 1) * 2 ^ 56) ++ bytesLE 8 r.run)

/-! ### The Gazelle path -/

/-- GAZELLE_CELL with a wrong CRC that names no place of this member is counted and recorded as EV_GAZELLE_CRC, on the reduce
sweep it sets FAULT, and nothing is done with it (R155). GAZELLE_CELL: the result cell of reduction 0 gives a member its
decision, and VERDICT ends; a reduce cell whose place is still waiting for this member's own state is kept as that half's
state (R25, R146–R149). GAZELLE_CAP_WINDOW: a new window of 32 slots starts from zero, held cells go out as far as the limit
allows, and no port is over 5 % of its link time (R152). It rests on what the model takes where the spec is silent:
notes/assumptions/22.md. -/
def Obligations.GazelleCellsAreTestedAndUsed : Prop :=
  (∀ (s : State) (port : BitVec 3) (hdr : BitVec 128) (payload : List Byte) (trailer : BitVec 128), s.inReset = false →
    payload.length = 64 → cellCrc hdr payload ≠ (cellTrl trailer).crc →
    (∀ g d, s.gzSpec (s.tables (cellHdr hdr).tepoch) (cellHdr hdr).rid = some g → s.dom g.domain = some d →
      s.cellPlace port.toNat (cellHdr hdr) g d = false) →
    ∃ t, exec (.gazelleCell port hdr payload trailer) s = .next t ∧ t.jz.discCrc = stick s.jz.discCrc 1 ∧
      t.jz.lastHdr = hdr ∧ t.jz.lastTrl = trailer ∧ t.jz.reds = s.jz.reds ∧
      t.jq.verdict.fault = (s.jq.verdict.fault || !(cellHdr hdr).result)) ∧
  (∀ (s : State) (port : BitVec 3) (hdr : BitVec 128) (payload : List Byte) (trailer : BitVec 128) (g : GzSpec) (d : DomEntry),
    let h := cellHdr hdr
    let q := cellTrl trailer
    s.inReset = false → payload.length = 64 → cellCrc hdr payload = q.crc → s.dom h.domain = some d → d.key.toNat = q.key →
    s.gzSpec (s.tables h.tepoch) h.rid = some g → s.dom g.domain = some d → s.cellPlace port.toNat h g d = true →
    cellFields h q g = true →
    h.tepoch = s.jg.epoch.current → h.run = (s.gzRun h.rid).run →
    (s.jz.runs.any fun r => r.rid == h.rid) = true →
    (h.rid = 0 → h.result = true → (s.gzRun 0).cells = 0 → (s.gzRun 0).words = [] →
      ∃ t, exec (.gazelleCell port hdr payload trailer) s = .next t ∧ t.phase 2 = false ∧ t.jq.step = s.jq.step ∧
        t.jq.verdict.decision = some ⟨q.decision == 1, BitVec.ofNat 64 (natLE (payload.take 8)),
          BitVec.ofNat 64 (natLE ((payload.drop 8).take 8))⟩) ∧
    (∀ r, h.result = false → s.gzRed h.rid (h.index g) = some r → r.done = false → r.own = none →
      r.epoch = h.tepoch → r.axis < d.gzAxes.length → (r.halves.any fun x => x.right == h.minus && x.axis == h.axis) = false →
      ∃ t, exec (.gazelleCell port hdr payload trailer) s = .next t ∧ t.jq.verdict = s.jq.verdict ∧
        t.gzRed h.rid (h.index g) = some { r with halves :=
          ⟨h.minus, h.axis, unpackElems g.esize (g.inCell (h.index g)) payload, q.bad⟩ :: r.halves })) ∧
  (∀ s : State, s.jq.slot.toNat / 32 * 32 ≠ s.jz.winAt →
    (∃ t, exec .gazelleCapWindow s = .next t ∧ t.jz.winAt = s.jq.slot.toNat / 32 * 32 ∧
      ∀ p, t.jz.used.getD p 0 ≤ s.capBytes) ∧
    (s.jz.capQueue = [] → Does .gazelleCapWindow s fun s =>
      { s with jz := { s.jz with used := List.replicate 8 0, capSeen := [], capQueue := [], winAt := s.jq.slot.toNat / 32 * 32 } }))

/-! ### Curvature -/

/-- ARRAY_TILE_DRAIN: a full accumulator set drains element by element, in INT8 as the partitions' integer sum with the
zero-point correction, else as the pairing tree of its partitions; its tile goes by the output queue to the state port that
takes it, the set is free again, and a non-finite element sets the arrays' sticky bit; an empty set drains nothing (R54, R65,
R161, R164, R165). FACTOR_MERGE: from the first output tile that is not recorded, each stored tile of a factor becomes γ C +
α F element by element and is recorded; a tile with a non-finite element keeps its old contents (R173–R176). It rests on what
the model takes where the spec is silent: notes/assumptions/52.md. -/
def Obligations.FactorsAreGathered : Prop :=
  (∀ (s : State) (array acc : BitVec 1),
    let n := array.toNat
    let a := (s.array n).set acc
    let vals := a.cells.map fun e => if a.int8 then f32OfInt (e.1.foldl (· + ·) e.2).toInt else treeFold f32Add 0 e.1
    (a.dst = none → Does (.arrayTileDrain array acc) s id) ∧
    ∀ d, a.dst = some (.statePort d) → (s.array n).queue = [] → s.jk.arrays.length = 2 →
      ∃ t, exec (.arrayTileDrain array acc) s = .next t ∧ (t.array n).set acc = AccSet.empty ∧
        (t.array n).set (acc + 1) = (s.array n).set (acc + 1) ∧ (t.array n).queue = [] ∧ (t.array n).next = (s.array n).next ∧
        t.stateMem = memWrite s.stateMem d (vals.flatMap bytes32) ∧ t.hostMem = s.hostMem ∧
        (s.jq.gen = false → t.jg.nf.now = if vals.any f32NonFinite then s.jg.nf.now ||| 4 else s.jg.nf.now) ∧ t.jq = s.jq) ∧
  (∀ (s : State) (tensor block : Nat) (m : Merge) (c : CatEntry) (side : Side) (u v : Nat) (p q : BitVec 1),
    s.jk.arrays = [⟨AccSet.empty, AccSet.empty, p, []⟩, ⟨AccSet.empty, AccSet.empty, q, []⟩] → s.memOk = true →
    s.cat tensor = some c → s.mergeDue tensor block c side = some m → (u, v) ∈ c.factTiles.drop (m.done side) →
    (s.jg.tiles.remap.any fun l => l.toNat == s.blockTile tensor c block) = false →
    (∀ j, j < c.strata →
      let a := s.sampleAddr tensor c block side (m.step.toNat % 2) j
      let f := s.factAddr tensor c block .L
      a + 2 * c.edge ≤ f ∨ f + c.factBytes ≤ a) →
    let rows := s.keptRows tensor c block side (m.step.toNat % 2)
    let cols := (List.range c.edge).map fun i => rows.map fun r => r.getD i 0
    let quant := if c.factMode = 2 then cols.map (quantFeature (match side with | .L => c.gShift | .R => c.aShift)) else []
    let gamma := match side with | .L => m.gammaL | .R => m.gammaR
    let w := stripOf c.edge (256 * v)
    let old := s.factTile tensor c block side (u, v)
    let new := (List.range (stripOf c.edge (256 * u) * w)).map fun k =>
      f32Fma gamma (gramAt c cols quant (256 * u + k / w) (256 * v + k % w)) (f32Mul m.alpha (old.getD k 0))
    ∃ t, exec (.factorMerge tensor block) s = .next t ∧
      (∀ x ∈ t.jk.merges, m.same x = true → c.factTiles.length ≤ x.done side) ∧
      t.factTile tensor c block side (u, v) = (if new.any f32NonFinite then old else new) ∧ t.hostMem = s.hostMem ∧ t.jq = s.jq)

/-- MARKHOR_REFRESH_START: the first refresh of the queue starts with M = F_d / c and X = c^(−1/p) on the diagonal, in the
lowest free pool slot; with c zero or non-finite it ends stale at once, and the block's STALE_N counts it (R176–R179, R181,
R184). MARKHOR_ITERATION: one coupled Newton step; the refresh converges when its residual is at most TOL, ends stale at
iteration 24 or on a non-finite value, and else goes on, or holds there when HOLD is set; a held one does nothing (R180,
R181, R186). MARKHOR_HOLD: the write to `JK_CFG` sets HOLD from any port, and INSTALL_LAG, which may not be 0, only for the
owner of the service lock in a quiesced block (R186, R189, R381). It rests on what the model takes where the spec is silent:
notes/assumptions/52.md. -/
def Obligations.RefreshesRun : Prop :=
  (∀ (s : State) (r : Refresh) (rest : List Refresh) (c : CatEntry), s.jk.current = none → s.jk.queue = r :: rest →
    s.cat r.tensor = some c → s.markhorOn = true → s.refWaits c r = false → s.eventsIn = true →
    let fd := s.damped c r
    let cc := f32Sqrt (frobenius c.edge fd)
    let sc := f32Div f32One (f32Sqrt (if c.p4 then f32Sqrt cc else cc))
    let e := s.rootEntry r.tensor r.block
    ∃ t, exec .markhorRefreshStart s = .next t ∧ t.jk.queue = rest ∧ t.jk.iter = 0 ∧ t.jk.tensor = BitVec.ofNat 18 r.tensor ∧
      t.jk.merges = s.jk.merges ∧
      ((f32IsZero cc || f32NonFinite cc) = false → t.stateMem = s.stateMem ∧
        t.jk.current = some ⟨r, s.freeSlot, 0,
          (List.range c.edge).flatMap fun i => (List.range c.edge).map fun j => if i = j then sc else 0,
          fd.map fun v => f32Mul v (f32Div f32One cc), !s.jk.hold⟩ ∧ t.jk.finished = s.jk.finished) ∧
      ((f32IsZero cc || f32NonFinite cc) = true → t.jk.current = none ∧ t.jk.stale = stick s.jk.stale 1 ∧
        t.stateMem = memWrite s.stateMem (s.rootAddr r.tensor r.block) { e with staleN := stick e.staleN 1 }.bytes ∧
        t.jk.finished = s.jk.finished ++ [⟨r, none⟩] ∧ t.newest.map EvEntry.code = some 0x0501)) ∧
  (∀ (s : State) (m : Markhor) (c : CatEntry), s.jk.current = some m → s.cat m.ref.tensor = some c →
    (m.running = false → Does .markhorIteration s id) ∧
    (s.markhorOn = true → m.running = true →
      let xm := newtonStep c.p4 c.edge m.x m.m
      let r := newtonResid c.edge xm.2
      let bad := f32NonFinite r || xm.1.any f32NonFinite || xm.2.any f32NonFinite
      ∃ t, exec .markhorIteration s = .next t ∧ t.jk.resid = r ∧ t.jk.iter = BitVec.ofNat 5 (m.iter + 1) ∧ t.jk.queue = s.jk.queue ∧
        (bad = false → f32Le r s.jk.tol = true → t.jk.current = none ∧
          t.jk.finished = s.jk.finished ++ [⟨m.ref, some m.slot⟩] ∧
          (t.jk.pool.find? fun p => p.slot == m.slot) = some ⟨m.slot, xm.1.map bf16Rne⟩) ∧
        (bad = false → f32Le r s.jk.tol = false → m.iter + 1 < 24 →
          t.jk.current = some { m with iter := m.iter + 1, x := xm.1, m := xm.2, running := !s.jk.hold } ∧
          t.jk.finished = s.jk.finished) ∧
        ((bad = true ∨ (f32Le r s.jk.tol = false ∧ 24 ≤ m.iter + 1)) → t.jk.current = none ∧
          t.jk.finished = s.jk.finished ++ [⟨m.ref, none⟩] ∧ t.jk.stale = stick s.jk.stale 1))) ∧
  (∀ (s : State) (port : Mgmt) (v : W32), s.listening = true →
    AnswersRwl (.markhorHold port v) s port 0x050000 (v.extractLsb' 0 5 != s.jk.installLag) (v.extractLsb' 0 5 != 0) fun s =>
      { s with jk := { s.jk with installLag := v.extractLsb' 0 5, hold := v.getLsbD 8,
                                 current := s.jk.current.map fun m => { m with running := m.running || !v.getLsbD 8 } } })

/-! ### Update programs -/

/-- NOP and the lane-wise instructions MOV to SEL: each of the 64 lanes of vD gets its result, the tiles' sticky bit is set
when an active lane of the result or of an operand that the operation uses is non-finite, the next word is next, and nothing
else changes (R42, R193, R197, R198). It rests on what the model takes where the spec is silent: notes/assumptions/51.md. -/
def Obligations.LaneInstructions : Prop :=
  ∀ (s : State) (tile : Nat) (w : W32) (x : TileCtx), s.atWord tile w x →
    let i := word7 w
    let va := s.vreg tile i.a
    let vb := s.operandB x i
    let vc := s.operandC x i
    let a := fun l => va.getD l 0
    let b := fun l => vb.getD l 0
    let c := fun l => vc.getD l 0
    let does := fun (cmd : Instr) (f : Nat → W32) (operandsBad : Bool) => Does cmd s fun s =>
      ((s.setV tile i.d ((List.range 64).map f)).nonFiniteIf (x.anyNonFinite ((List.range 64).map f) || operandsBad) .tiles).nextWord x
    let na := x.anyNonFinite va
    let nb := x.anyNonFinite vb
    let nc := x.anyNonFinite vc
    (i.op = 0x00 → Does (.nop tile w) s fun s => s.nextWord x) ∧
    (i.op = 0x01 → does (.mov tile w) (fun l => f32Canon (b l)) nb) ∧
    (i.op = 0x02 → does (.add tile w) (fun l => f32Add (a l) (b l)) (na || nb)) ∧
    (i.op = 0x03 → does (.sub tile w) (fun l => f32Sub (a l) (b l)) (na || nb)) ∧
    (i.op = 0x04 → does (.mul tile w) (fun l => f32Mul (a l) (b l)) (na || nb)) ∧
    (i.op = 0x05 → does (.div tile w) (fun l => f32Div (a l) (b l)) (na || nb)) ∧
    (i.op = 0x06 → does (.min tile w) (fun l => f32Min (a l) (b l)) (na || nb)) ∧
    (i.op = 0x07 → does (.max tile w) (fun l => f32Max (a l) (b l)) (na || nb)) ∧
    (i.op = 0x08 → does (.fma tile w) (fun l => f32Fma (a l) (b l) (c l)) (na || nb || nc)) ∧
    (i.op = 0x09 → does (.fnma tile w) (fun l => f32Fma (f32Neg (a l)) (b l) (c l)) (na || nb || nc)) ∧
    (i.op = 0x0A → does (.sqrt tile w) (fun l => f32Sqrt (a l)) na) ∧
    (i.op = 0x0B → does (.abs tile w) (fun l => f32Canon (f32Abs (a l))) na) ∧
    (i.op = 0x0C → does (.neg tile w) (fun l => f32Canon (f32Neg (a l))) na) ∧
    (i.op = 0x0D → does (.clt tile w) (fun l => if f32Lt (a l) (b l) then f32One else 0) (na || nb)) ∧
    (i.op = 0x0E → does (.sel tile w) (fun l => f32Canon (if f32IsZero (c l) then b l else a l)) (na || nb || nc))

/-- ACC and ACCSQ add each active lane of vA, or its square, to the compensated state of aD; FOLD combines the 64 states of
aA by the pairing tree and writes the folded sum to every lane of vD (R67–R71, R198, R200). -/
def Obligations.AccumulatorInstructions : Prop :=
  ∀ (s : State) (tile : Nat) (w : W32) (x : TileCtx), s.atWord tile w x →
    let i := word7 w
    let v := s.vreg tile i.a
    let acc := fun (f : W32 → W32) => (List.range 64).map fun l =>
      let st := (s.areg tile i.d).getD l CState.zero
      if x.active l then cadd st (f (v.getD l 0)) else st
    let bad := fun (f : W32 → W32) => x.anyNonFinite v || x.anyNonFinite (v.map f) ||
      x.anyNonFinite ((acc f).map CState.s) || x.anyNonFinite ((acc f).map CState.c)
    let sum := cfold (treeFold ccombine CState.zero (s.areg tile i.a))
    (i.op = 0x14 → Does (.acc tile w) s fun s => ((s.setA tile i.d (acc id)).nonFiniteIf (bad id) .tiles).nextWord x) ∧
    (i.op = 0x15 → Does (.accsq tile w) s fun s =>
      ((s.setA tile i.d (acc fun y => f32Mul y y)).nonFiniteIf (bad fun y => f32Mul y y) .tiles).nextWord x) ∧
    (i.op = 0x16 → Does (.fold tile w) s fun s =>
      ((s.setV tile i.d (List.replicate 64 sum)).nonFiniteIf
        (f32NonFinite sum || (s.areg tile i.a).any fun c => f32NonFinite c.s || f32NonFinite c.c) .tiles).nextWord x)

/-- LD: vD gets the active elements of its stream, decoded to FP32, and +0.0 in the other lanes; the FP32 master is read from
the active bank of the state tier as it stands there (R194, R198, R211). No memory changes. LDX and STX: inside region S, and
for loads inside the image's region C, they read or write 64 words, and an infinity or NaN among the active ones sets the
tiles' sticky bit; outside they are program faults: FAULT, EV_PROG_FAULT, the first one latched, and an element program's
chunk counts as consumed (R64, R203, R204). -/
def Obligations.LoadsAndScratchAccesses : Prop :=
  (∀ (s : State) (tile : Nat) (w : W32) (x : TileCtx), s.atWord tile w x →
    let i := word7 w
    let vals := (List.range 64).map fun l => if l < x.at_.act then s.loadLane x i.a l else (0, false)
    i.op = 0x10 →
    (Does (.ld tile w) s fun s =>
      ((s.setV tile i.d (vals.map fun q => f32Canon q.1)).nonFiniteIf (vals.any Prod.snd) .tiles).nextWord x) ∧
    (s.decl.lean = false → ∀ l, s.loadLane x 3 l =
      (w32LE (memRead s.stateMem ((s.dirEntry x.inv.tensor).wBase + s.bank * s.decl.bank1Off + 4 * (x.at_.flat + l)) 4), false))) ∧
  (∀ (s : State) (tile : Nat) (w : W32) (x : TileCtx), s.atWord tile w x → s.eventsIn = true →
    let i := word7 w
    let a := (i.off + (if i.idx then x.inv.iter else 0)) * 256
    let inS := 0x440000 ≤ a ∧ a < 0x450000
    let inC := 0x500000 ≤ a ∧ a + 256 ≤ 0x500000 + s.img.regionC.length
    let bytes := if 0x440000 ≤ a ∧ a < 0x450000 then memRead (s.regionS x) (a - 0x440000) 256
      else (s.img.regionC.drop (a - 0x500000)).take 256
    let faults := fun (c : Instr) (cause : Nat) => ∃ t, exec c s = .next t ∧ t.jq.verdict.fault = true ∧
      t.stateMem = s.stateMem ∧ t.hostMem = s.hostMem ∧ t.newest.map EvEntry.code = some 0x0601 ∧
      (s.ju.progFault.valid = false → t.ju.progFault =
        ⟨BitVec.ofNat 3 cause, true, BitVec.ofNat 6 tile, x.inv.epoch, BitVec.ofNat 13 x.pc, BitVec.ofNat 23 a⟩) ∧
      (x.inv.isSection = false → x.inv.index ∈ t.jx.consumed)
    (i.op = 0x12 → (inS ∨ inC) → Does (.ldx tile w) s fun s =>
      let v := (List.range 64).map fun l => if x.active l then f32Canon (w32LE (bytes.drop (4 * l))) else 0
      ((s.setV tile i.d v).nonFiniteIf (v.any f32NonFinite) .tiles).nextWord x) ∧
    (i.op = 0x12 → ¬inS → ¬inC → faults (.ldx tile w) 3) ∧
    (i.op = 0x13 → inS → Does (.stx tile w) s fun s =>
      let m := (s.vreg tile i.d).zipIdx.foldl
        (fun m p => if x.active p.2 then memWrite m (a - 0x440000 + 4 * p.2) (bytes32 p.1) else m) (s.regionS x)
      let bad := (s.vreg tile i.d).zipIdx.any fun p => x.active p.2 && f32NonFinite p.1
      ((s.nonFiniteIf bad .tiles).setTile tile fun t =>
        if x.inv.isSection then { t with regSBlock := m } else { t with regS := m }).nextWord x) ∧
    (i.op = 0x13 → ¬inS → faults (.stx tile w) (if 0x400000 ≤ a ∧ a < 0x430000 then 1 else 2)))

/-- ST: the stored bytes go to the inactive bank only: the master as FP32, the lean weight as BF16, the working copy as BF16
for CLASS 2 and as FP8 of w × 2^e otherwise, the moments as JB8 blocks; gradient-buffer stores go to the work areas of the
blocks in the state tier, in FP32 and row-major in the block (R194, R208, R211, R221). It rests on what the model takes where
the spec is silent: notes/assumptions/51.md. -/
def Obligations.StoresWriteTheInactiveBank : Prop :=
  ∀ (s : State) (tile : Nat) (w : W32) (x : TileCtx), s.atWord tile w x →
    let i := word7 w
    let vals := (s.vreg tile i.a).take x.at_.act
    let d := s.dirEntry x.inv.tensor
    let other := 1 - s.jq.step.toNat % 2
    let jb8 := fun (conv : List W32 → List (Option W16) → List Byte × W16 × Bool) =>
      (List.range (x.at_.act / 32)).flatMap fun k =>
        let vs := (vals.drop (32 * k)).take 32
        let r := conv vs (vs.map fun _ => none)
        jb8Bytes r.1 r.2.1
    i.op = 0x11 → (s.vreg tile i.a).length = 64 →
    ∃ t, exec (.st tile w) s = .next t ∧ t.jq = s.jq ∧ (t.tile tile).regs = (s.tile tile).regs ∧
      (i.d = 1 → t.hostMem = s.hostMem ∧
        t.stateMem = ((s.giveAreas x vals).gbPieces x vals).foldl (fun m p => memWrite m p.1 p.2) s.stateMem) ∧
      (i.d = 8 → s.decl.lean = false → t.hostMem = s.hostMem ∧
        t.stateMem = memWrite s.stateMem (d.wBase + 4 * x.at_.flat + other * s.decl.bank1Off) (vals.flatMap bytes32)) ∧
      (i.d = 8 → s.decl.lean = true → x.cat.srW = false → t.stateMem = s.stateMem ∧
        t.hostMem = memWrite s.hostMem (d.wBase + 2 * x.at_.flat + other * s.decl.hbank1Off)
          (vals.flatMap fun v => bytes16 (bf16Rne v))) ∧
      (i.d = 9 → t.hostMem = s.hostMem ∧ ∃ b, b.length = 34 * (x.at_.act / 32) ∧ (x.cat.srM = false → b = jb8 jb8M1) ∧
        t.stateMem = memWrite s.stateMem (d.m1Base + 34 * (x.at_.flat / 32) + other * s.decl.bank1Off) b) ∧
      (i.d = 10 → t.hostMem = s.hostMem ∧ ∃ b, b.length = 34 * (x.at_.act / 32) ∧ (x.cat.srM = false → b = jb8 jb8M2) ∧
        t.stateMem = memWrite s.stateMem (d.m2Base + 34 * (x.at_.flat / 32) + other * s.decl.bank1Off) b) ∧
      (i.d = 11 → x.cat.cls = 2 → t.stateMem = s.stateMem ∧
        t.hostMem = memWrite s.hostMem (d.wcBase + 2 * x.at_.flat + other * s.decl.hbank1Off)
          (vals.flatMap fun v => bytes16 (bf16Rne v))) ∧
      (i.d = 11 → x.cat.cls ≠ 2 → t.stateMem = s.stateMem ∧
        t.hostMem = memWrite s.hostMem (d.wcBase + x.at_.flat + other * s.decl.hbank1Off)
          (vals.map fun v => fp8Of d.e5m2 (f32Mul v (f32Pow2 (s.scaleE x.inv.tensor)))))

/-- CHUNK_PASS_START: a free tile takes its next ready chunk: zeroed registers, an emptied region S where the program uses
it, the first pass at its first word, and the window shows the job (R191, R192, R203, R206, R385). BLOCK_SECTION_START and
PRE_PASS_START: the first block of the tile whose chunks have all passed pass 0 starts its section at pass 1; before the
prologue of a PRE pass the arrays form P from the gradient buffer, and the pass may then issue (R187, R191, R192, R196). It
rests on what the model takes where the spec is silent: notes/assumptions/51.md. -/
def Obligations.InvocationsStart : Prop :=
  (∀ (s : State) (tile i : Nat) (c : CatEntry) (f : Folded) (g : ProgEntry) (p : PassDir), tile < 40 →
    s.nextReady tile = some i → s.cat (s.chunkTensor i) = some c → (s.jx.hold.find? fun f => f.chunk == i) = some f →
    s.progEntry f.tepoch c.prog = some g → g.passes[0]? = some p → s.jq.gen = false → s.inReset = false →
    (s.tile tile).inv = none →
    Does (.chunkPassStart tile) s fun s =>
      (({ s with ju := { s.ju with ready := s.ju.ready.filter fun x => x != i } }).setTile tile fun t =>
        { t with saved := none,
                 inv := some (newInv (if g.isBlock then 2 else 1) (s.chunkTensor i) i f.tepoch 0 p),
                 regs := TileRegs.zero, regS := if g.usesS then [] else t.regS }).showJob tile 1 (s.chunkTensor i)) ∧
  ((∀ (s : State) (tile tensor block : Nat) (rest : List (Nat × Nat)) (c : CatEntry) (g : ProgEntry) (p : PassDir), tile < 40 →
    s.readyBlocks tile = (tensor, block) :: rest → s.cat tensor = some c →
    s.progEntry (s.blockEpoch c block) c.prog = some g → g.isBlock = true → g.passes[1]? = some p →
    (s.tile tile).inv = none → s.jq.gen = false → s.inReset = false →
    Does (.blockSectionStart tile) s fun s =>
      (s.setTile tile fun t =>
        { t with inv := some (newInv 3 tensor block (s.blockEpoch c block) 1 p), regs := TileRegs.zero,
                 regSBlock := if g.usesS then [] else t.regSBlock }).showJob tile 2 tensor) ∧
  ∀ (s : State) (tile : Nat) (x : TileCtx), tile < 40 → s.tileCtx tile = some x → x.inv.preDue = true → s.jq.gen = false →
    s.inReset = false →
    let b := x.cat.edge
    let r := s.precondition x.inv.tensor x.inv.index b x.pass.preSplit (s.bufVals x.inv.tensor x.cat x.inv.index false 0 (b * b))
    let run := fun (s : State) => (s.precondTiles x.inv.tensor x.inv.index b).nonFiniteIf r.2 .arrays
    (∀ a, s.bufAddr x.inv.tensor x.cat x.inv.index true 0 = some a →
      Does (.prePassStart tile) s fun s =>
        ((run s).stateWrite tile a (r.1.flatMap bytes32)).setInv tile fun i => { i with preDue := false }) ∧
    (s.bufAddr x.inv.tensor x.cat x.inv.index true 0 = none →
      Does (.prePassStart tile) s fun s => (run s).setInv tile fun i => { i with preDue := false }))

/-- PASS_COMPLETE: an invocation that has issued its last word folds its CRCs into the step's digests, counts, and frees its
tile; an inner pass of a section goes on to the next pass with cleared norm registers instead (R195, R200, R205, R219, R227).
CHUNK_CONSUMED: a chunk whose own pass and whose blocks' sections have completed counts as consumed, and its HOLD buffer is
free; a chunk that something still needs stays (R131, R191). It rests on what the model takes where the spec is silent:
notes/assumptions/51.md. -/
def Obligations.InvocationsComplete : Prop :=
  (∀ (s : State) (tile : Nat) (x : TileCtx), tile < 40 → s.tileCtx tile = some x → x.inv.finished = true → s.inReset = false →
    (x.inv.isSection = false → (s.tile tile).saved = none →
      ∃ t, exec (.passComplete tile) s = .next t ∧ (t.tile tile).inv = none ∧ (x.inv.index, x.inv.epoch) ∈ t.ju.passed ∧
        t.ju.updChunks = stick s.ju.updChunks 1 ∧
        t.ju.acc = (x.inv.closed ++ x.inv.crcs).foldl Digests.add s.ju.acc ∧ t.stateMem = s.stateMem ∧ t.jq = s.jq) ∧
    (x.inv.isSection = true → x.prog.passes[x.inv.pass + 1]? = none → (s.tile tile).saved = none →
      ∃ t, exec (.passComplete tile) s = .next t ∧ (t.tile tile).inv = none ∧
        (x.inv.tensor, x.inv.index) ∈ t.ju.sections ∧ t.ju.updBlocks = stick s.ju.updBlocks 1 ∧
        t.ju.acc = (x.inv.closed ++ x.inv.crcs).foldl Digests.add s.ju.acc ∧ t.stateMem = s.stateMem ∧ t.jq = s.jq) ∧
    (∀ p, x.inv.isSection = true → x.prog.passes[x.inv.pass + 1]? = some p →
      ∃ t, exec (.passComplete tile) s = .next t ∧
        (t.tile tile).inv = some { x.inv.startPass (x.inv.pass + 1) p with closed := x.inv.closed ++ x.inv.crcs } ∧
        t.ju.acc = s.ju.acc ∧ t.stateMem = s.stateMem ∧ t.jq = s.jq)) ∧
  (∀ (s : State) (i : Nat),
    (s.chunkDone i = true → Does (.chunkConsumed i) s fun s =>
      let s := s.stageTake fun b => b.pool == .hold && b.hdr.toNat == i
      { s with jx := { s.jx with hold := s.jx.hold.filter (fun f => f.chunk != i), consumed := i :: s.jx.consumed },
               ju := { s.ju with ready := s.ju.ready.filter fun x => x != i } }) ∧
    (s.chunkDone i = false → Does (.chunkConsumed i) s id))

/-! ### Peer links -/

/-- Every frame command counts a header CRC failure, drops the frame and enters resync, in which nothing but a header that
starts a block is a frame's; it counts a frame CRC failure, or errored bytes, and drops the frame, and what the broken cell
of a DATA frame in sequence was being forwarded as ends with EOF 0xFE; with a retry already asked for nothing else changes
(R240, R247–R249, R252). -/
def Obligations.BrokenFramesAreCounted : Prop :=
  ∀ (s : State) (p : BitVec 3) (f : Frame), ∀ k ∈ frameCommands,
    let h := frameHdr f.hdr
    let n := p.toNat
    let q := s.port n
    let heard := fun (s : State) => s.setPort n fun q =>
      { q with lastFrame := f.hdr, rx := { q.rx with cut := q.rx.cut.eraseP fun c => c.frame == f } }
    (s.inResync n f = true → Does (k.2 p f) s id) ∧
    (q.hears = true → s.inResync n f = false → h.sof = 0xD5 → q.rx.retryOut = true →
      (headerCrc f.hdr.toNat ≠ h.hcrc → Does (k.2 p f) s fun s => (heard s).setPort n fun q =>
        { q with cntHcrc := stick q.cntHcrc 1, rx := { q.rx with resync := true } }) ∧
      (headerCrc f.hdr.toNat = h.hcrc → h.typ = k.1 → frameSizeOk h f = false → Does (k.2 p f) s fun s => (heard s).setPort n fun q =>
        { q with cntSize := stick q.cntSize 1, rx := { q.rx with resync := true } }) ∧
      (headerCrc f.hdr.toNat = h.hcrc → h.typ = k.1 → frameSizeOk h f = true →
        ((s.cutOf n f).any CutFrame.errored = true ∨ frameCrc f.hdr f.payload ≠ f.trailer.extractLsb' 0 32) →
        Does (k.2 p f) s fun s =>
          let t := (heard s).setPort n fun q => { q with cntFcrc := stick q.cntFcrc 1, rx := { q.rx with resync := false } }
          if k.1 = 0 ∧ h.vc = 0 ∧ h.fseq = q.rx.expect ∧ (q.state = 4 ∨ q.state = 5) then t.abortForward n f.payload else t))

/-- DATA_FRAME in sequence on a port that is UP delivers its payload, advances the expected FSEQ and owes an ACK; on a port
that is not admitted in the copy of its epoch it is counted instead, and its buffer's credit is granted back; a duplicate is
dropped; a frame from ahead is counted and never delivered (R249, R251–R253, R261). -/
def Obligations.DataFramesAreDeliveredInOrder : Prop :=
  ∀ (s : State) (p : BitVec 3) (f : Frame),
    let h := frameHdr f.hdr
    let n := p.toNat
    let ahead := (h.fseq - (s.port n).rx.expect).toNat
    let admitted := s.admits n (itemEpoch s.jg.epoch.current h.vc f.payload)
    s.hearsGood n 0 f = true → n < s.jl.ports.length → ((s.port n).state = 4 ∨ (s.port n).state = 5) →
    (ahead = 0 → h.first = true → h.last = true → bitsAt f.trailer.toNat 32 8 = 0xFD →
      ∃ t, exec (.dataFrame p f) s = .next t ∧ (t.port n).rx.expect = (s.port n).rx.expect + 1 ∧
        (t.port n).rx.retryOut = false ∧ (t.port n).lastFrame = f.hdr ∧
        (admitted = true → (t.port n).rx.items = (s.port n).rx.items ++ [(h.vc, f.payload)] ∧ (t.port n).rx.ackDue = true ∧
          (t.port n).noAdmit = (s.port n).noAdmit ∧ (t.port n).rx.granted = (s.port n).rx.granted) ∧
        (admitted = false → (t.port n).rx.items = (s.port n).rx.items ∧ (t.port n).noAdmit = stick (s.port n).noAdmit 1 ∧
          (t.port n).rx.granted = modifyNth (· + 1) h.vc (s.port n).rx.granted)) ∧
    (0 < ahead → ahead < 32768 → (s.port n).rx.retryOut = true →
      ∃ t, exec (.dataFrame p f) s = .next t ∧ (t.port n).cntSeq = stick (s.port n).cntSeq 1 ∧
        (t.port n).rx.expect = (s.port n).rx.expect ∧ (t.port n).rx.items = (s.port n).rx.items) ∧
    (32768 ≤ ahead → ∃ t, exec (.dataFrame p f) s = .next t ∧ (t.port n).rx.expect = (s.port n).rx.expect ∧
      (t.port n).rx.items = (s.port n).rx.items ∧ (t.port n).cntSeq = (s.port n).cntSeq)

/-- ACK_FRAME drops from the replay buffer every frame the cumulative ACK covers; CREDIT_FRAME takes the four cumulative
counts; NOT_READY ends a training attempt as failed (R246, R251, R254, R262). RETRY_FRAME resends the replay buffer in its
original order from the FSEQ asked for, asks nothing of a port that has nothing to resend, and fails the port, unless it is
fenced for a duplicate identity, when the frame is gone or the same request came RETRY_LIMIT times (R250, R264). -/
def Obligations.ControlFramesAct : Prop :=
  (∀ (s : State) (p : BitVec 3) (f : Frame),
    let h := frameHdr f.hdr
    let n := p.toNat
    n < s.jl.ports.length →
    (s.hearsGood n 1 f = true → h.ackv = true → s.queuesEmpty n = true →
      ∃ t, exec (.ackFrame p f) s = .next t ∧ (t.port n).tx.next = (s.port n).tx.next ∧ t.out = [] ∧
        (t.port n).tx.replay = (s.port n).tx.replay.filter fun x => decide (32768 ≤ (h.ack - x.fseq).toNat)) ∧
    (s.hearsGood n 3 f = true → ∃ t, exec (.creditFrame p f) s = .next t ∧ (t.port n).rx.expect = (s.port n).rx.expect ∧
      (t.port n).tx.recv = (List.range 4).map fun i => BitVec.ofNat 16 (natLE ((f.payload.drop (2 * i)).take 2))) ∧
    (s.hearsGood n 5 f = true → h.ackv = false → (s.port n).attempt = 2 →
      ∃ t, exec (.notReadyFrame p f) s = .next t ∧ (t.port n).attempt = 0 ∧ (t.port n).failed = (s.port n).failed + 1 ∧
        (t.port n).lastFail = 3 ∧ (t.port n).state = (s.port n).state)) ∧
  (∀ (s : State) (p : BitVec 3) (f : Frame),
    let n := p.toNat
    let q := s.port n
    let k : W16 := BitVec.ofNat 16 (natLE (f.payload.take 2))
    let times := if q.tx.reqSeq = k ∧ 0 < q.tx.reqCount then q.tx.reqCount + 1 else 1
    s.hearsGood n 2 f = true → (frameHdr f.hdr).ackv = false → n < s.jl.ports.length → q.state ≠ 7 →
    ¬(q.state = 6 ∧ q.cause = 2) →
    (times < s.jl.retryLimit.toNat → (q.tx.replay.any fun x => x.fseq == k) = true → q.tx.next ≠ k → s.queuesEmpty n = true →
      ∃ t, exec (.retryFrame p f) s = .next t ∧ (t.port n).replayed = stick q.replayed 1 ∧ (t.port n).tx.replay = q.tx.replay ∧
        (t.port n).tx.reqCount = times ∧
        t.out.length = (q.tx.replay.filter fun x => decide ((x.fseq - k).toNat < 32768)).length) ∧
    (times < s.jl.retryLimit.toNat → q.tx.next = k →
      ∃ t, exec (.retryFrame p f) s = .next t ∧ t.out = [] ∧ (t.port n).tx.reqCount = times ∧ (t.port n).state = q.state) ∧
    (times < s.jl.retryLimit.toNat → q.tx.next ≠ k → (q.tx.replay.any fun x => x.fseq == k) = false →
      ∃ t, exec (.retryFrame p f) s = .next t ∧ (t.port n).state = 7 ∧ (t.port n).cause = 4) ∧
    (s.jl.retryLimit.toNat ≤ times → ∃ t, exec (.retryFrame p f) s = .next t ∧ (t.port n).state = 7 ∧ (t.port n).cause = 3))

/-- Training: an attempt of a port that is not UP asks for adaptation, or sends IDENT once aligned; the two timeouts end an
attempt as failed with their reason; ADAPT_DONE lowers the request (R237, R256, R262). IDENT_FRAME: an IDENT that matches the
image's declaration brings the port UP on its 8 lanes; one that does not fences the port with cause 1 (R256–R258).
DEGRADE_FRAME: the far end's half is taken (R259). It rests on what the model takes where the spec is silent:
notes/assumptions/48.md. -/
def Obligations.PortsTrainAndIdentify : Prop :=
  (∀ (s : State) (p : BitVec 3),
    let n := p.toNat
    let q := s.port n
    n < s.jl.ports.length →
    (s.verified = true → q.state ≠ 4 → q.state ≠ 5 → ¬(q.state = 6 ∧ q.cause = 2) →
      (q.aligned = false → Does (.trainingAttempt p) s fun s =>
        (s.setPort n fun q => { q with state := 1, attempt := 1 }).setAdapt n true) ∧
      (q.aligned = true → ∃ t, exec (.trainingAttempt p) s = .next t ∧ (t.port n).state = 3 ∧ (t.port n).attempt = 2 ∧
        t.out.length = 1)) ∧
    (q.attempt = 1 → ∃ t, exec (.trainingAlignTimeout p) s = .next t ∧ (t.port n).attempt = 0 ∧
      (t.port n).failed = q.failed + 1 ∧ (t.port n).lastFail = 1) ∧
    (q.attempt = 2 → ∃ t, exec (.trainingIdentTimeout p) s = .next t ∧ (t.port n).attempt = 0 ∧
      (t.port n).failed = q.failed + 1 ∧ (t.port n).lastFail = 2) ∧
    Does (.adaptDone p) s fun s =>
      { s with pins := { s.pins with adaptReq := s.pins.adaptReq &&& ~~~(BitVec.ofNat 8 (2 ^ n)) } }) ∧
  (∀ (s : State) (p : BitVec 3) (f : Frame) (d : PeerDecl),
    let n := p.toNat
    let q := s.port n
    let i := identIn f.payload
    n < s.jl.ports.length → s.peer n = some d → (frameHdr f.hdr).ackv = false →
    (s.hearsGood n 4 f = true → s.verified = true → s.dupPort n i.id = none → ¬(q.state = 6 ∧ q.cause = 2) →
      (s.identPasses d i = true → ∃ t, exec (.identFrame p f) s = .next t ∧ (t.port n).partner = BitVec.ofNat 16 i.id ∧
        (t.port n).partnerValid = true ∧
        (t.port n).state = (if q.state = 4 ∨ q.state = 5 then q.state else 4)) ∧
      (s.identPasses d i = false → ∃ t, exec (.identFrame p f) s = .next t ∧ (t.port n).state = 6 ∧ (t.port n).cause = 1 ∧
        (t.port n).partner = BitVec.ofNat 16 i.id)) ∧
    (s.hearsGood n 6 f = true → q.state = 4 → d.degraded = true → q.rx.retryOut = true →
      ∃ t, exec (.degradeFrame p f) s = .next t ∧ (t.port n).state = 5 ∧
        (t.port n).half = bitAt (natLE (f.payload.take 1)) 0 ∧ (t.port n).realign = true))

/-- MARKER_RECEIVE: a lane locks on its third good marker in a row, whose BIP is the parity of the lane's bits since the one
before; a locked lane loses its lock on the third expected marker in a row that fails PATTERN or carries another LANE, which
marks it bad, and a BIP mismatch only adds to its count until the sixteenth in a row marks it bad too, which breaks no lock
of a port that is not UP; LANE_LOS drops the lock at once (R243, R244, R259). MARKER_TRANSMIT sends the next 8,192 block
slots of the frame stream and their marker on each lane in use, scrambled, encoded and dealt to the lanes, with the lane's
number among them and the parity of its own bits in the marker; CODEWORD_DECODE takes a codeword out of the lanes' bits and
counts what the Reed-Solomon decoder finds: nothing, a corrected codeword, or an uncorrectable one, whose bytes are errored;
the second codeword of a block completes it, and its frames are cut (R237–R243, R245). It rests on what the model takes where
the spec is silent: notes/assumptions/48.md. -/
def Obligations.LanesLockAndDecode : Prop :=
  (∀ (s : State) (p lane : BitVec 3) (m : Marker),
    let n := p.toNat
    let l := (s.port n).lanes.getD lane.toNat Lane.reset
    let up := (s.port n).state = 4 ∨ (s.port n).state = 5
    let par := (bipOf m.interval).toNat
    n < s.jl.ports.length → lane.toNat < (s.port n).lanes.length →
    (l.locked = false → l.good = 2 → bitsAt m.bits.toNat 0 60 = 0x5A3C96F0E1B7D24 → bitsAt m.bits.toNat 60 3 = l.id.toNat →
      bitsAt m.bits.toNat 64 8 = par → bitsAt m.bits.toNat 72 8 + bitsAt m.bits.toNat 64 8 = 255 → m.onTime = true →
      ∃ t, exec (.markerReceive p lane m) s = .next t ∧
        ((t.port n).lanes.getD lane.toNat Lane.reset).locked = true ∧ (t.port n).rx.scr = BitVec.allOnes 58) ∧
    (l.locked = true →
      let good := bitsAt m.bits.toNat 0 60 = 0x5A3C96F0E1B7D24 ∧ bitsAt m.bits.toNat 60 3 = l.id.toNat
      let even := bitsAt m.bits.toNat 64 8 = par
      (¬good → 2 ≤ l.miss → ∃ t, exec (.markerReceive p lane m) s = .next t ∧
        ((t.port n).lanes.getD lane.toNat Lane.reset).locked = false ∧ ((t.port n).lanes.getD lane.toNat Lane.reset).bad = true) ∧
      (¬good → l.miss < 2 → ∃ t, exec (.markerReceive p lane m) s = .next t ∧
        ((t.port n).lanes.getD lane.toNat Lane.reset).locked = true) ∧
      (good → ¬even → ∃ t, exec (.markerReceive p lane m) s = .next t ∧
        ((t.port n).lanes.getD lane.toNat Lane.reset).bip = stick l.bip 1 ∧
        (l.bipRun < 15 → ((t.port n).lanes.getD lane.toNat Lane.reset).locked = true)) ∧
      (¬good → l.miss < 2 → (s.port n).widen = false → ∃ t, exec (.markerReceive p lane m) s = .next t ∧
        (t.port n).lanes.getD lane.toNat Lane.reset = { l with miss := l.miss + 1, bipRun := 0, inSkew := m.inSkew, los := false }) ∧
      (good → (even ∨ l.bipRun < 15) → (s.port n).widen = false → ∃ t, exec (.markerReceive p lane m) s = .next t ∧
        (t.port n).lanes.getD lane.toNat Lane.reset =
          { l with miss := 0, bip := if even then l.bip else stick l.bip 1, bipRun := if even then 0 else l.bipRun + 1,
                   inSkew := m.inSkew, los := false }) ∧
      (good → ¬even → 15 ≤ l.bipRun → ∃ t, exec (.markerReceive p lane m) s = .next t ∧
        ((t.port n).lanes.getD lane.toNat Lane.reset).bad = true ∧
        (¬up → ((t.port n).lanes.getD lane.toNat Lane.reset).locked = true))) ∧
    ∃ t, exec (.laneLos p lane) s = .next t ∧ ((t.port n).lanes.getD lane.toNat Lane.reset).locked = false ∧
      ((t.port n).lanes.getD lane.toNat Lane.reset).los = true ∧ ((t.port n).lanes.getD lane.toNat Lane.reset).bad = true) ∧
  ((∀ (s : State) (p : BitVec 3) (gaps : List Nat), p.toNat < s.jl.ports.length →
    let q := s.port p.toNat
    let w := txWords (40 * 8192) 0 gaps q.tx.wire
    let streams := laneStreams q.active.length scrReset (groupsOf 320 w.1.flatten)
    let bits := fun (k : Nat) (lane : Nat) (b : List Bool) =>
      q.tx.rest.getD lane [] ++ (b ++ natBits 340 (markerBits k (bipOf b)).toNat)
    ∃ t, exec (.markerTransmit p gaps) s = .next t ∧ (t.port p.toNat).tx.wire = w.2 ∧ (t.port p.toNat).lanes = q.lanes ∧
      t.out = (q.active.zip streams).zipIdx.map fun x => .txd p.toNat x.1.1 (laneWords (bits x.2 x.1.1 x.1.2)).1) ∧
  ∀ (s : State) (p : BitVec 3) (second : Bool) (low high : List (List Bool)),
    let n := p.toNat
    let q := s.port n
    let cw := laneSymbols (q.inOrder (low ++ high)) second
    let r := rsDecode cw
    let data := match r with
      | .corrected c => c.take 128
      | _ => cw.take 128
    let d := scramble q.rx.scr (data.flatMap (natBits 10))
    let bad := r == .failed
    n < s.jl.ports.length →
    ∃ t, exec (.codewordDecode p second low high) s = .next t ∧ t.out = [] ∧ (t.port n).rx.scr = d.2 ∧
      (r = .clean → (t.port n).fecCorr = q.fecCorr ∧ (t.port n).fecUncorr = q.fecUncorr) ∧
      (∀ c, r = .corrected c → (t.port n).fecCorr = stick q.fecCorr 1 ∧ (t.port n).fecUncorr = q.fecUncorr) ∧
      (r = .failed → (t.port n).fecCorr = q.fecCorr ∧ (t.port n).fecUncorr = stick q.fecUncorr 1) ∧
      (second = false → (t.port n).rx.decoded = bitmapBytes d.1 ∧ (t.port n).rx.decodedBad = bad ∧ (t.port n).rx.cut = q.rx.cut) ∧
      (second = true → (t.port n).rx.decoded = [] ∧
        (t.port n).rx.cut = q.rx.cut ++ (q.rx.cutter.block (q.rx.decoded ++ bitmapBytes d.1) q.rx.decodedBad bad).2))

/-- The link timers: RETRY_TIMEOUT repeats an open request and counts it, ACK_TIMER sends the ACK that is owed, CREDIT_TIMER
repeats the credit counts of a port that is UP, DEGRADE_REPEAT repeats DEGRADE while the lanes realign, and
DEGRADE_REALIGN_TIMEOUT fails the port with cause 6, or, when a resume let all 8 lanes lock in vain, goes back to the half
(R250, R251, R254, R259, R260). It rests on what the model takes where the spec is silent: notes/assumptions/48.md. -/
def Obligations.LinkTimersAct : Prop :=
  ∀ (s : State) (p : BitVec 3),
    let n := p.toNat
    let q := s.port n
    n < s.jl.ports.length → ¬(q.state = 6 ∧ q.cause = 2) →
    (q.rx.retryOut = true → q.rx.retryCount + 1 < s.jl.retryLimit.toNat →
      ∃ t, exec (.retryTimeout p) s = .next t ∧ (t.port n).retrySent = stick q.retrySent 1 ∧
        (t.port n).rx.retryCount = q.rx.retryCount + 1 ∧ (t.port n).state = q.state ∧ t.out.length = 1) ∧
    (q.rx.retryOut = true → s.jl.retryLimit.toNat ≤ q.rx.retryCount + 1 → q.state ≠ 7 →
      ∃ t, exec (.retryTimeout p) s = .next t ∧ (t.port n).state = 7 ∧ (t.port n).cause = 3) ∧
    (q.rx.ackDue = true → Does (.ackTimer p) s fun s => s.sendCtl n 1 0) ∧
    ((q.state = 4 ∨ q.state = 5) → Does (.creditTimer p) s fun s => s.sendCredit n) ∧
    (q.realign = true → q.lanes.any Lane.bad = true → Does (.degradeRepeat p) s fun s => s.sendCtl n 6 (b2n q.half)) ∧
    (q.widen = true → Does (.degradeRealignTimeout p) s fun s => s.setPort n fun q =>
      { q with widen := false, realign := true, lanes := q.lanes.map Lane.relock }) ∧
    (q.realign = true → q.widen = false → q.state ≠ 7 → ∃ t, exec (.degradeRealignTimeout p) s = .next t ∧ (t.port n).state = 7 ∧
      (t.port n).cause = 6 ∧ (t.port n).realign = false)

/-! ### Scale-out RDMA -/

/-- QP_CONTEXT_LOAD reads the queue's context: a good one sets the queue to its state, PSNs and empty rings with the
completion count kept; a queue in RTS takes no context but RESET, and the write is REJECTED (R270, R271). SQ_DOORBELL and
RQ_DOORBELL post the producer index (R272, R285). It rests on what the model takes where the spec is silent:
notes/assumptions/34.md. -/
def Obligations.QueuesAreLoadedAndPosted : Prop :=
  ∀ (s : State) (port : Mgmt) (v : W32), s.listening = true →
    let num := v.toNat % 65536
    let b := memRead s.hostMem (s.img.rdma.ctxBase + 128 * num) 128
    let rts := (match s.queue num with | some q => q.state == 1 | none => false)
    let count := (match s.queue num with | some q => q.completions | none => 0)
    (∀ st c, v.getLsbD 16 = true → (rts = false ∨ ctxNat b 0 1 = 0) → parseCtx b = some (st, c) →
      ∃ t q, exec (.qpContextLoad port v) s = .next t ∧ t.response port = ⟨0, 0⟩ ∧ t.queue num = some q ∧
        q.state = BitVec.ofNat 2 st ∧ q.ctx = c ∧ q.nextPsn = c.sqPsn ∧ q.expPsn = c.rqPsn ∧ q.sqPi = 0 ∧ q.sqCi = 0 ∧
        q.ops = [] ∧ q.completions = count) ∧
    (v.getLsbD 16 = true → rts = true → ctxNat b 0 1 ≠ 0 →
      ∃ t, exec (.qpContextLoad port v) s = .next t ∧ t.response port = ⟨4, 0⟩ ∧ t.js.rejCount = stick s.js.rejCount 1) ∧
    (∀ q, v.getLsbD 16 = false → v.getLsbD 17 = false → num < 61440 → s.queue num = some q →
      ∃ t q', exec (.sqDoorbell port v) s = .next t ∧ t.response port = ⟨0, 0⟩ ∧ t.queue num = some q' ∧ q'.sqPi = s.je.pi) ∧
    (∀ q, v.getLsbD 16 = false → v.getLsbD 17 = true → num < 61440 → s.queue num = some q →
      Does (.rqDoorbell port v) s fun s => (s.setQueue { q with rqPi := s.je.pi }).ok port)

/-- What the requester hears in frames that pass the MAC's checks: an acknowledgement completes what it covers and lets the
queues go on; a NAK resends, and a remote access error or a retry past the limit puts the queue in ERROR; an RNR NAK makes it
wait for its timer, or puts it in ERROR past its own limit; a CNP halves its window once per round trip (R273, R275–R277,
R285). One acknowledged SEND or WRITE of one packet completes: the count rises, the tries start over, and a signalled entry
gets its completion record (R272, R273, R275). READ_RESPONSE: the expected piece of the oldest outstanding READ is placed at
its address; a piece that is not the last leaves the READ waiting for the next one (R272, R273). It rests on what the model
takes where the spec is silent: notes/assumptions/24.md and notes/assumptions/34.md. -/
def Obligations.TheRequesterHearsItsPeer : Prop :=
  (∀ (s : State) (rx : EthRx) (qpn psn : BitVec 24) (q : Queue), s.roceGood rx.eport.toNat rx.mac = true →
    s.connected rx.eport.toNat qpn = some q →
    let noted := fun (s : State) => s.bufferUse rx.eport.toNat rx.mac.pcp rx.mac.fillKiB
    (Does (.roceAck rx qpn psn) s fun s => (((noted s).ackUpTo q psn).1.setQueue ((noted s).ackUpTo q psn).2).kickAll) ∧
    (∃ t q', exec (.roceNak rx qpn psn .remoteAccess) s = .next t ∧ t.queue q.num = some q' ∧ q'.state = 2 ∧ q'.ops = [] ∧
      t.je.errValid = true) ∧
    ((q.ackOps (psn - 1) q.ops).1 = 0 → q.ctx.retry ≤ q.tries →
      ∃ t q', exec (.roceNak rx qpn psn .psnSequence) s = .next t ∧ t.queue q.num = some q' ∧ q'.state = 2) ∧
    ((q.ackOps (psn - 1) q.ops).1 = 0 → q.tries < q.ctx.retry → q.posted = [] → q.sqCi = q.sqPi →
      ∃ t q', exec (.roceNak rx qpn psn .psnSequence) s = .next t ∧ t.queue q.num = some q' ∧ q'.state = 1 ∧
        q'.tries = q.tries + 1) ∧
    (∀ timer, q.ctx.rnrRetry = 7 → ∃ t q', exec (.rnrNak rx qpn psn timer) s = .next t ∧ t.queue q.num = some q' ∧
      q'.rnrWait = true ∧ q'.state = 1) ∧
    (∀ timer, (q.ackOps (psn - 1) q.ops).1 = 0 → q.ctx.rnrRetry ≠ 7 → q.ctx.rnrRetry ≤ q.rnrTries →
      ∃ t q', exec (.rnrNak rx qpn psn timer) s = .next t ∧ t.queue q.num = some q' ∧ q'.state = 2) ∧
    (q.ctx.ccEn = true → q.halvedAt = none → Does (.cnp rx qpn) s fun s =>
      (noted s).setQueue { q with window := max (q.window / 2) q.ctx.mtu, halvedAt := some q.nextToSend }) ∧
    ((q.ctx.ccEn = false ∨ q.halvedAt ≠ none) → Does (.cnp rx qpn) s fun s => (noted s).setQueue q)) ∧
  (∀ (s : State) (q : Queue) (o : SqOp) (psn : BitVec 24), q.ops = [o] → o.entry.opcode < 4 → o.packets = 1 → o.sent = 1 →
    o.acked = 0 → o.psn = psn → 0 < q.packetLen o.entry 0 → o.entry.exportLast = false →
    let r := s.ackUpTo q psn
    r.2.ops = [] ∧ r.2.completions = q.completions + 1 ∧ r.2.tries = 0 ∧ r.2.rnrTries = 0 ∧
      (o.entry.signal = false → r.1 = s) ∧
      (o.entry.signal = true → r.2.cqCount = q.cqCount + 1 ∧
        r.1.hostMem = memWrite s.hostMem (q.ctx.cqBase + 32 * (q.cqCount % 2 ^ q.ctx.cqLog2))
          (bytes64 o.entry.wrId ++ bytesLE 4 o.entry.length ++ bytes32 o.entry.imm ++ bytesLE 2 q.num ++ [0] ++
            bytesLE 1 o.entry.opcode ++ List.replicate 11 0 ++ bytesLE 1 (1 - q.cqCount / 2 ^ q.ctx.cqLog2 % 2)))) ∧
  (∀ (s : State) (rx : EthRx) (qpn psn : BitVec 24) (b : List Byte) (last : Bool) (q : Queue) (o : SqOp) (rest : List SqOp),
    s.roceGood rx.eport.toNat rx.mac = true → s.connected rx.eport.toNat qpn = some q → q.ops = o :: rest →
    o.entry.opcode = 4 → o.started = true → o.acked = 0 → 0 < o.sent → psn = o.psn + BitVec.ofNat 24 (o.got / q.ctx.mtu) →
    b.length = q.packetLen o.entry (o.got / q.ctx.mtu) → last = decide (o.got + b.length = o.entry.length) →
    ∃ t q', exec (.readResponse rx qpn psn b last) s = .next t ∧ t.queue q.num = some q' ∧
      (o.entry.lspace = 1 → t.stateMem = memWrite s.stateMem (o.entry.laddr + o.got) b) ∧
      (o.entry.lspace ≠ 1 → t.stateMem = s.stateMem) ∧
      (last = false → ∃ o', q'.ops.head? = some o' ∧ o'.got = o.got + b.length ∧ o'.acked = 0) ∧
      (last = true → rest = [] → q.posted = [] → q.sqCi = q.sqPi → q'.ops = [] ∧ q'.completions = q.completions + 1))

/-- ROCE_REQUEST_PACKET: the MAC counts what fails a check and drops it; a WRITE of one packet in sequence, to memory that
the region table, its rights and its pages allow, is placed page by page and acknowledged, and the next PSN is expected; one
from ahead is answered by one NAK and placed nowhere (R266–R269, R275, R277, R283). It rests on what the model takes where
the spec is silent: notes/assumptions/26.md and notes/assumptions/34.md. -/
def Obligations.TheResponderPlacesPackets : Prop :=
  ∀ (s : State) (e : BitVec 1) (pkt : RocePacket),
    let n := e.toNat
    let p := s.eth n
    (p.state ≠ 0 → s.je.loaded = false → Does (.roceRequestPacket e pkt) s fun s =>
      s.setEth n fun p => { p with cntEarly := stick p.cntEarly 1 }) ∧
    (p.state ≠ 0 → s.je.loaded = true → (pkt.eth.len < 64 ∨ 9216 < pkt.eth.len) → pkt.eth.parses = false →
      Does (.roceRequestPacket e pkt) s fun s => s.setEth n fun p => { p with cntSize := stick p.cntSize 1 }) ∧
    (p.state ≠ 0 → s.je.loaded = true → 64 ≤ pkt.eth.len → pkt.eth.len ≤ 9216 → pkt.eth.fcsOk = false →
      Does (.roceRequestPacket e pkt) s fun s => s.setEth n fun p => { p with cntFcs := stick p.cntFcs 1 }) ∧
    (∀ q pieces, s.roceGood n pkt.eth = true → s.connected n pkt.qpn = some q → q.stalled = false → pkt.psn = q.expPsn →
      pkt.op = .writeOnly → pkt.payload ≠ [] → s.lookup pkt.rkey pkt.va.toNat pkt.payload.length true none = .good pieces →
      s.sendsIdle = true →
      ∃ t q', exec (.roceRequestPacket e pkt) s = .next t ∧
        t.hostMem = (pieces.foldl (fun x l => (memWrite x.1 l.1 (x.2.take l.2), x.2.drop l.2)) (s.hostMem, pkt.payload)).1 ∧
        t.stateMem = s.stateMem ∧ t.queue q.num = some q' ∧ q'.expPsn = pkt.psn + 1 ∧ q'.nakFor = none ∧
        (pkt.ackReq = true → (s.eth n).maySend q.ctx.prio = true → .roce n q.num (.ack pkt.psn) ∈ t.out)) ∧
    (∀ q, s.roceGood n pkt.eth = true → s.connected n pkt.qpn = some q → 0 < (pkt.psn - q.expPsn).toNat →
      (pkt.psn - q.expPsn).toNat < 2 ^ 23 → q.nakFor ≠ some q.expPsn → s.sendsIdle = true →
      ∃ t q', exec (.roceRequestPacket e pkt) s = .next t ∧ t.hostMem = s.hostMem ∧ t.queue q.num = some q' ∧
        q'.expPsn = q.expPsn ∧ q'.nakFor = some q.expPsn ∧
        ((s.eth n).maySend q.ctx.prio = true → .roce n q.num (.nak q.expPsn .psnSequence) ∈ t.out))

/-- PFC_FRAME pauses and resumes the priorities it names, PFC_PAUSE_EXPIRY resumes one whose quanta have run out,
PFC_XOFF_REPEAT takes what each priority uses of the receive buffer, sends XON for one that has fallen 64 KiB below XOFF and
repeats every XOFF still in force, and PFC_HOLD_TIMEOUT records a priority that has been paused for too long (R274,
R283–R285). The requester's timers: ROCE_ACK_TIMEOUT puts a queue past its retry limit in ERROR and counts a try otherwise;
RNR_TIMER_EXPIRY ends the wait (R275, R277). It rests on what the model takes where the spec is silent:
notes/assumptions/34.md. -/
def Obligations.EthernetTimersAct : Prop :=
  (∀ (s : State) (e : BitVec 1) (prio : BitVec 3) (enable : BitVec 8) (quanta : List W16), s.je.ports.length = 2 →
    let n := e.toNat
    let p := s.eth n
    (p.state ≠ 0 → s.je.loaded = true → ∃ t, exec (.pfcFrame e enable quanta) s = .next t ∧
      ∀ i, i < 8 → (t.eth n).paused.getLsbD i = if enable.getLsbD i then quanta.getD i 0 != 0 else p.paused.getLsbD i) ∧
    (p.paused.getLsbD prio.toNat = true → ∃ t, exec (.pfcPauseExpiry e prio) s = .next t ∧
      ∀ i, i < 8 → (t.eth n).paused.getLsbD i = (p.paused.getLsbD i && i != prio.toNat)) ∧
    (∀ fill : List Nat, p.state ≠ 0 → Does (.pfcXoffRepeat ⟨e, fill⟩) s fun s =>
      let u := if s.je.loaded then fill.zipIdx.foldl (fun u x => u.bufferUse n (BitVec.ofNat 3 x.2) x.1) s else s
      { u with out := u.out ++ ((List.range 8).filter fun i => (u.eth n).xoffSent.getLsbD i).map fun i => .pfc n i true }) ∧
    (∀ k : Nat, p.state ≠ 0 → s.je.loaded = true → p.xoffSent.getLsbD 0 = true → k + 64 < p.xoff.toNat →
      ∃ t, exec (.pfcXoffRepeat ⟨e, [k]⟩) s = .next t ∧ .pfc n 0 false ∈ t.out ∧ (t.eth n).xoffSent.getLsbD 0 = false) ∧
    (p.paused.getLsbD prio.toNat = true → Does (.pfcHoldTimeout e prio) s fun s =>
      s.event (0x49 + n) 0x0804 1 [i1 n, i1 prio.toNat])) ∧
  (∀ (s : State) (num : W16) (q : Queue), s.queue num.toNat = some q → q.state = 1 →
    (q.ops.any SqOp.started = true →
      ∃ t q', exec (.roceAckTimeout num) s = .next t ∧ t.queue num.toNat = some q' ∧
        (q.ctx.retry ≤ q.tries → q'.state = 2 ∧ t.je.errValid = true) ∧
        (q.tries < q.ctx.retry → q'.tries = q.tries + 1)) ∧
    (q.rnrWait = true → ∃ t q', exec (.rnrTimerExpiry num) s = .next t ∧ t.queue num.toNat = some q' ∧ q'.rnrWait = false))

/-- PAGE_DONE places the oldest parked packet where the region table now leads and resumes its queue; ETH_LINK_CHANGE follows
the PCS lock and records EV_ETH_LINK; ETH_CONFIG_LOAD opens the locked ports and clears what held their priorities (R277,
R281, R283, R284). It rests on what the model takes where the spec is silent: notes/assumptions/26.md and
notes/assumptions/34.md. -/
def Obligations.PagesAndPortsComeBack : Prop :=
  (∀ (s : State) (port : Mgmt) (v : W32) (k : Parked) (rest : List Parked) (q : Queue) (pieces : List (Nat × Nat)),
    s.listening = true → v.getLsbD 30 = true → s.je.parked = k :: rest → s.queue k.queue = some q →
    s.packetMem q k.pkt (some k.page.toNat) = .good pieces → s.sendsIdle = true →
    ∃ t q', exec (.pageDone port v) s = .next t ∧ t.je.parked = rest ∧ t.queue k.queue = some q' ∧ q'.stalled = false ∧
      t.response port = ⟨0, 0⟩ ∧
      (k.pkt.op = .writeOnly → k.pkt.payload ≠ [] → q'.expPsn = k.pkt.psn + 1 ∧
        t.hostMem = (pieces.foldl (fun x l => (memWrite x.1 l.1 (x.2.take l.2), x.2.drop l.2)) (s.hostMem, k.pkt.payload)).1)) ∧
  (∀ (s : State) (e : BitVec 1) (locked : Bool), s.je.ports.length = 2 → (s.eth e.toNat).locked ≠ locked → s.eventsIn = true →
    ∃ t, exec (.ethLinkChange e locked) s = .next t ∧ (t.eth e.toNat).locked = locked ∧
      (t.eth e.toNat).state = (if !locked then 0 else if s.je.loaded then 2 else 1) ∧
      (s.sendsIdle = true → t.newest.map EvEntry.code = some 0x0803)) ∧
  ∀ s : State, s.js.boot.verified = true → s.je.loaded = false → s.je.ports.length = 2 →
    ∃ t, exec .ethConfigLoad s = .next t ∧ t.je.loaded = true ∧ t.je.queues = [] ∧ t.je.parked = [] ∧
      ∀ n, n < 2 → (t.eth n).xoffSent = 0 ∧ (t.eth n).state = (if (s.eth n).locked then 2 else 0) ∧
        ((s.eth n).locked = true → ∀ i, i < 8 → .pfc n i false ∈ t.out)

/-! ### The Mover and the memory ports -/

/-- MOVER_START, MOVER_PAUSE, MOVER_UNPAUSE and MOVER_STOP on a service-class channel; a channel of the data class or of the
offload class is closed to software, and the write is REJECTED (R296, R297, R300, R303–R305; for a running channel
notes/assumptions/28.md, for a paused one that may not go on notes/assumptions/35.md). -/
def Obligations.ServiceChannelsAreDriven : Prop :=
  ∀ (s : State) (port : Mgmt) (ch : BitVec 6) (v : W32), s.listening = true → s.jm.chans.length = 64 →
    let n := ch.toNat
    let c := s.chan n
    let fields := v &&& 0x0003FFF8
    let next : Chan := { c.edit (fun c => { c with ctl := fields }) with pause := false }
    (s.chanClosed n = true →
      (v.getLsbD 0 = true → Does (.moverStart port ch v) s fun s => s.refuse port (0x090000 + 0x40 * n) 4) ∧
      (v.getLsbD 0 = false → v.getLsbD 1 = true → v.getLsbD 2 = false →
        Does (.moverPause port ch v) s fun s => s.refuse port (0x090000 + 0x40 * n) 4) ∧
      (v.getLsbD 0 = false → v.getLsbD 2 = true → Does (.moverStop port ch v) s fun s => s.refuse port (0x090000 + 0x40 * n) 4)) ∧
    (s.chanClosed n = false → c.busy = false → c.halt = false → v.getLsbD 0 = true → v.getLsbD 1 = false → v.getLsbD 2 = false →
      ∃ t, exec (.moverStart port ch v) s = .next t ∧ t.response port = ⟨0, 0⟩ ∧ (t.chan n).ctl = fields ∧
        (s.startErr true next = 0 → (t.chan n).busy = true ∧ (t.chan n).err = 0 ∧ (t.chan n).complete = false ∧
          (t.chan n).srcAt = c.src ∧ (t.chan n).dstAt = c.dst ∧ (t.chan n).cntAt = c.cnt) ∧
        (s.startErr true next ≠ 0 → (t.chan n).busy = false ∧ (t.chan n).err = BitVec.ofNat 2 (s.startErr true next))) ∧
    (s.chanClosed n = false → c.busy = true → fields = c.ctl → v.getLsbD 0 = false →
      (v.getLsbD 1 = true → v.getLsbD 2 = false → Does (.moverPause port ch v) s fun s =>
        (s.setChan n fun c => { c with pause := true, paused := c.paused || c.paced }).ok port) ∧
      (v.getLsbD 1 = false → v.getLsbD 2 = false → c.pause = true →
        (c.paused = true → s.startErr true c = 0 → ∃ t, exec (.moverUnpause port ch v) s = .next t ∧ t.response port = ⟨0, 0⟩ ∧
          (t.chan n).busy = true ∧ (t.chan n).paused = false ∧ (t.chan n).pause = false ∧
          (t.chan n).paced = c.heldAt (s.fillOf c.paceQueue) c.paced) ∧
        (c.paused = true → s.startErr true c ≠ 0 → Does (.moverUnpause port ch v) s fun s =>
          (s.setChan n fun c => { c with pause := false, err := BitVec.ofNat 2 (s.startErr true c) }).ok port) ∧
        (c.paused = false → Does (.moverUnpause port ch v) s fun s =>
          ((s.setChan n fun c => { c with pause := false }).fetchNext n).ok port)) ∧
      (v.getLsbD 1 = false → v.getLsbD 2 = true → Does (.moverStop port ch v) s fun s =>
        (s.setChan n fun c => if c.paused || c.paced
          then { c with pause := false, busy := false, paused := false, paced := false, stopping := false }
          else { c with pause := false, stopping := true }).ok port))

/-- MOVER_COMPLETE of a linear transfer: the bytes, swapped as SWAP says, are at the destination, the channel's DONE bit and
completion count rise, and it is idle unless it is circular; MOVER_DRAINED ends a stop after the bytes in flight, or pauses
the channel (R297, R301–R304). PACING_THRESHOLD: the fill level of a queue holds a filling channel at HIGH and above and lets
it go at LOW and below, and a draining one the other way round, and a channel that is let go reads on (R300).
OFFLOAD_ENTRY_COMPLETE: the entry's bytes are at their destination, its record is written with status 1, DONE rises and the
list goes on (R305). It rests on what the model takes where the spec is silent: notes/assumptions/27.md. -/
def Obligations.TransfersComplete : Prop :=
  (∀ (s : State) (ch : BitVec 6), s.jm.chans.length = 64 →
    let n := ch.toNat
    let c := s.chan n
    c.busy = true → c.paused = false → c.offRun = false → c.sg = false →
    (c.paced = false → ∃ t, exec (.moverComplete ch) s = .next t ∧
      t.space c.dstSpace = memWrite (s.space c.dstSpace) c.dst.toNat
        (swapBytes c.swap (memRead (s.space c.srcSpace) c.src.toNat c.cnt.toNat)) ∧
      t.jm.done.getLsbD n = true ∧ (t.chan n).completions = stick c.completions 1 ∧ (t.chan n).complete = true ∧
      ((c.circ = false ∨ n < 48) → (t.chan n).busy = false ∧ (t.chan n).cnt = 0) ∧
      (c.circ = true → 48 ≤ n → (t.chan n).busy = true ∧ (t.chan n).src = c.srcAt ∧ (t.chan n).dst = c.dstAt ∧
        (t.chan n).cnt = c.cntAt ∧ (t.chan n).overrun = (c.overrun || s.jm.done.getLsbD n))) ∧
    ∀ moved : W32, c.swap = 0 → (c.pause = true ∨ c.stopping = true) → moved.toNat ≤ c.cnt.toNat →
      ∃ t, exec (.moverDrained ch moved) s = .next t ∧
        t.space c.dstSpace = memWrite (s.space c.dstSpace) c.dst.toNat (memRead (s.space c.srcSpace) c.src.toNat moved.toNat) ∧
        (t.chan n).cnt = c.cnt - moved ∧ t.jm.done = s.jm.done ∧
        (c.stopping = true → (t.chan n).busy = false) ∧ (c.stopping = false → (t.chan n).paused = true)) ∧
  (∀ (s : State) (q : BitVec 4) (fill : BitVec 12), q.toNat < 8 → q.toNat < s.jm.ownFill.length →
    Does (.pacingThreshold q fill) s fun s =>
      let u := { s with jm := { s.jm with
        ownFill := modifyNth (fun _ => fill) q.toNat s.jm.ownFill,
        chans := s.jm.chans.map fun c =>
          if c.busy && c.paceEn && c.paceQueue == q.toNat then
            { c with paced := if c.paceDrain then
                (if fill.toNat ≤ c.low then true else if c.high ≤ fill.toNat then false else c.paced)
              else (if c.high ≤ fill.toNat then true else if fill.toNat ≤ c.low then false else c.paced) }
          else c } }
      (List.range 64).foldl (fun u ch => if (u.chan ch).paceEn && (u.chan ch).paceQueue == q.toNat then u.fetchNext ch else u) u) ∧
  (∀ (s : State) (ch : BitVec 6) (d : OffloadDecl), s.decl.offload = some d → 60 ≤ ch.toNat → s.jm.chans.length = 64 →
    (s.chan ch.toNat).offRun = true → memGet s.jq.db (4080 + (ch.toNat - 60)) = 0 →
    let n := ch.toNat
    let w := s.offEntry n
    let st := d.base + bitsAt w 64 48
    let len := bitsAt w 128 32
    let flag := bitsAt w 192 48
    let record := fun m => if flag = 0 then m else memWrite m flag (bytesLE 8 ((s.chan n).offIdx % 2 ^ 32 + 2 ^ 32))
    ∃ t, exec (.offloadEntryComplete ch) s = .next t ∧ t.jm.done.getLsbD n = true ∧ (t.chan n).offRun = false ∧
      (t.chan n).busy = false ∧ (t.chan n).completions = stick (s.chan n).completions 1 ∧
      (t.chan n).offIdx = (if bitAt w 161 then 0 else (s.chan n).offIdx + 1) ∧
      (bitAt w 160 = true → t.stateMem = s.stateMem ∧
        t.hostMem = record (memWrite s.hostMem (bitsAt w 0 48) (memRead s.stateMem st len))) ∧
      (bitAt w 160 = false → t.hostMem = record s.hostMem ∧
        t.stateMem = memWrite s.stateMem st (memRead s.hostMem (bitsAt w 0 48) len)))

/-- MEM_RESPONSE: a good response frees its tag, the answer of a Mover read lets that channel go on, and a response that
nothing waits for changes nothing; a late one on a state port is counted by its refresh flag; an error is counted and sets
FAULT, and a read that fails on a line of a mask slot spoils that mask, or it halts the Mover channel that asked, busy or
not; MEM_REQUEST_TIMEOUT retires the tag and is a state-port failure on an SP port (R89, R292, R294, R295, R304, R353). It
rests on what the model takes where the spec is silent: notes/assumptions/29.md and notes/assumptions/56.md. -/
def Obligations.MemoryResponsesAreTaken : Prop :=
  ∀ (s : State) (req : MemReq), (s.jm.retired.any fun r => r == (req.port, req.tag)) = false →
    let held := s.holder req.port req.tag
    let real := s.named req
    let idle := held = none ∧ (s.jm.waiting.any fun r => r.port == req.port) = false
    (∀ refresh, idle → Does (.memResponse req 0 false refresh) s id) ∧
    (∀ r refresh, held = some r → (r.unit ≠ 0x2E ∨ r.write = true) →
      Does (.memResponse req 0 false refresh) s fun s => s.freePort req.port req.tag) ∧
    (∀ r refresh, held = some r → r.unit = 0x2E → r.write = false →
      Does (.memResponse req 0 false refresh) s fun s => (s.freePort req.port req.tag).readDone r.chan.toNat) ∧
    (∀ p, req.port = .sp p →
      (idle → Does (.memResponse req 0 true true) s fun s =>
        { s with jm := { s.jm with spLateRef := modifyNth (fun c => stick c 1) p.toNat s.jm.spLateRef,
                                   lateRef := s.jm.lateRef ++ [p.toNat] } }) ∧
      (idle → Does (.memResponse req 0 true false) s fun s =>
        { s with jm := { s.jm with spLate := modifyNth (fun c => stick c 1) p.toNat s.jm.spLate } }) ∧
      (real.unit ≠ 0x2E → ∃ t, exec (.memRequestTimeout req) s = .next t ∧ t.jm.retired = s.jm.retired ++ [(req.port, req.tag)] ∧
        t.jg.member.state = 2 ∧ t.jq.verdict.fault = true ∧
        t.jm.spErr = modifyNth (fun c => stick c 1) p.toNat s.jm.spErr)) ∧
    (∀ status : BitVec 2, status ≠ 0 → real.unit ≠ 0x2E → ∃ t, exec (.memResponse req status false false) s = .next t ∧
      t.jq.verdict.fault = true ∧ t.jm.retired = s.jm.retired ∧
      (∀ p e row k, req.port = .sp p → real.write = false → e ∈ s.img.catalogue → row * e.rowGroups < e.groups → k < 4 →
        e.maskSlot row k < real.addr.toNat / 512 * 512 + 512 →
        real.addr.toNat / 512 * 512 < e.maskSlot row k + maskSlotBytes (e.rowLen row) → e.maskSlot row k ∈ t.ji.maskBad)) ∧
    (∀ status : BitVec 2, status ≠ 0 → real.unit = 0x2E → s.jm.chans.length = 64 →
      ∃ t, exec (.memResponse req status false false) s = .next t ∧ (t.chan real.chan.toNat).halt = true ∧
        (t.chan real.chan.toNat).busy = false ∧ (t.chan real.chan.toNat).faddr = real.addr ∧
        (t.chan real.chan.toNat).dir = real.write ∧ (real.chan.toNat < 48 → t.jq.verdict.fault = true))

/-! ### The block codec -/

/-- KV_BLOCK_ENCODE: the lane's oldest accepted block, whose payload must be all in, is written: as it is in a SEALED region,
COMPRESSED with the table of the smallest pod when that pod fits the slot, and RAW otherwise; KV_BLOCK_WRITTEN raises the
region's count and writes it where the region has a flag address (R306–R312). It rests on what the model takes where the spec
is silent: notes/assumptions/49.md. -/
def Obligations.BlocksAreEncodedAndCounted : Prop :=
  (∀ (s : State) (tile : Nat) (q : KvReq), tile < 40 →
    let mine := fun (q : KvReq) => q.block % 40 == tile && !q.issued
    let r := s.region q.region
    let tables := (s.tables q.epoch).prefixes
    let header := podHeader 1 r.fmt 0 q.epoch.toNat [] q.raw
    let asRaw := memWrite (memWrite (memWrite s.hostMem (r.homeOf q.block) header) (r.homeOf q.block + 16) (q.raw.drop 16))
      (r.spillOf q.block) (q.raw.take 16)
    s.jc.reqs.find? mine = some q →
    (q.queue ≠ none → Does (.kvBlockEncode tile) s id) ∧
    (q.queue = none → ∃ t, exec (.kvBlockEncode tile) s = .next t ∧ t.jc.reqs = markFirst mine s.jc.reqs ∧ t.stateMem = s.stateMem ∧ t.jq = s.jq ∧
      (r.isSealed = true → t.hostMem = memWrite s.hostMem (r.homeOf q.block) q.raw) ∧
      (r.isSealed = false → choosePod tables r q.raw = none → t.hostMem = asRaw ∧ t.jc.raw = stick s.jc.raw 1) ∧
      (∀ c, r.isSealed = false → choosePod tables r q.raw = some c → slotBytes r.slot < podTotal r.fmt c.body →
        t.hostMem = asRaw ∧ t.jc.raw = stick s.jc.raw 1) ∧
      (∀ c, r.isSealed = false → choosePod tables r q.raw = some c → podTotal r.fmt c.body ≤ slotBytes r.slot → s.jc.verify = false →
        let pod := podBytes r.fmt c.table q.epoch.toNat c.body q.raw
        t.hostMem = memWrite s.hostMem (r.homeOf q.block) (pod ++ List.replicate (slotBytes r.slot - pod.length) 0) ∧
          t.jc.compressed = stick s.jc.compressed 1))) ∧
  ∀ (s : State) (region : BitVec 8) (block : BitVec 24),
    let this := fun (q : KvReq) => q.region == region.toNat && q.block == block.toNat && q.issued
    let n := (tabGet region.toNat s.jc.written).getD 0 + 1
    let flag := (s.region region.toNat).flag
    s.jc.reqs.any this = true →
    Does (.kvBlockWritten region block) s fun s =>
      let u := { s with jc := { s.jc with written := tabSet region.toNat n s.jc.written, reqs := dropFirst this s.jc.reqs } }
      if flag = 0 then u else u.hostWrite (block.toNat % 40) flag (bytes64 n)

/-- XT_CONFIG_WRITE drives the next word over XT, and STAGED follows the last word of a swap; XT_EPOCH_ADVANCE makes
`XT_EPOCH` follow the table epoch and renames the expanders' copies; XR_REPORT counts a bad pod, records EV_POD_BAD and
latches the first (R321). EXPANDER_SLOT: a SEALED slot passes as it is, a bad header is poison of cause 1, an unknown epoch
of cause 2, a table that epoch lacks of cause 3, a RAW block asks for its spill line and its remainder, and a COMPRESSED one
is decoded; EXPANDER_FETCH_RESPONSE joins a RAW block, a wrong CRC is poison of cause 4 and an error of cause 5; a report
that waited goes out when XE_ERR_READY is high (R317–R320). It rests on what the model takes where the spec is silent:
notes/assumptions/30.md. -/
def Obligations.ExpandersAreConfiguredAndRead : Prop :=
  ((∀ (s : State) (a : Nat) (w : W32) (rest : List (Nat × W32)), s.jc.xtDue = (a, w) :: rest →
    ∃ t, exec .xtConfigWrite s = .next t ∧ t.out = [.xt (BitVec.ofNat 12 a) w] ∧ t.jc.xtDue = rest ∧
      t.jc.xeWords = tabSet a w s.jc.xeWords ∧
      (rest ≠ [] → t.jg = s.jg ∧ t.jc.xeCur = s.jc.xeCur ∧ t.jc.xePrev = s.jc.xePrev) ∧
      (rest = [] → t.jg.epoch.staged = (s.jg.epoch.staged || s.live.staged.isSome) ∧ t.jg.epoch.current = s.jg.epoch.current ∧
        (s.jc.xeLoaded = true → t.jc.xeCur = s.jc.xeCur ∧ t.jc.xePrev = s.jc.xePrev) ∧
        (s.jc.xeLoaded = false → t.jc.xeLoaded = true ∧ t.jc.xeCur = t.xeStaged ∧ t.jc.xePrev = t.xeStaged))) ∧
  (∀ s : State, s.pins.xtEpoch ≠ s.jg.epoch.current → Does .xtEpochAdvance s fun s =>
    { s with pins := { s.pins with xtEpoch := s.jg.epoch.current },
             jc := { s.jc with xePrev := s.jc.xeCur, xeCur := s.xeStaged } }) ∧
  ∀ (s : State) (info : BitVec 64), s.eventsIn = true →
    ∃ t, exec (.xrReport info) s = .next t ∧ t.jc.badCount = stick s.jc.badCount 1 ∧ t.jc.badValid = true ∧
      t.newest.map EvEntry.code = some 0x0A01 ∧ t.jq = s.jq ∧
      (s.jc.badValid = true → t.jc.badCause = s.jc.badCause ∧ t.jc.badRegion = s.jc.badRegion ∧ t.jc.badBlock = s.jc.badBlock ∧
        t.jc.badXe = s.jc.badXe) ∧
      (s.jc.badValid = false → t.jc.badCause = info.extractLsb' 0 3 ∧ t.jc.badRegion = info.extractLsb' 3 8 ∧
        t.jc.badBlock = info.extractLsb' 11 24 ∧ t.jc.badXe = info.extractLsb' 35 4)) ∧
  ((∀ (s : State) (xe : XeAt) (region : BitVec 8) (block : BitVec 24) (slot : List Byte),
    let x := xe.xe.toNat
    let r := s.xeRegion region.toNat
    let n := slotBytes r.slot
    let b := slot.take (if r.isSealed then 4096 else n)
    let h := natLE (b.take 16)
    let does := fun (f : State → State) => Does (.expanderSlot xe region block slot) s f
    let bad := fun (s : State) (cause : Nat) => s.expand x region.toNat block.toNat xe.errReady (.bad cause)
    (r.isSealed = true → does fun s => ({ s with out := [.expanded x b false] }).xeReport x xe.errReady none) ∧
    (r.isSealed = false → headerOk r h = false → does fun s => bad s 1) ∧
    (r.isSealed = false → headerOk r h = true → s.xeTables (BitVec.ofNat 2 (bitsAt h 13 2)) = none → does fun s => bad s 2) ∧
    (∀ tables, r.isSealed = false → headerOk r h = true → s.xeTables (BitVec.ofNat 2 (bitsAt h 13 2)) = some tables →
      (bitAt h 8 = true → does fun s =>
        { s with jc := { s.jc with xeWait := s.jc.xeWait ++ [⟨x, region.toNat, block.toNat, b⟩] },
                 out := [.fetch x (BitVec.ofNat 48 (r.spillOf block.toNat / 64 * 64)) 0,
                         .fetch x (BitVec.ofNat 48 (r.homeOf block.toNat + n)) (BitVec.ofNat 6 ((4096 - n) / 64 - 1))] }) ∧
      (bitAt h 8 = false → tabGet (bitsAt h 11 2) tables = none → does fun s => bad s 3) ∧
      (∀ t, bitAt h 8 = false → tabGet (bitsAt h 11 2) tables = some t →
        does fun s => s.expand x region.toNat block.toNat xe.errReady (decodePod t r.fmt n b)))) ∧
  ∀ (s : State) (xe : XeAt) (line rest : List Byte) (status : BitVec 2) (w : XeWait),
    let x := xe.xe.toNat
    (s.jc.xeWait.find? fun w => w.xe == x) = some w →
    let raw := joinRaw (s.xeRegion w.region) w.block w.slot line rest
    let gone := fun (s : State) => { s with jc := { s.jc with xeWait := dropWait x s.jc.xeWait } }
    let does := fun (f : State → State) => Does (.expanderFetchResponse xe line rest status) s f
    (status = 0 → crc32c raw = BitVec.ofNat 32 (bitsAt (natLE (w.slot.take 16)) 96 32) →
      does fun s => ({ gone s with out := [.expanded x raw false] }).xeReport x xe.errReady none) ∧
    (status = 0 → crc32c raw ≠ BitVec.ofNat 32 (bitsAt (natLE (w.slot.take 16)) 96 32) →
      does fun s => (gone s).expand x w.region w.block xe.errReady (.bad 4)) ∧
    (status ≠ 0 → does fun s => (gone s).expand x w.region w.block xe.errReady (.bad 5)))

/-! ### State copies -/

/-- Copies between members: BUDDY_HEADER_RECEIVE starts a held copy, one for each member that names this one its buddy,
BUDDY_TRAILER_RECEIVE makes it VALID or FAILED by its CRC, BUDDY_COPY_COMPLETE ends this member's own; RESTORE_DATA_RECEIVE
gives a member that runs ROLLBACK for that step its state back, a quiesced member passes a copy of another on towards it, and
any other copy is counted; RESTORE_ACK_TIMEOUT ends
RESTORE_SEND with TIMEOUT (R229–R232, R365, R366). It rests on what the model takes where the spec is silent:
notes/assumptions/23.md and notes/assumptions/38.md. -/
def Obligations.CopiesAreHeldAndRestored : Prop :=
  ∀ s : State,
    (s.ju.outSt = 2 → Does .buddyCopyComplete s fun s => { s with ju := { s.ju with outSt := 0, ownCopy := none } }) ∧
    (∀ h, s.inReset = false → Does (.buddyHeaderReceive h) s fun s =>
      let u := s.takePieces
      { u with ju := { s.ju with inSt := 1, inStep := h.step.setWidth 32,
                                 heldCopies := ⟨h, [], 1⟩ :: s.ju.heldCopies.filter fun x => x.hdr.src != h.src } }) ∧
    (∀ c src data crc, s.ju.heldCopies.find? (fun c => c.hdr.src == src && c.st == 1) = some c →
      let others := s.ju.heldCopies.filter fun x => x.hdr.src != c.hdr.src
      (crc64 data = crc → Does (.buddyTrailerReceive src data crc) s fun s =>
        let u := s.takePieces
        { u with ju := { s.ju with inSt := 2, inStep := c.hdr.step.setWidth 32, heldCopies := ⟨c.hdr, data, 2⟩ :: others } }) ∧
      (crc64 data ≠ crc → Does (.buddyTrailerReceive src data crc) s fun s =>
        let u := s.takePieces
        ({ u with ju := { s.ju with inSt := 3, inStep := c.hdr.step.setWidth 32, heldCopies := ⟨c.hdr, [], 3⟩ :: others,
                                    fails := stick s.ju.fails 1 } }).event 0x31 0x0603 1
          [i2 src.toNat, i8 c.hdr.step.toNat, i1 1])) ∧
    (∀ h data crc, s.inReset = false →
      (h.src.toNat ≠ s.me → s.jq.quiesced = true → s.jg.member.state ≠ 2 → Does (.restoreDataReceive h data crc) s fun s =>
        s.takePieces.passCopy (s.takePieces.copyPort h.src.toNat) h data crc) ∧
      ((if h.src.toNat = s.me then s.cmdRuns 0x26 = false ∨ h.step ≠ s.js.cmd.argStep
        else s.jq.quiesced = false ∨ s.jg.member.state = 2) → Does (.restoreDataReceive h data crc) s fun s =>
        let u := s.takePieces
        { u with jg := { s.jg with member := { s.jg.member with restoreDiscard := stick s.jg.member.restoreDiscard 1 } } }) ∧
      (s.cmdRuns 0x26 = true → h.step = s.js.cmd.argStep → h.src.toNat = s.me → crc64 data ≠ crc →
        Does (.restoreDataReceive h data crc) s fun s =>
          let u := s.takePieces
          { u with js := { s.js with cmd := { s.js.cmd with outcome := some 3 } } }) ∧
      (s.cmdRuns 0x26 = true → h.step = s.js.cmd.argStep → h.src.toNat = s.me → crc64 data = crc →
        ∃ t, exec (.restoreDataReceive h data crc) s = .next t ∧ t.jq.step = h.step + 1 ∧ t.js.cmd.outcome = some 0 ∧
          t.jg.member.restores = stick s.jg.member.restores 1 ∧ t.jx.seqTx = [] ∧ t.jx.seqRx = [] ∧ t.jz.runs = [] ∧
          t.jk.merges = [] ∧ t.jk.pool = [] ∧ t.jk.finished = [] ∧
          (h.ext = false → Memory.wf s.stateMem = true → ∀ a, s.decl.factBase ≤ a → a < s.decl.factBase + s.factRegion →
            (∀ b ∈ s.allBlocks, a < s.rootAddr b.1 b.2 ∨ s.rootAddr b.1 b.2 + 16 ≤ a) → memGet t.stateMem a = 0))) ∧
    (s.cmdRuns 0x25 = true → Does .restoreAckTimeout s fun s =>
      { s with js := { s.js with cmd := { s.js.cmd with outcome := some 7 } } })

/-! ### Resets and boot -/

/-- The resets: JPOR_N puts every register at its reset value, drops the fuses and keeps memories and flash; JWRST_N does too
but keeps the event ring, `JS_REJECT`, the fuses and the straps; a release starts the lanes' adaptation, holds XOFF on every
priority, and boot follows inrush; a missing fuse word counts as zeros (R283, R322, R334, R389–R392, R399). INRUSH_DONE: 2.0
ms after release inrush ends and the Duiker starts unless JWRST_N is low; it ends once (R392, R399). It rests on what the
model takes where the spec is silent: notes/assumptions/42.md. -/
def Obligations.ResetsClearAndRelease : Prop :=
  (∀ s : State,
    (∃ t, exec .jporNAssert s = .next t ∧ t.inReset = true ∧ t.jq = JqBlock.reset ∧ t.ju = JuBlock.reset ∧ t.jm = JmBlock.reset ∧
      t.js.ring = EvBlockReset ∧ t.js.rejCount = 0 ∧ t.js.rejPort = false ∧ t.js.rejCode = 0 ∧ t.js.rejOffset = 0 ∧
      t.js.boot.state = 0 ∧ t.jg.epoch = State.reset.jg.epoch ∧
      t.fuses = List.replicate 26 0 ∧ t.nvm = s.nvm ∧ t.hostMem = s.hostMem ∧ t.stateMem = s.stateMem ∧ t.image = none) ∧
    (s.js.boot.jporLow = false →
      ∃ t, exec .jwrstNAssert s = .next t ∧ t.inReset = true ∧ t.jq = JqBlock.reset ∧ t.ju = JuBlock.reset ∧ t.jm = JmBlock.reset ∧
        t.js.ring.head = s.js.ring.head ∧ t.js.ring.tail = s.js.ring.tail ∧ t.js.ring.ring = s.js.ring.ring ∧
        t.js.rejCount = s.js.rejCount ∧ t.js.rejPort = s.js.rejPort ∧ t.js.rejCode = s.js.rejCode ∧
        t.js.rejOffset = s.js.rejOffset ∧ t.js.boot.state = 0 ∧ t.js.boot.twinSel = s.js.boot.twinSel ∧
        t.js.boot.nvmMode = s.js.boot.nvmMode ∧ t.fuses = s.fuses ∧ t.nvm = s.nvm ∧ t.hostMem = s.hostMem ∧ t.image = none) ∧
    (∀ nvmMode twinSel, s.js.boot.jporLow = true → Does (.jporNRelease nvmMode twinSel) s fun s =>
      { s with js := { s.js with boot := { s.js.boot with jporLow := false, nvmMode := nvmMode, twinSel := twinSel, inrush := true } },
               pins := { s.pins with adaptReq := 0xFF },
               je := { s.je with ports := s.je.ports.map fun p => { p with xoffSent := 0xFF } } }) ∧
    (s.js.boot.jwrstLow = true → s.js.boot.jporLow = false → Does .jwrstNRelease s fun s =>
      { s with js := { s.js with boot := { s.js.boot with jwrstLow := false,
                                                          state := if s.jp.inrushDone then 1 else s.js.boot.state } },
               pins := { s.pins with adaptReq := 0xFF },
               je := { s.je with ports := s.je.ports.map fun p => { p with xoffSent := 0xFF } } }) ∧
    (∀ addr : BitVec 5, s.bootRuns = true → addr.toNat < 26 → s.js.boot.fuseMiss.contains addr.toNat = false →
      Does (.fuseAckTimeout addr) s fun s =>
        { s with js := { s.js with boot := { s.js.boot with fuseMiss := addr.toNat :: s.js.boot.fuseMiss } } })) ∧
  (∀ s : State, s.js.boot.jporLow = false → s.jp.inrushDone = false →
    (s.js.boot.jwrstLow = false → Does .inrushDone s fun s =>
      { s with jp := { s.jp with inrushDone := true }, js := { s.js with boot := { s.js.boot with state := 1, inrush := false } } }) ∧
    (s.js.boot.jwrstLow = true → Does .inrushDone s fun s => { s with jp := { s.jp with inrushDone := true } }))

/-- BOOT_VERIFY_COMPLETE: without flash boot ends in SAFE with cause 9, without a valid commit record with cause 1 and
EV_IMAGE_INVALID, with a false declaration with cause 10; an image that passes every check is in force, its configuration
goes to the expanders, and boot waits for the schedule load (R328–R333). It rests on what the model takes where the spec is
silent: notes/assumptions/13.md and notes/assumptions/41.md and notes/assumptions/43.md. -/
def Obligations.BootEndsInSafeOrWithAnImage : Prop :=
  ∀ (s : State) (o : BootObs), s.bootRuns = true → s.js.restarting = false → s.js.boot.fuseMiss = [] →
    let fuses := (List.range 26).map fun i => o.fuses.getD i 0
    let safe := fun (t : State) (cause : Byte) => t.js.boot.state = 6 ∧ t.js.boot.cause = cause ∧ t.js.boot.verified = false ∧
      t.jq.running = false ∧ t.jq.quiesced = true ∧ t.image = s.image
    (o.nvmOk = false → ∃ t, exec (.bootVerifyComplete o) s = .next t ∧ safe t 9) ∧
    (o.nvmOk = true → bootCopy s.nvm = none → s.eventsIn = true →
      ∃ t, exec (.bootVerifyComplete o) s = .next t ∧ safe t 1 ∧ t.newest.map EvEntry.code = some 0x0B01 ∧
        t.js.ring.irqFatal = true) ∧
    (∀ cr r f, o.nvmOk = true → bootCopy s.nvm = some (cr, r) → s.nvm.bank r.bank = some f → f.bootFail fuses = none →
      f.mhash = r.mhash →
      (declFails f.tables.decl o s.js.boot.twinSel ≠ [] →
        ∃ t, exec (.bootVerifyComplete o) s = .next t ∧ safe t 10 ∧ t.js.ring.irqFatal = true) ∧
      (declFails f.tables.decl o s.js.boot.twinSel = [] →
        ∃ t, exec (.bootVerifyComplete o) s = .next t ∧ t.js.boot.state = 4 ∧ t.js.boot.verified = true ∧ t.image = some f.tables ∧
          t.live.cur = f.tables.live ∧ t.live.staged = none ∧ t.js.boot.tvMs = o.ms ∧ t.js.boot.bank = r.bank ∧
          t.js.temp = o.temp ∧ t.js.volt = o.volt ∧ t.jc.xtDue = f.tables.xtWords ∧ t.jc.xeLoaded = false ∧
          t.jg.member.state = (if f.tables.decl.spare.isEmpty then 0 else 3) ∧ (s.eventsIn = true → t.js.ring.head = s.js.ring.head)))

/-- SCHEDULE_LOAD once every declared port is UP, and BOOT_WAIT_EXPIRY for a member whose ports are not: each of them then
reads FAILED or stays FENCED, and the member fails. The load leaves the start step, epochs 0 and 3, LEARN
with ROOTS and INTAKE active, factors of zeros, no roots, and the coefficients of the start step (R21, R35–R37, R169, R185,
R216, R263, R403). It rests on what the model takes where the spec is silent: notes/assumptions/13.md and
notes/assumptions/14.md. -/
def Obligations.TheScheduleLoads : Prop :=
  ∀ s : State, s.loadDue = true →
    let loads := fun (c : Instr) => ∃ t, exec c s = .next t ∧ t.js.boot.state = 5 ∧ t.jq.step = s.decl.startStep ∧
      t.jq.gen = false ∧ t.jq.running = true ∧ t.jq.quiesced = false ∧ t.jg.epoch.current = 0 ∧ t.jg.epoch.previous = 3 ∧
      t.jg.epoch.staged = false ∧ t.phase 0 = true ∧ t.phase 5 = true ∧
      t.jk.merges = [] ∧ t.jk.pool = [] ∧ t.jk.finished = [] ∧ t.jk.current = none ∧
      (Memory.wf s.stateMem = true → ∀ a, s.decl.factBase ≤ a → a < s.decl.factBase + s.factRegion →
        (∀ b ∈ s.allBlocks, a < s.rootAddr b.1 b.2 ∨ s.rootAddr b.1 b.2 + 16 ≤ a) →
        (∀ n, n < s.img.catalogue.length → a ≠ s.scaleRec n + 64) → memGet t.stateMem a = 0) ∧
      t.ju.kfile = s.live.cur.coefSets.map (fun p => CoefFile.mk p.1 (p.2.map (s.coef s.decl.startStep.toNat))) ∧
      (s.portsUp = true → t.jg.member = s.jg.member) ∧
      (∀ d ∈ s.decl.peers, (s.port d.port).state ≠ 4 → (s.port d.port).state ≠ 5 →
        t.jg.member.state = 2 ∧
        (d.port < s.jl.ports.length → (t.port d.port).state = if (s.port d.port).state = 6 then 6 else 7))
    (s.portsUp = true → loads .scheduleLoad ∧ loads .bootWaitExpiry) ∧ (s.portsUp = false → loads .bootWaitExpiry)

/-! ### Service commands -/

/-- Every write to `JS_CMD` is answered in this order: BUSY while a command runs, LOCKED without the lock (not for NOP), and
otherwise OK, and a command that is not allowed, or that SAFE does not take, ends with STATE. CMD_ARG_WRITE sets one argument
while no command runs (R333, R342–R344). It rests on what the model takes where the spec is silent: notes/assumptions/13.md.
-/
def Obligations.CommandsAreAnsweredInOrder : Prop :=
  ∀ (s : State) (port : Mgmt), s.listening = true →
    (∀ (good : Bool) (file : SxiFile), ∀ k ∈ cmdTable good file,
      (s.js.cmd.busy = true → Does (k.cmd port) s fun s => s.refuse port 0x0B0010 1) ∧
      (s.js.cmd.busy = false → k.code ≠ 1 → s.holdsLock port = false → Does (k.cmd port) s fun s => s.refuse port 0x0B0010 3) ∧
      (s.js.cmd.busy = false → (k.code = 1 ∨ s.holdsLock port = true) →
        ((s.js.boot.state = 6 ∧ safeAccepts k.code = false) ∨ k.allowed s = false) →
        Does (k.cmd port) s fun s => (s.starts port k.code).result 2)) ∧
    ∀ (index : BitVec 3) (v : W32),
      (s.js.cmd.busy = true → Does (.cmdArgWrite port index v) s fun s => s.refuse port (0x0B0020 + 4 * index.toNat) 1) ∧
      (s.js.cmd.busy = false → s.holdsLock port = false →
        Does (.cmdArgWrite port index v) s fun s => s.refuse port (0x0B0020 + 4 * index.toNat) 3) ∧
      (s.js.cmd.busy = false → s.holdsLock port = true → Does (.cmdArgWrite port index v) s fun s =>
        ({ s with js := { s.js with cmd := { s.js.cmd with args := modifyNth (fun _ => v) index.toNat s.js.cmd.args } } }).ok port)

/-- NOP ends with OK; QUIESCE asks for the drain at the step's end, drains at once in GEN, and returns a HALTED member to RUN
and quiesced; RESUME starts reductions 3 and 4 over the schedule digests; CLEAR_DB empties the doorbells; STAGING_TEST
empties staging (R38, R39, R343, R364). It rests on what the model takes where the spec is silent: notes/assumptions/18.md.
-/
def Obligations.QuiescenceIsCommanded : Prop :=
  ∀ (s : State) (port : Mgmt),
    (s.mayGive port 1 = true → Does (.nopCommand port) s fun s => (s.starts port 1).result 0) ∧
    (s.mayGive port 2 = true → s.atWork = true →
      (s.jg.member.state ≠ 1 → s.jq.gen = false → Does (.quiesce port) s fun s =>
        { s.starts port 2 with jq := { s.jq with quiesceReq := true } }) ∧
      (s.jg.member.state ≠ 1 → s.jq.gen = true → ∃ t, exec (.quiesce port) s = .next t ∧ t.jq.draining = true ∧ t.jq.phases = 0 ∧
        t.jq.acts = [] ∧ t.jq.held = [] ∧ t.js.cmd.outcome = none ∧ t.jq.step = s.jq.step) ∧
      (s.jg.member.state = 1 → ∃ t, exec (.quiesce port) s = .next t ∧ t.jg.member.state = 0 ∧ t.jg.member.cause = 0 ∧
        t.jq.quiesced = true ∧ t.jq.running = false ∧ t.js.cmd.outcome = some 0 ∧ t.jq.step = s.jq.step)) ∧
    (s.mayGive port 3 = true → s.restful = true → ∃ t, exec (.resume port) s = .next t ∧ t.jq.resuming = true ∧
      t.jq.quiesced = true ∧ t.js.cmd.outcome = none ∧ t.js.cmd.busy = true ∧ t.response port = ⟨0, 0⟩ ∧
      ((∃ d, s.dom s.decl.commitDomain = some d ∧ d.contains s.decl.coord = true) → s.jz.held = [] →
        (t.gzRun 3).run = (s.gzRun 3).run + 1 ∧ (t.gzRun 4).run = (s.gzRun 4).run + 1)) ∧
    (s.mayGive port 6 = true → s.restful = true → Does (.clearDb port) s fun s =>
      ({ s.starts port 6 with jq := { s.jq with db := [] } }).result 0) ∧
    ∀ good, s.mayGive port 8 = true → s.restful = true → ∃ t, exec (.stagingTest port good) s = .next t ∧ t.staging = [] ∧
      t.js.cmd.outcome = some (if good then 0 else 3) ∧ t.jx.stagingTested = true ∧ t.jx.rx = [] ∧ t.jx.seqTx = [] ∧ t.jq = s.jq

/-- The commands over images: LIVE_SWAP from the running bank stages the live tables it names, and ends with BAD_ARG for a
type that is not LIVE there; UNSTAGE drops what is staged; IMAGE_WRITE fills the inactive bank, erasing the inactive commit
record first when it is to commit; IMAGE_COMMIT erases it; and COMMAND_COMPLETE ends a command that has its result, or reads
the bank back and programs the record (R328, R330, R342, R343, R346). It rests on what the model takes where the spec is
silent: notes/assumptions/40.md and notes/assumptions/43.md. -/
def Obligations.ImagesAreWrittenAndSwapped : Prop :=
  ∀ (s : State) (port : Mgmt),
    (∀ f, s.mayGive port 4 = true → s.loaded = true → s.noneStaged = true →
      s.nvm.bank ((s.argNow 0).getLsbD 0) = some f → (s.argNow 0).getLsbD 0 = s.js.boot.bank →
      let types := swapTypes (s.argNow 1)
      let p := (s.argNow 2).toNat % 8
      ((types.all fun x => (entryOf f.entries x p).any fun m => m.live && m.hashOk) = true →
        (types.all fun x => liveCheck s.img (types.foldl (s.takeTable f p) s.live.cur) x) = true →
        ∃ t, exec (.liveSwap port true) s = .next t ∧ t.live.cur = s.live.cur ∧ t.live.prev = s.live.prev ∧
          t.live.staged = some (types.foldl (s.takeTable f p) s.live.cur) ∧ t.jg.epoch.current = s.jg.epoch.current ∧
          t.jq = s.jq ∧ (t.jg.epoch.staged = true → t.js.cmd.outcome = some 0) ∧
          (t.jg.epoch.staged = false → t.jc.xtDue ≠ [])) ∧
      ((types.all fun x => (entryOf f.entries x p).any ManEntry.live) = false →
        Does (.liveSwap port true) s fun s => (s.starts port 4).result 1)) ∧
    (s.mayGive port 5 = true → s.jg.epoch.staged = true → ∃ t, exec (.unstage port) s = .next t ∧ t.jg.epoch.staged = false ∧
      t.live = { s.live with staged := none } ∧ t.js.cmd.outcome = some 0) ∧
    (∀ f, s.mayGive port 9 = true → (s.argNow 2).toNat ≤ 100663296 → s.bootSeq ≠ 2 ^ 64 - 2 →
      Does (.imageWrite port f true) s fun s =>
        let nvm := if (s.argNow 3).getLsbD 0 then s.nvm.setRecord (!s.js.boot.cr) erasedRecord else s.nvm
        { s.starts port 9 with nvm := nvm.setBank (!s.js.boot.bank) (some f) }) ∧
    (s.mayGive port 10 = true → s.bootSeq ≠ 2 ^ 64 - 2 →
      ((s.argNow 0).getLsbD 0 = s.js.boot.bank → Does (.imageCommit port true) s fun s => (s.starts port 10).result 1) ∧
      ((s.argNow 0).getLsbD 0 ≠ s.js.boot.bank → Does (.imageCommit port true) s fun s =>
        { s.starts port 10 with nvm := s.nvm.setRecord (!s.js.boot.cr) erasedRecord })) ∧
    (s.js.cmd.busy = true → s.js.restarting = false → s.inReset = false →
      (∀ r, s.js.cmd.outcome = some r → ∃ t, exec .commandComplete s = .next t ∧ t.js.cmd.busy = false ∧ t.js.cmd.result = r ∧
        t.js.cmd.done = s.js.cmd.done + 1 ∧ t.nvm = s.nvm ∧ t.jq = s.jq) ∧
      (∀ f, s.js.cmd.outcome = none → s.js.cmd.code = 10 → s.nvm.bank (!s.js.boot.bank) = some f →
        ∃ t, exec .commandComplete s = .next t ∧ t.js.cmd.busy = false ∧
          (f.readBackOk s.fuses = true → t.js.cmd.result = 0 ∧
            t.nvm = s.nvm.setRecord (!s.js.boot.cr) (CommitRec.mk (!s.js.boot.bank) (s.bootSeq + 1) f.imageLen f.mhash).pack) ∧
          (f.readBackOk s.fuses = false → t.js.cmd.result = 3 ∧ t.nvm = s.nvm)))

/-- TILE_RETIRE, TILE_TEST, TILE_ADMIT, PORT_RETIRE and PORT_ADMIT: a quiesced block changes its map at once, a running one
stages the change for the next epoch; a retirement that no spare covers, an untested tile and a port that is not UP end with
STATE (R358–R361). -/
def Obligations.AdmissionMapsChange : Prop :=
  ∀ (s : State) (port : Mgmt),
    let args := (s.argNow 0).toNat + (s.argNow 1).toNat % 65536 * 2 ^ 32
    let m : BitVec 48 := BitVec.ofNat 48 args
    let ports : BitVec 8 := (s.argNow 0).setWidth 8
    let p := (s.argNow 0).toNat % 64
    let staged := fun (c : Instr) (x : LiveTables) => ∃ t, exec c s = .next t ∧ t.live.staged = some x ∧ t.live.cur = s.live.cur ∧
      t.jg.tiles = s.jg.tiles
    let keeps := (List.range 48).any (fun q => m.getLsbD q && (s.jg.tiles.change m 0).phys.getD q 3 == 0) = false
    let tested := (List.range 48).any (fun q => m.getLsbD q && (s.jg.tiles.phys.getD q 0 == 0 || !s.jg.tiles.tested.getLsbD q)) = false
    (s.mayGive port 0x20 = true → s.mapAllowed = true → m.toNat < 2 ^ gradeTiles s.js.boot.grade.toNat →
      (keeps → s.jq.quiesced = true → Does (.tileRetire port) s fun s => ((s.starts port 0x20).changeTiles m 0).result 0) ∧
      (keeps → s.jq.quiesced = false → staged (.tileRetire port) { s.live.cur with tileRetire := m, tileAdmit := 0 }) ∧
      (¬keeps → Does (.tileRetire port) s fun s => (s.starts port 0x20).result 2)) ∧
    (∀ good, s.mayGive port 0x21 = true → p < gradeTiles s.js.boot.grade.toNat →
      (s.jg.tiles.phys.getD p 0 = 0 → Does (.tileTest port good) s fun s => (s.starts port 0x21).result 2) ∧
      (s.jg.tiles.phys.getD p 0 ≠ 0 → ∃ t, exec (.tileTest port good) s = .next t ∧ t.jg.tiles.tested.getLsbD p = good ∧
        t.jg.tiles.phys = s.jg.tiles.phys ∧ t.js.cmd.outcome = some (if good then 0 else 3))) ∧
    (s.mayGive port 0x22 = true → s.mapAllowed = true → m.toNat < 2 ^ gradeTiles s.js.boot.grade.toNat →
      (tested → s.jq.quiesced = true → Does (.tileAdmit port) s fun s => ((s.starts port 0x22).changeTiles 0 m).result 0) ∧
      (tested → s.jq.quiesced = false → staged (.tileAdmit port) { s.live.cur with tileRetire := 0, tileAdmit := m }) ∧
      (¬tested → Does (.tileAdmit port) s fun s => (s.starts port 0x22).result 2)) ∧
    (s.mayGive port 0x23 = true → s.mapAllowed = true →
      (s.jq.quiesced = true → Does (.portRetire port) s fun s =>
        ({ s.starts port 0x23 with live := { s.live with cur := { s.live.cur with portAdmit := s.live.cur.portAdmit &&& ~~~ports } } }).result
          0) ∧
      (s.jq.quiesced = false → staged (.portRetire port) { s.live.cur with portAdmit := s.live.cur.portAdmit &&& ~~~ports })) ∧
    (s.mayGive port 0x24 = true → s.mapAllowed = true →
      let up := ∀ q, q < 8 → ports.getLsbD q = true → (s.port q).state = 4 ∨ (s.port q).state = 5
      (up → s.jq.quiesced = true → Does (.portAdmit port) s fun s =>
        ({ s.starts port 0x24 with live := { s.live with cur := { s.live.cur with portAdmit := s.live.cur.portAdmit ||| ports } } }).result
          0) ∧
      (up → s.jq.quiesced = false → staged (.portAdmit port) { s.live.cur with portAdmit := s.live.cur.portAdmit ||| ports }) ∧
      (¬up → Does (.portAdmit port) s fun s => (s.starts port 0x24).result 2))

/-- EXPORT posts a snapshot on an internal queue that is in RTS; RESTORE_SEND sends the copy held for the step that it names;
ROLLBACK flushes the exports and waits; TAKEOVER gives a spare worker its member id and loads the schedule, quiesced;
TWIN_SWAP waits for the next STEP_DONE (R233, R282, R365–R367, R374). It rests on what the model takes where the spec is
silent: notes/assumptions/38.md and notes/assumptions/44.md. -/
def Obligations.RecoveryIsCommanded : Prop :=
  ∀ (s : State) (port : Mgmt),
    let q := (s.argNow 0).toNat
    let argStep : StepNo := BitVec.ofNat 40 ((s.argNow 0).toNat + (s.argNow 1).toNat % 256 * 2 ^ 32)
    (s.mayGive port 7 = true → s.atWork = true → s.jq.gen = false →
      ((q < 61440 ∨ 65535 < q) → Does (.exportCmd port) s fun s => (s.starts port 7).result 1) ∧
      (61440 ≤ q → q ≤ 65535 → s.queue q = none → Does (.exportCmd port) s fun s => (s.starts port 7).result 2) ∧
      (∀ x, 61440 ≤ q → q ≤ 65535 → s.queue q = some x → x.state = 1 → ∃ t, exec (.exportCmd port) s = .next t ∧
        (t.je.exports.any fun e => e.queue == q) = true ∧ t.stateMem = s.stateMem ∧ t.js.cmd.busy = true ∧
        t.jx.copyStep = true ∧ t.response port = ⟨0, 0⟩)) ∧
    (∀ c, s.mayGive port 0x25 = true → s.restful = true →
      s.ju.heldCopies.find? (fun c => c.st == 2 && c.hdr.step == argStep) = some c →
      Does (.restoreSend port) s fun s =>
        let v := (s.starts port 0x25).sendCopy (s.copyPort c.hdr.src.toNat) c.hdr c.data
        { v with js := { v.js with cmd := { v.js.cmd with bytes := c.data.length } } }) ∧
    (s.mayGive port 0x26 = true → s.restful = true → Does (.rollback port) s fun s => (s.starts port 0x26).flushExports) ∧
    (∀ i x, s.mayGive port 0x27 = true → s.jg.member.state = 3 → s.image = some i →
      (i.decl.spare.find? fun x => x.id == q % 65536) = some x →
      ∃ t, exec (.takeover port) s = .next t ∧ t.me = q % 65536 ∧ t.jg.member.state = 0 ∧ t.jq.quiesced = true ∧
        t.jq.running = false ∧ t.js.boot.state = 5 ∧ t.jq.step = i.decl.startStep ∧ t.js.cmd.outcome = some 0) ∧
    (s.mayGive port 0x28 = true → s.loaded = true → s.jg.twin.present = true → s.jg.twin.peerOk = true → s.jg.twin.fenced = none →
      s.jg.member.state = 0 → Does (.twinSwap port) s fun s =>
        let u := s.starts port 0x28
        { u with jg := { u.jg with twin := { u.jg.twin with swap := true } } })

/-! ### Management -/

/-- TAKE gets a free lock, or renews the holder's; RENEW and RELEASE are the holder's, with its own OWNER; any other port is
answered LOCKED, and an operation with OWNER 0 REJECTED. LEASE_EXPIRY frees the lock, drops what is staged and aborts a flash
command; LOCK_LEASE_WRITE takes a lease of 10 to 60,000 ms (R344, R345, R352; several operations in one write:
notes/assumptions/45.md). It rests on what the model takes where the spec is silent: notes/assumptions/46.md. -/
def Obligations.TheServiceLockIsHeld : Prop :=
  ∀ (s : State) (port : Mgmt) (v : W32),
    let owner : Byte := v.setWidth 8
    let l := s.js.lock
    let mine := s.holdsLock port && l.owner == owner
    let take := v.getLsbD 8 = true
    let renew := v.getLsbD 8 = false ∧ v.getLsbD 9 = true
    let release := v.getLsbD 8 = false ∧ v.getLsbD 9 = false ∧ v.getLsbD 10 = true
    let sets := fun (c : Instr) (l : LockBlock) => Does c s fun s => ({ s with js := { s.js with lock := l } }).ok port
    let locked := fun (c : Instr) => Does c s fun s => s.refuse port 0x0B0044 3
    (s.listening = true → owner = 0 →
      (take → Does (.take port v) s fun s => s.refuse port 0x0B0044 4) ∧
      (renew → Does (.renew port v) s fun s => s.refuse port 0x0B0044 4) ∧
      (release → Does (.release port v) s fun s => s.refuse port 0x0B0044 4)) ∧
    (s.listening = true → owner ≠ 0 →
      (take → (l.held = false ∨ mine = true) →
        sets (.take port v) ⟨owner, true, port == .sm, owner, l.lease, l.lease⟩) ∧
      (take → l.held = true → mine = false → locked (.take port v)) ∧
      (renew → (mine = true → sets (.renew port v) { l with tag := owner, remain := l.lease }) ∧
        (mine = false → locked (.renew port v))) ∧
      (release → (mine = true → sets (.release port v) { l with tag := owner, held := false, remain := 0 }) ∧
        (mine = false → locked (.release port v)))) ∧
    (s.inReset = false → l.held = true →
      ∃ t, exec .leaseExpiry s = .next t ∧ t.js.lock.held = false ∧ t.js.lock.remain = 0 ∧ t.live.staged = none ∧
        t.live.cur = s.live.cur ∧ t.js.ring.irqErr = true ∧
        (s.js.cmd.busy = true → (s.js.cmd.code = 4 ∨ s.js.cmd.code = 9 ∨ s.js.cmd.code = 10) →
          t.js.cmd.busy = false ∧ t.js.cmd.result = 6) ∧
        ((s.js.cmd.busy = false ∨ s.js.cmd.code.toNat ∈ [2, 3, 6, 7, 8, 0x25, 0x26, 0x27]) → t.js.cmd = s.js.cmd)) ∧
    (s.listening = true →
      let n := v.toNat % 65536
      (l.held = true → s.holdsLock port = false → Does (.lockLeaseWrite port v) s fun s => s.refuse port 0x0B0048 3) ∧
      ((l.held = false ∨ s.holdsLock port = true) →
        ((n < 10 ∨ 60000 < n) → Does (.lockLeaseWrite port v) s fun s => s.refuse port 0x0B0048 4) ∧
        (10 ≤ n → n ≤ 60000 → sets (.lockLeaseWrite port v) { l with lease := BitVec.ofNat 16 n })))

/-- REGISTER_WRITE: an offset that decodes to nothing, or a partial write of the window, is DECODE, a lost arbitration
CONFLICT; a field of type RW takes the value, one of type RWL needs lock, rest and range, W1C bits clear where a one is
written, and a read-only register ignores the write (R336, R341, R381–R384). -/
def Obligations.RegistersAreWritten : Prop :=
  ∀ (s : State) (port : Mgmt) (v : W32) (be : BitVec 4),
    (∀ off : BitVec 24, s.inReset = false → ((s.readReg off.toNat).isNone = true ∨ (port = .mw ∧ be ≠ 0xF)) →
      ∀ lost, Does (.registerWrite port off v be lost) s fun s => s.refuse port off.toNat 5) ∧
    (∀ off : BitVec 24, s.writable .mw off 0xF = true → s.js.cmd.busy = false →
      Does (.registerWrite .mw off v 0xF true) s fun s => s.refuse .mw off.toNat 2) ∧
    (s.listening = true → (port = .sm ∨ be = 0xF) →
      let w := fun (off : BitVec 24) => Instr.registerWrite port off v be false
      Does (w 0x060004) s (fun s => ({ s with ju := { s.ju with clip := v } }).ok port) ∧
      Does (w 0x080004) s (fun s => ({ s with je := { s.je with pi := v.setWidth 16 } }).ok port) ∧
      Does (w 0x0B0070) s (fun s =>
        ({ s with js := { s.js with ring := { s.js.ring with enErr := v.getLsbD 0, enFatal := v.getLsbD 1 } } }).ok port) ∧
      Does (w 0x0B006C) s (fun s =>
        ({ s with js := { s.js with ring := { s.js.ring with irqErr := s.js.ring.irqErr && !v.getLsbD 0,
                                                             irqFatal := s.js.ring.irqFatal && !v.getLsbD 1 } } }).ok port) ∧
      Does (w 0x000004) s (fun s =>
        ({ s with jg := { s.jg with epoch := { s.jg.epoch with staleSeen := s.jg.epoch.staleSeen && !v.getLsbD 6 } } }).ok port) ∧
      Does (w 0x010008) s (fun s => s.ok port) ∧ Does (w 0x0B0000) s (fun s => s.ok port) ∧
      AnswersRwl (w 0x010030) s port 0x010030 (v.setWidth 16 != s.jq.slipLimit) (v.setWidth 16 != (0 : W16)) (fun s =>
        { s with jq := { s.jq with slipLimit := v.setWidth 16 } }) ∧
      AnswersRwl (w 0x010034) s port 0x010034 (v.setWidth 24 != s.jq.vTimeout) (decide (16 ≤ (v.setWidth 24).toNat)) (fun s =>
        { s with jq := { s.jq with vTimeout := v.setWidth 24 } }) ∧
      AnswersRwl (w 0x030010) s port 0x030010 (wtOf v != s.jx.wt) (wtOf v).sum64 (fun s =>
        { s with jx := { s.jx with wt := wtOf v } }) ∧
      AnswersRwl (w 0x0A0000) s port 0x0A0000 (v.getLsbD 0 != s.jc.verify) true (fun s =>
        { s with jc := { s.jc with verify := v.getLsbD 0 } }))

/-- RC_READ answers the register's word and clears its RC fields; LATCHED_WINDOW_READ latches all the words of a window, and
later words come from the latch; EV_TAIL_WRITE moves TAIL no further than HEAD; SM_TRANSACTION makes its access and shifts a
status word that counts, and a header of wrong parity makes none (R336–R340, R381, R382). It rests on what the model takes
where the spec is silent: notes/assumptions/53.md. -/
def Obligations.RegistersAreRead : Prop :=
  ∀ (s : State) (port : Mgmt),
    (∀ off : BitVec 24, s.inReset = false → s.readReg off.toNat = none → Does (.rcRead port off) s fun s => s.refuse port off.toNat 5) ∧
    (∀ (off : BitVec 24) (w : W32), s.listening = true → s.readReg off.toNat = some w →
      ∃ t, exec (.rcRead port off) s = .next t ∧ t.response port = ⟨0, w⟩ ∧ t.jq.step = s.jq.step ∧ t.hostMem = s.hostMem) ∧
    (s.listening = true →
      Does (.rcRead port 0x030000) s (fun s =>
        ({ s with jx := { s.jx with discKey := 0, discSeq := 0, discCrc := 0, discForm := 0 } }).respond port 0
          (pk [(0, s.jx.discKey.toNat), (8, s.jx.discSeq.toNat), (16, s.jx.discCrc.toNat), (24, s.jx.discForm.toNat)])) ∧
      Does (.rcRead port 0x0B0068) s (fun s =>
        ({ s with js := { s.js with ring := { s.js.ring with lost := 0 } } }).respond port 0 (pk [(0, s.js.ring.lost.toNat)]))) ∧
    (∀ (off : BitVec 24) (base : Nat), s.listening = true → off.toNat % 4 = 0 → winOf off.toNat = some (base, 0) →
      ∃ t, exec (.latchedWindowRead port off) s = .next t ∧ t.response port = ⟨0, (s.winWords base).getD 0 0⟩ ∧
        ∀ k o, winOf o = some (base, k + 1) → o % 4 = 0 → t.readReg o = some ((s.winWords base).getD (k + 1) 0)) ∧
    (∀ v : W32, s.listening = true →
      let n : BitVec 12 := v.setWidth 12
      let r := s.js.ring
      ((n - r.tail).toNat ≤ (r.head - r.tail).toNat → Does (.evTailWrite port v false) s fun s =>
        ({ s with js := { s.js with ring := { s.js.ring with tail := n } } }).ok port) ∧
      ((r.head - r.tail).toNat < (n - r.tail).toNat → Does (.evTailWrite port v false) s fun s => s.refuse port 0x0B0064 4) ∧
      Does (.evTailWrite port v true) s (fun s => s.refuse port 0x0B0064 4)) ∧
    ∀ hdr data : W32, s.inReset = false →
      (hdrOk hdr = true → hdr.getLsbD 30 = true → Does (.smTransaction hdr data 96) s fun s =>
        let u := s.busWrite .sm (hdr.toNat % 2 ^ 24) data 0xF false
        { u with js := { u.js with smStatus := smWord u.js.smDone u.js.sm.code, smDone := u.js.smDone + 1 } }) ∧
      (hdrOk hdr = true → hdr.getLsbD 30 = false → Does (.smTransaction hdr data 128) s fun s =>
        let u := s.busRead .sm (hdr.toNat % 2 ^ 24)
        { u with js := { u.js with smStatus := smWord u.js.smDone u.js.sm.code, smDone := u.js.smDone + 1 } }) ∧
      (hdrOk hdr = true → hdr.getLsbD 30 = true → ∀ edges, edges < 64 → Does (.smTransaction hdr data edges) s fun s =>
        { s with js := { s.js with smPartial := stick s.js.smPartial 1 } }) ∧
      (hdrOk hdr = false → hdr.getLsbD 30 = true → Does (.smTransaction hdr data 96) s fun s =>
        { s with js := { s.js with smFrame := stick s.js.smFrame 1, sm := ⟨6, 0⟩, smStatus := smWord s.js.smDone 6,
                                   smDone := s.js.smDone + 1 } })

/-- DUIKER_WATCHDOG restarts the Duiker, aborts a running command and records EV_DUIKER_RESTART; DUIKER_RESTART_COMPLETE ends
that; TELEMETRY_SAMPLE takes temperature and voltage and records one event per excursion; NVM_COMMAND_TIMEOUT ends a flash
command with NVM, or boot in SAFE with cause 9 (R333, R335, R350, R351). It rests on what the model takes where the spec is
silent: notes/assumptions/13.md. -/
def Obligations.TheDuikerAnswers : Prop :=
  ∀ s : State,
    (∀ fw, s.inReset = false → s.js.boot.state ≠ 0 → s.js.restarting = false →
      (s.js.cmd.busy = false → Does (.duikerWatchdog fw) s fun s =>
        ({ s with js := { s.js with restarting := true } }).event 0x4D 0x0B05 1 [i4 fw.toNat, i1 0]) ∧
      (s.js.cmd.busy = true → ∃ t, exec (.duikerWatchdog fw) s = .next t ∧ t.js.restarting = true ∧ t.js.cmd.busy = false ∧
        t.js.cmd.result = 6 ∧ t.js.ring.irqErr = true ∧ t.jq = s.jq)) ∧
    Does .duikerRestartComplete s (fun s => { s with js := { s.js with restarting := false } }) ∧
    (∀ temp volt, s.inReset = false → s.js.boot.state ≠ 0 → s.js.restarting = false → s.image.isSome = true →
      (rangeCrossed s.decl temp volt = none → Does (.telemetrySample temp volt) s fun s =>
        { s with js := { s.js with temp := temp, volt := volt, excursion := false } }) ∧
      (∀ k, rangeCrossed s.decl temp volt = some k → s.js.excursion = true → Does (.telemetrySample temp volt) s fun s =>
        { s with js := { s.js with temp := temp, volt := volt } }) ∧
      (∀ k, rangeCrossed s.decl temp volt = some k → s.js.excursion = false → Does (.telemetrySample temp volt) s fun s =>
        ({ s with js := { s.js with temp := temp, volt := volt, excursion := true } }).event 0x4D 0x0B06 1
          [i2 temp.toNat, i2 volt.toNat, i1 k])) ∧
    ∀ opcode addr status,
      (s.bootRuns = true → ∃ t, exec (.nvmCommandTimeout opcode addr status) s = .next t ∧ t.js.boot.state = 6 ∧
        t.js.boot.cause = 9 ∧ t.js.ring.irqErr = true) ∧
      (s.bootRuns = false → s.js.restarting = false → s.inReset = false → s.js.cmd.busy = true → s.jg.epoch.staged = false →
        (s.js.cmd.code = 4 ∨ s.js.cmd.code = 9 ∨ s.js.cmd.code = 10) →
        ∃ t, exec (.nvmCommandTimeout opcode addr status) s = .next t ∧ t.js.cmd.busy = false ∧ t.js.cmd.result = 4 ∧
          t.js.ring.irqErr = true ∧ t.live.staged = none ∧ t.jq = s.jq)

/-! ### Resilience -/

/-- TILE_FAILURE fences a physical tile; the logical tile that it carried waits for its remap, or the member fails with cause
1 when no spare is left; TILE_WATCHDOG is such a failure with cause 3; UNIT_FAILURE is a member failure, which stops the
member's issue; TWIN_CHECK_RECEIVE compares what the twin sent with what this instance sent; a silent twin has failed
(R353–R355, R362, R370–R373). It rests on what the model takes where the spec is silent: notes/assumptions/17.md and
notes/assumptions/47.md. -/
def Obligations.FailuresAreContained : Prop :=
  (∀ (s : State) (p : Nat) (cause : BitVec 3), p < 48 → s.inReset = false →
    let st := s.jg.tiles.phys.getD p 3
    let t0 := { s.jg.tiles with phys := modifyNth (fun _ => 2) p s.jg.tiles.phys }
    exec (.tileWatchdog p) s = exec (.tileFailure ⟨p, 3⟩) s ∧
    (2 ≤ st.toNat → Does (.tileFailure ⟨p, cause⟩) s id) ∧
    (st.toNat ≤ 1 → ∃ t, exec (.tileFailure ⟨p, cause⟩) s = .next t ∧ t.jg.tiles.phys = t0.phys ∧
      t.jg.tiles.lastPhys = BitVec.ofNat 6 p ∧ t.js.ring.irqErr = true ∧ t.jq.step = s.jq.step ∧
      (∀ l, s.jg.tiles.logical p = some l → t.jg.tiles.lastLog = BitVec.ofNat 6 l ∧ (t.tile l).inv = none ∧
        (t0.spare.isSome = true → t.jg.tiles.remap = s.jg.tiles.remap ++ [BitVec.ofNat 6 l] ∧ t.jg.member = s.jg.member) ∧
        (t0.spare.isSome = false → t.jg.member.state = 2)))) ∧
  (∀ (s : State) (u : FailedUnit), s.inReset = false → s.jg.member.state ≠ 2 → s.eventsIn = true →
    ∃ t, exec (.unitFailure u) s = .next t ∧ t.jg.member.state = 2 ∧ t.silent = true ∧
      t.jg.member.cause = (match u with | .array => 5 | .adderLane => 6 | .gazelle => 6) ∧
      t.newest.map EvEntry.code = some 0x0003 ∧ t.js.ring.irqFatal = true ∧ t.stateMem = s.stateMem ∧ t.jq = s.jq) ∧
  ∀ s : State, s.jg.twin.present = true → s.inReset = false →
    (∀ i crc, (s.jg.twin.sent.find? fun x => x.sameAs (.chunk i crc)) = none → Does (.twinCheckReceive (.chunkCrc i crc)) s fun s =>
      { s with jg := { s.jg with twin := { s.jg.twin with heard := s.jg.twin.heard ++ [.chunk i crc] } } }) ∧
    (∀ i crc, (s.jg.twin.sent.find? fun x => x.sameAs (.chunk i crc)) = some (.chunk i crc) →
      Does (.twinCheckReceive (.chunkCrc i crc)) s fun s =>
        { s with jg := { s.jg with twin := { s.jg.twin with
            sent := dropOne (fun x => x.sameAs (.chunk i crc)) s.jg.twin.sent } } }) ∧
    (∀ i crc own, (s.jg.twin.sent.find? fun x => x.sameAs (.chunk i crc)) = some (.chunk i own) → own ≠ crc →
      s.jg.twin.diverged = none → s.eventsIn = true →
      ∃ t, exec (.twinCheckReceive (.chunkCrc i crc)) s = .next t ∧ t.jg.twin.diverged = some (s.jq.slot, i, own, crc) ∧
        t.newest.map EvEntry.code = some 0x0004 ∧ t.jg.twin.fenced = s.jg.twin.fenced) ∧
    (s.jg.twin.peerOk = true → s.jg.twin.fenced = none →
      let failed := fun (c : Instr) => Does c s fun s =>
        { s with jg := { s.jg with twin := { s.jg.twin with peerOk := false, moveIn := some 2 } } }
      failed (.twinCheckReceive .memberFailed) ∧ failed .twinSilenceTimeout) ∧
    (s.jg.twin.peerOk = true → s.jg.twin.fenced.isSome = true → s.jg.member.state ≠ 2 →
      ∃ t, exec .twinSilenceTimeout s = .next t ∧ t.jg.member.state = 2 ∧ t.jg.member.cause = 7 ∧ t.jg.twin.peerOk = false)
end

