-- ==== Sys2Proof/Laws/Boot.lean ====
section
/-!
SUPPORT. What boot and an image commit do with a bank whose file passes its checks (spec/13 R327–R332).
-/

namespace Sys2Proof.Machine

/-- Boot of a bank whose file passes the checks of R327 and has the hash that its commit record names (R329). -/
theorem bootEnds_of_good_file {s : State} {o : BootObs} {cr : Bool} {r : CommitRec} {f : SxiFile}
    (runs : s.bootRuns = true) (awake : s.js.restarting = false) (flash : o.nvmOk = true)
    (copy : bootCopy s.nvm = some (cr, r)) (bank : s.nvm.bank r.bank = some f)
    (good : f.bootFail (s.fusesSeen o) = none) (hash : f.mhash = r.mhash) :
    s.bootEnds o = State.bootFile { s.bootSeen o with
      js := { (s.bootSeen o).js with boot := { (s.bootSeen o).js.boot with cr := cr, bank := r.bank } } } o f := by
  have h1 : bootCopy (s.bootSeen o).nvm = some (cr, r) := copy
  have h2 : (s.bootSeen o).nvm.bank r.bank = some f := bank
  have h3 : f.bootFail (s.bootSeen o).fuses = none := good
  simp only [State.bootEnds, runs, awake, flash, h1, h2, h3, hash, Bool.not_true, Bool.or_self, Bool.false_eq_true, if_false,
    ne_eq, not_true_eq_false]

/-- IMAGE_COMMIT of a bank that reads back well: its record is programmed into the erased copy (R328, R331). -/
theorem commandComplete_of_good_bank {s : State} {f : SxiFile}
    (busy : s.js.cmd.busy = true) (awake : s.js.restarting = false) (out : s.inReset = false) (open_ : s.js.cmd.outcome = none)
    (code : s.js.cmd.code = 10) (bank : s.nvm.bank (!s.js.boot.bank) = some f) (good : f.readBackOk s.fuses = true) :
    let record := CommitRec.mk (!s.js.boot.bank) (s.bootSeq + 1) f.imageLen f.mhash
    s.commandComplete = ({ s with nvm := s.nvm.setRecord (!s.js.boot.cr) record.pack } : State).cmdDone 0 := by
  have h : stagingCommand s.js.cmd.code.toNat = false := by rw [code]; rfl
  have hc : s.js.cmd.code.toNat = 10 := by rw [code]; rfl
  simp [State.commandComplete, State.imageStages, busy, awake, out, open_, hc, bank, good]
  simp [← hc, h]

end Sys2Proof.Machine
end

