-- ==== Sys2Proof/Laws/Fixed.lean ====
section
/-!
SUPPORT. What most operations leave alone: a view of the state that holds the counters, the epochs, the tables, the flash and
the lock, and the lemmas by which it passes through record updates, branches and folds.
-/

namespace Sys2Proof.Machine

/-- The part of the state that only the sequencer, the commit, boot and the service commands change. -/
structure Fixed where
  step : StepNo
  slot : SlotNo
  gen : Bool
  begun : Bool
  current : BitVec 2
  previous : BitVec 2
  advances : W16
  live : LiveSet
  image : Option RunImage
  imageHdr : ImageHdr
  nvm : NvmBlock
  fuses : List W64
  lock : LockBlock
  gateEn : Bool
  restarting : Bool

/-- The view. -/
def State.fixed (s : State) : Fixed :=
  ⟨s.jq.step, s.jq.slot, s.jq.gen, s.jq.begun, s.jg.epoch.current, s.jg.epoch.previous,
   s.jg.epoch.advances, s.live, s.image, s.imageHdr, s.nvm, s.fuses, s.js.lock, s.ju.gateEn,
   s.js.restarting⟩

@[simp] theorem fixed_ite (c : Prop) [Decidable c] (a b : State) :
    (if c then a else b).fixed = if c then a.fixed else b.fixed := by split <;> rfl

@[simp] theorem fixed_upd (s : State) (p jg jq ji jx jz jk ju jl je jm jc js jp jt tiles hm sm sc sg eb pins out fc)
    (h1 : jq.step = s.jq.step) (h2 : jq.slot = s.jq.slot) (h3 : jq.gen = s.jq.gen)
    (h6 : jq.begun = s.jq.begun) (h7 : jg.epoch.current = s.jg.epoch.current)
    (h8 : jg.epoch.previous = s.jg.epoch.previous)
    (ha : jg.epoch.advances = s.jg.epoch.advances) (hc : js.lock = s.js.lock)
    (hd : ju.gateEn = s.ju.gateEn) (he : js.restarting = s.js.restarting) :
    (State.mk p jg jq ji jx jz jk ju jl je jm jc js jp jt tiles s.nvm s.fuses s.imageHdr s.image s.live hm sm sc sg eb pins
      out fc).fixed = s.fixed := by
  simp [State.fixed, *]

@[simp] theorem fixed_foldl {α : Type} (f : State → α → State) (h : ∀ x a, (f x a).fixed = x.fixed) (s : State) (l : List α) :
    (l.foldl f s).fixed = s.fixed := by
  induction l generalizing s with
  | nil => rfl
  | cons a l ih => simp [List.foldl, ih, h]

@[simp] theorem fixed_foldl_fst {α β : Type} (f : State × β → α → State × β) (h : ∀ x a, (f x a).1.fixed = x.1.fixed)
    (x : State × β) (l : List α) : (l.foldl f x).1.fixed = x.1.fixed := by
  induction l generalizing x with
  | nil => rfl
  | cons a l ih => simp [List.foldl, ih, h]

@[simp] theorem fixed_ite_fst {β : Type} (c : Prop) [Decidable c] (a b : State × β) :
    (if c then a else b).1.fixed = if c then a.1.fixed else b.1.fixed := by split <;> rfl

@[simp] theorem draw_fixed (s : State) : s.draw.2.fixed = s.fixed := rfl

end Sys2Proof.Machine
end

