-- ==== Sys2Proof/Laws/FixedOps.lean ====
section
/-! SUPPORT. What the operations of Machine/Ops.lean leave alone: one lemma each. -/

namespace Sys2Proof.Machine

@[simp] theorem emit_fixed (s : State) (o : Output) :
    (State.emit s o).fixed = s.fixed := by
  rfl

@[simp] theorem setPort_fixed (s : State) (p : Nat) (f : PeerPort → PeerPort) :
    (State.setPort s p f).fixed = s.fixed := by
  rfl

@[simp] theorem setTile_fixed (s : State) (t : Nat) (f : TileSt → TileSt) :
    (State.setTile s t f).fixed = s.fixed := by
  rfl

@[simp] theorem setWin_fixed (s : State) (t : Nat) (f : TileWin → TileWin) :
    (State.setWin s t f).fixed = s.fixed := by
  rfl

@[simp] theorem setChan_fixed (s : State) (n : Nat) (f : Chan → Chan) :
    (State.setChan s n f).fixed = s.fixed := by
  rfl

@[simp] theorem setEth_fixed (s : State) (n : Nat) (f : EthPort → EthPort) :
    (State.setEth s n f).fixed = s.fixed := by
  rfl

@[simp] theorem setQueue_fixed (s : State) (q : Queue) :
    (State.setQueue s q).fixed = s.fixed := by
  rfl

@[simp] theorem event_fixed (s : State) (source code sev : Nat) (items : List EvItem) :
    (State.event s source code sev items).fixed = s.fixed := by
  rfl

@[simp] theorem finish_fixed (s : State) :
    (State.finish s).fixed = s.fixed := by
  rfl

@[simp] theorem begin__fixed (s : State) :
    (State.begin_ s).fixed = s.fixed := by
  rfl

@[simp] theorem driveReq_fixed (s : State) (r : PortReq) (tag : BitVec 9) :
    (State.driveReq s r tag).fixed = s.fixed := by
  simp [State.driveReq]

@[simp] theorem request_fixed (s : State) (r : PortReq) :
    (State.request s r).fixed = s.fixed := by
  unfold State.request
  try dsimp only
  (repeat' (first | rfl | (simp; done) | split))

@[simp] theorem freePort_fixed (s : State) (p : MemPort) (tag : BitVec 9) :
    (State.freePort s p tag).fixed = s.fixed := by
  unfold State.freePort
  try dsimp only
  (repeat' (first | rfl | (simp; done) | split))

@[simp] theorem portRead_fixed (s : State) (unit chan : Nat) (sp : Bool) (a n : Nat) :
    (State.portRead s unit chan sp a n).fixed = s.fixed := by
  simp [State.portRead]

@[simp] theorem portWrite_fixed (s : State) (unit chan : Nat) (sp : Bool) (a : Nat) (b : List Byte) :
    (State.portWrite s unit chan sp a b).fixed = s.fixed := by
  simp [State.portWrite]

@[simp] theorem hostWrite_fixed (s : State) (unit a : Nat) (b : List Byte) :
    (State.hostWrite s unit a b).fixed = s.fixed := by
  exact portWrite_fixed s unit 0 false a b

@[simp] theorem stateWrite_fixed (s : State) (unit a : Nat) (b : List Byte) :
    (State.stateWrite s unit a b).fixed = s.fixed := by
  exact portWrite_fixed s unit 0 true a b

@[simp] theorem stagePut_fixed (s : State) (pool : Pool) (port vc : Nat) (hdr : BitVec 512) (bytes : List Byte) :
    (State.stagePut s pool port vc hdr bytes).fixed = s.fixed := by
  unfold State.stagePut
  try dsimp only
  (repeat' (first | rfl | (simp; done) | split))

@[simp] theorem stageTake_fixed (s : State) (f : StageBuf → Bool) :
    (State.stageTake s f).fixed = s.fixed := by
  rfl

@[simp] theorem stageClear_fixed (s : State) (port : Nat) :
    (State.stageClear s port).fixed = s.fixed := by
  rfl

end Sys2Proof.Machine
end

