-- ==== Sys2Proof/Laws/FixedFlags.lean ====
section
/-! SUPPORT. What the operations of Machine/Flags.lean leave alone: one lemma each. -/

namespace Sys2Proof.Machine

@[simp] theorem setVerdict_fixed (s : State) (f : VerdictBlock → VerdictBlock) :
    (State.setVerdict s f).fixed = s.fixed := by
  rfl

@[simp] theorem fault_fixed (s : State) :
    (State.fault s).fixed = s.fixed := by
  rfl

@[simp] theorem incomplete_fixed (s : State) :
    (State.incomplete s).fixed = s.fixed := by
  rfl

@[simp] theorem nonFinite_fixed (s : State) (u : NfUnit) :
    (State.nonFinite s u).fixed = s.fixed := by
  rfl

@[simp] theorem nonFiniteIf_fixed (s : State) (c : Bool) (u : NfUnit) :
    (State.nonFiniteIf s c u).fixed = s.fixed := by
  simp [State.nonFiniteIf]

@[simp] theorem clearNonFinite_fixed (s : State) :
    (State.clearNonFinite s).fixed = s.fixed := by
  rfl

@[simp] theorem donorPorts_fixed (s : State) :
    (State.donorPorts s).fixed = s.fixed := by
  rfl

@[simp] theorem memberFail_fixed (s : State) (cause : Nat) :
    (State.memberFail s cause).fixed = s.fixed := by
  simp [State.memberFail]

end Sys2Proof.Machine
end

