-- ==== Sys2Proof/Laws/FixedLink.lean ====
section
/-! SUPPORT. What the operations of Machine/Link.lean leave alone: one lemma each. -/

namespace Sys2Proof.Machine

@[simp] theorem sendFrame_fixed (s : State) (p typ vc : Nat) (first last : Bool) (fseq : W16) (payload : List Byte) :
    (State.sendFrame s p typ vc first last fseq payload).fixed = s.fixed := by
  rfl

@[simp] theorem driveFrag_fixed (s : State) (p : Nat) (fseq : W16) (f : TxFrag) (atBlock : Bool) :
    (State.driveFrag s p fseq f atBlock).fixed = s.fixed := by
  rfl

@[simp] theorem sendCtl_fixed (s : State) (p typ : Nat) (payload : Nat) :
    (State.sendCtl s p typ payload).fixed = s.fixed := by
  rfl

@[simp] theorem sendCredit_fixed (s : State) (p : Nat) :
    (State.sendCredit s p).fixed = s.fixed := by
  rfl

@[simp] theorem grantCredit_fixed (s : State) (p vc : Nat) :
    (State.grantCredit s p vc).fixed = s.fixed := by
  rfl

@[simp] theorem sendData_fixed (s : State) (p vc : Nat) :
    (State.sendData s p vc).fixed = s.fixed := by
  unfold State.sendData
  dsimp only
  (repeat' (first | rfl | (simp; done) | split))

@[simp] theorem pumpN_fixed (p : Nat) : ∀ (n : Nat) (s : State), (State.pumpN p n s).fixed = s.fixed
  | 0, s => rfl
  | n + 1, s => by
    unfold State.pumpN
    split
    · rfl
    · simp [pumpN_fixed p n]

@[simp] theorem pump_fixed (s : State) (p : Nat) :
    (State.pump s p).fixed = s.fixed := by
  simp [State.pump]

@[simp] theorem queueItem_fixed (s : State) (p vc : Nat) (bytes : List Byte) :
    (State.queueItem s p vc bytes).fixed = s.fixed := by
  simp [State.queueItem]

@[simp] theorem takeAck_fixed (s : State) (p : Nat) (h : FrameHdr) :
    (State.takeAck s p h).fixed = s.fixed := by
  simp [State.takeAck]

@[simp] theorem portFail_fixed (s : State) (p cause : Nat) :
    (State.portFail s p cause).fixed = s.fixed := by
  unfold State.portFail
  dsimp only
  (repeat' (first | rfl | (simp; done) | split))

@[simp] theorem fence_fixed (s : State) (p cause : Nat) :
    (State.fence s p cause).fixed = s.fixed := by
  simp [State.fence]

@[simp] theorem useVc0_fixed (s : State) (port n : Nat) :
    (State.useVc0 s port n).fixed = s.fixed := by
  rfl

@[simp] theorem askRetry_fixed (s : State) (p : Nat) :
    (State.askRetry s p).fixed = s.fixed := by
  simp [State.askRetry]

@[simp] theorem needRetry_fixed (s : State) (p : Nat) :
    (State.needRetry s p).fixed = s.fixed := by
  simp [State.needRetry]

@[simp] theorem enterResync_fixed (s : State) (p : Nat) :
    (State.enterResync s p).fixed = s.fixed := by
  simp [State.enterResync]

@[simp] theorem replay_fixed (s : State) (p : Nat) (f : W16) :
    (State.replay s p f).fixed = s.fixed := by
  simp [State.replay]

@[simp] theorem testFrame_fixed (s : State) (p typ : Nat) (f : Frame) :
    (State.testFrame s p typ f).1.fixed = s.fixed := by
  simp [State.testFrame]

theorem onFrame_fixed (s : State) (p typ : Nat) (f : Frame) (act : State → FrameHdr → State)
    (h : ∀ s x, (act s x).fixed = s.fixed) : (s.onFrame p typ f act).fixed = s.fixed := by
  have g := testFrame_fixed s p typ f
  unfold State.onFrame
  split <;> simp_all

@[simp] theorem assemble_fixed (s : State) (p : Nat) (h : FrameHdr) (payload : List Byte) :
    (State.assemble s p h payload).fixed = s.fixed := by
  rfl

@[simp] theorem dropContent_fixed (s : State) (p : Nat) (h : FrameHdr) :
    (State.dropContent s p h).fixed = s.fixed := by
  simp [State.dropContent]

@[simp] theorem dataIn_fixed (s : State) (p : Nat) (f : Frame) (h : FrameHdr) :
    (State.dataIn s p f h).fixed = s.fixed := by
  simp [State.dataIn]

@[simp] theorem retryIn_fixed (s : State) (p : Nat) (f : W16) :
    (State.retryIn s p f).fixed = s.fixed := by
  simp [State.retryIn]

@[simp] theorem creditIn_fixed (s : State) (p : Nat) (payload : List Byte) :
    (State.creditIn s p payload).fixed = s.fixed := by
  simp [State.creditIn]

@[simp] theorem sendIdent_fixed (s : State) (p : Nat) :
    (State.sendIdent s p).fixed = s.fixed := by
  rfl

@[simp] theorem answerIdent_fixed (s : State) (p : Nat) :
    (State.answerIdent s p).fixed = s.fixed := by
  simp [State.answerIdent]

@[simp] theorem declMismatch_fixed (s : State) (item declared observed : Nat) :
    (State.declMismatch s item declared observed).fixed = s.fixed := by
  rfl

@[simp] theorem enterSafe_fixed (s : State) (cause : Nat) :
    (State.enterSafe s cause).fixed = s.fixed := by
  rfl

@[simp] theorem portUp_fixed (s : State) (p : Nat) :
    (State.portUp s p).fixed = s.fixed := by
  simp [State.portUp]

@[simp] theorem identFrameIn_fixed (s : State) (p : Nat) (payload : List Byte) :
    (State.identFrameIn s p payload).fixed = s.fixed := by
  unfold State.identFrameIn
  dsimp only
  (repeat' (first | rfl | (simp; done) | split))

@[simp] theorem attemptFails_fixed (s : State) (p why : Nat) :
    (State.attemptFails s p why).fixed = s.fixed := by
  simp [State.attemptFails]

@[simp] theorem toHalf_fixed (s : State) (p : Nat) (half : Bool) (cause : Nat) :
    (State.toHalf s p half cause).fixed = s.fixed := by
  rfl

@[simp] theorem degrade_fixed (s : State) (p cause : Nat) :
    (State.degrade s p cause).fixed = s.fixed := by
  unfold State.degrade
  (repeat' (first | (simp; done) | split))

@[simp] theorem laneFails_fixed (s : State) (p l cause : Nat) :
    (State.laneFails s p l cause).fixed = s.fixed := by
  simp [State.laneFails]

@[simp] theorem nowAligned_fixed (s : State) (p : Nat) :
    (State.nowAligned s p).fixed = s.fixed := by
  simp [State.nowAligned]

@[simp] theorem doMarkerReceive_fixed (p lane : BitVec 3) (m : Marker) (s : State) :
    (doMarkerReceive p lane m s).fixed = s.fixed := by
  simp [doMarkerReceive]

@[simp] theorem doCodewordDecode_fixed (p : BitVec 3) (second : Bool) (bits : List (List Bool)) (s : State) :
    (doCodewordDecode p second bits s).fixed = s.fixed := by
  rfl

@[simp] theorem sendLane_fixed (s : State) (p lane : Nat) (bits : List Bool) :
    (State.sendLane s p lane bits).fixed = s.fixed := by
  rfl

@[simp] theorem sendBlocks_fixed (s : State) (p n : Nat) (gaps : List Nat) :
    (State.sendBlocks s p n gaps).fixed = s.fixed := by
  simp [State.sendBlocks]

@[simp] theorem degradeIn_fixed (s : State) (p : Nat) (half : Bool) :
    (State.degradeIn s p half).fixed = s.fixed := by
  unfold State.degradeIn
  (repeat' (first | (simp; done) | split))

@[simp] theorem realignTimeout_fixed (s : State) (p : Nat) :
    (State.realignTimeout s p).fixed = s.fixed := by
  simp [State.realignTimeout]

@[simp] theorem setAdapt_fixed (s : State) (p : Nat) (on : Bool) :
    (State.setAdapt s p on).fixed = s.fixed := by
  rfl

@[simp] theorem doTrainingAttempt_fixed (p : BitVec 3) (s : State) :
    (doTrainingAttempt p s).fixed = s.fixed := by
  simp [doTrainingAttempt]

end Sys2Proof.Machine
end

