-- ==== Sys2Proof/Laws/FixedAccess.lean ====
section
/-! SUPPORT. What the operations of Machine/Access.lean leave alone: one lemma each. -/

namespace Sys2Proof.Machine

@[simp] theorem respond_fixed (s : State) (port : Mgmt) (code : Nat) (data : W32) :
    (State.respond s port code data).fixed = s.fixed := by
  unfold State.respond
  (repeat' (first | (simp; done) | split))

@[simp] theorem ok_fixed (s : State) (port : Mgmt) :
    (State.ok s port).fixed = s.fixed := by
  simp [State.ok]

@[simp] theorem refuse_fixed (s : State) (port : Mgmt) (offset code : Nat) :
    (State.refuse s port offset code).fixed = s.fixed := by
  simp [State.refuse]

@[simp] theorem reject_fixed (s : State) (port : Mgmt) (offset : Nat) :
    (State.reject s port offset).fixed = s.fixed := by
  simp [State.reject]

@[simp] theorem guarded_fixed (s : State) (port : Mgmt) (offset : Nat) (f : State → State) (h : ∀ x, (f x).fixed = x.fixed) :
    (s.guarded port offset f).fixed = s.fixed := by
  unfold State.guarded
  simp [h]

@[simp] theorem rwl_fixed (s : State) (port : Mgmt) (offset : Nat) (c r : Bool) (f : State → State)
    (h : ∀ x, (f x).fixed = x.fixed) : (s.rwl port offset c r f).fixed = s.fixed := by
  unfold State.rwl
  simp [h]

end Sys2Proof.Machine
end

