-- ==== Sys2Proof/Laws/FixedNet.lean ====
section
/-! SUPPORT. What the operations of Machine/Net.lean leave alone: one lemma each. -/

namespace Sys2Proof.Machine

@[simp] theorem writeCqe_fixed (s : State) (q : Queue) (wrId : W64) (bytes : Nat) (imm : W32) (status opcode : Nat) :
    (State.writeCqe s q wrId bytes imm status opcode).1.fixed = s.fixed := by
  simp [State.writeCqe]

@[simp] theorem exportEnds_fixed (s : State) (q : Nat) (result : Nat) :
    (State.exportEnds s q result).fixed = s.fixed := by
  simp [State.exportEnds]

@[simp] theorem completeEntry_fixed (s : State) (q : Queue) (e : SqEntry) (status : Nat) :
    (State.completeEntry s q e status).1.fixed = s.fixed := by
  simp [State.completeEntry]

@[simp] theorem emitRoce_fixed (s : State) (q : Queue) (pkt : RoceOut) :
    (State.emitRoce s q pkt).fixed = s.fixed := by
  simp [State.emitRoce]

@[simp] theorem dropTx_fixed (s : State) (num : Nat) :
    (State.dropTx s num).fixed = s.fixed := by
  rfl

@[simp] theorem releaseEth_fixed (s : State) (n : Nat) :
    (State.releaseEth s n).fixed = s.fixed := by
  rfl

@[simp] theorem emitRequest_fixed (s : State) (q : Queue) (o : SqOp) (i : Nat) :
    (State.emitRequest s q o i).fixed = s.fixed := by
  simp [State.emitRequest]

@[simp] theorem flushRing_fixed : ∀ (n : Nat) (x : State × Queue), (State.flushRing n x).1.fixed = x.1.fixed
  | 0, x => rfl
  | n + 1, x => by
    unfold State.flushRing
    split
    · rfl
    · simp [flushRing_fixed n]

@[simp] theorem flushOps_fixed : ∀ (l : List SqOp) (n : Nat) (x : State × Queue), (State.flushOps l n x).1.fixed = x.1.fixed
  | [], n, x => rfl
  | o :: rest, n, x => by
    unfold State.flushOps
    simp [flushOps_fixed rest]

@[simp] theorem queueError_fixed (s : State) (q : Queue) (cause status : Nat) :
    (State.queueError s q cause status).fixed = s.fixed := by
  simp [State.queueError]

@[simp] theorem kickN_fixed : ∀ (n num : Nat) (s : State), (State.kickN n num s).fixed = s.fixed
  | 0, num, s => rfl
  | n + 1, num, s => by
    unfold State.kickN
    split
    · rfl
    · split <;> simp [kickN_fixed n]

@[simp] theorem kick_fixed (s : State) (num : Nat) :
    (State.kick s num).fixed = s.fixed := by
  simp [State.kick]

@[simp] theorem kickRounds_fixed : ∀ (n : Nat) (s : State), (State.kickRounds n s).fixed = s.fixed
  | 0, s => rfl
  | n + 1, s => by
    unfold State.kickRounds
    simp [kickRounds_fixed n]

@[simp] theorem kickAll_fixed (s : State) :
    (State.kickAll s).fixed = s.fixed := by
  simp [State.kickAll]

@[simp] theorem retireOps_fixed : ∀ (n : Nat) (x : State × Queue), (State.retireOps n x).1.fixed = x.1.fixed
  | 0, x => rfl
  | n + 1, x => by
    unfold State.retireOps
    split
    · split
      · simp [retireOps_fixed n]
      · rfl
    · rfl

@[simp] theorem ackUpTo_fixed (s : State) (q : Queue) (psn : BitVec 24) :
    (State.ackUpTo s q psn).1.fixed = s.fixed := by
  simp [State.ackUpTo]

@[simp] theorem retryQueue_fixed (s : State) (q : Queue) :
    (State.retryQueue s q).fixed = s.fixed := by
  simp [State.retryQueue]

@[simp] theorem loadCtx_fixed (s : State) (port : Mgmt) (num : Nat) :
    (State.loadCtx s port num).fixed = s.fixed := by
  unfold State.loadCtx
  dsimp only
  (repeat' (first | rfl | (simp; done) | split))

@[simp] theorem wrSqDb_fixed (s : State) (port : Mgmt) (value : W32) : (s.wrSqDb port value).fixed = s.fixed := by
  unfold State.wrSqDb
  refine guarded_fixed s port _ _ fun x => ?_
  (repeat' (first | (simp; done) | split))

@[simp] theorem nakIn_fixed (s : State) (q : Queue) (psn : BitVec 24) (code : NakCode) :
    (State.nakIn s q psn code).fixed = s.fixed := by
  unfold State.nakIn
  (repeat' (first | (simp; done) | split))

@[simp] theorem rnrIn_fixed (s : State) (q : Queue) (psn : BitVec 24) :
    (State.rnrIn s q psn).fixed = s.fixed := by
  simp [State.rnrIn]

@[simp] theorem placeRead_fixed (s : State) (e : SqEntry) (off : Nat) (b : List Byte) :
    (State.placeRead s e off b).fixed = s.fixed := by
  simp [State.placeRead]

@[simp] theorem readIn_fixed (s : State) (q : Queue) (psn : BitVec 24) (b : List Byte) (last : Bool) :
    (State.readIn s q psn b last).fixed = s.fixed := by
  unfold State.readIn
  dsimp only
  (repeat' (first | rfl | (simp; done) | split))

@[simp] theorem nakOnce_fixed (s : State) (q : Queue) :
    (State.nakOnce s q).fixed = s.fixed := by
  simp [State.nakOnce]

@[simp] theorem bufferUse_fixed (s : State) (e : Nat) (prio : BitVec 3) (kib : Nat) :
    (State.bufferUse s e prio kib).fixed = s.fixed := by
  simp [State.bufferUse]

@[simp] theorem macIn_fixed (s : State) (e : Nat) (i : EthIn) (qpn : BitVec 24) (f : State → Queue → State)
    (h : ∀ x q, (f x q).fixed = x.fixed) : (s.macIn e i qpn f).fixed = s.fixed := by
  unfold State.macIn
  dsimp only
  (repeat' (first | (simp [h]; done) | split))

@[simp] theorem scatter_fixed (s : State) (l : List (Nat × Nat)) (b : List Byte) : (s.scatter l b).fixed = s.fixed := by
  induction l generalizing s b with
  | nil => rfl
  | cons p l ih => simp [State.scatter, ih]

@[simp] theorem sendReadData_fixed (s : State) (q : Queue) (pkt : RocePacket) (pieces : List (Nat × Nat)) :
    (State.sendReadData s q pkt pieces).fixed = s.fixed := by
  simp [State.sendReadData]

@[simp] theorem recvDone_fixed (s : State) (q : Queue) (pkt : RocePacket) :
    (State.recvDone s q pkt).1.fixed = s.fixed := by
  simp [State.recvDone]

@[simp] theorem placePacket_fixed (s : State) (q : Queue) (pkt : RocePacket) (pieces : List (Nat × Nat)) :
    (State.placePacket s q pkt pieces).1.fixed = s.fixed := by
  unfold State.placePacket
  dsimp only
  (repeat' (first | rfl | (simp; done) | split))

@[simp] theorem takePacket_fixed (s : State) (q : Queue) (pkt : RocePacket) (force : Option Nat) :
    (State.takePacket s q pkt force).fixed = s.fixed := by
  unfold State.takePacket
  dsimp only
  (repeat' (first | rfl | (simp; done) | split))

@[simp] theorem onPacket_fixed (s : State) (q : Queue) (pkt : RocePacket) :
    (State.onPacket s q pkt).fixed = s.fixed := by
  unfold State.onPacket
  (repeat' (first | (simp; done) | split))

@[simp] theorem roceIn_fixed (s : State) (e : Nat) (pkt : RocePacket) :
    (State.roceIn s e pkt).fixed = s.fixed := by
  refine macIn_fixed s e _ _ _ fun x q => ?_
  dsimp only
  split <;> simp

@[simp] theorem pfcIn_fixed (s : State) (e : Nat) (enable : BitVec 8) (quanta : List W16) :
    (State.pfcIn s e enable quanta).fixed = s.fixed := by
  simp [State.pfcIn]

@[simp] theorem xoffRepeat_fixed (s : State) (e : Nat) (fillKiB : List Nat) :
    (State.xoffRepeat s e fillKiB).fixed = s.fixed := by
  simp [State.xoffRepeat]

@[simp] theorem placeParked_fixed (s : State) :
    (State.placeParked s).fixed = s.fixed := by
  unfold State.placeParked
  dsimp only
  (repeat' (first | rfl | (simp; done) | split))

@[simp] theorem wrPage_fixed (s : State) (port : Mgmt) (value : W32) :
    (State.wrPage s port value).fixed = s.fixed := by
  simp [State.wrPage]

@[simp] theorem ethLink_fixed (s : State) (e : Nat) (locked : Bool) :
    (State.ethLink s e locked).fixed = s.fixed := by
  simp [State.ethLink]

@[simp] theorem ethOpen_fixed (s : State) (e : Nat) :
    (State.ethOpen s e).fixed = s.fixed := by
  simp [State.ethOpen]

@[simp] theorem ethConfig_fixed (s : State) :
    (State.ethConfig s).fixed = s.fixed := by
  simp [State.ethConfig]

end Sys2Proof.Machine
end

