-- ==== Sys2Proof/Laws/FixedMover.lean ====
section
/-! SUPPORT. What the operations of Machine/Mover.lean leave alone: one lemma each. -/

namespace Sys2Proof.Machine

@[simp] theorem spaceWrite_fixed (s : State) (ch k a : Nat) (b : List Byte) :
    (State.spaceWrite s ch k a b).fixed = s.fixed := by
  unfold State.spaceWrite
  split
  · exact portWrite_fixed s 0x2E ch false a b
  · exact portWrite_fixed s 0x2E ch true a b
  all_goals rfl

@[simp] theorem writePieces_fixed (ch k : Nat) : ∀ (l : List Piece) (b : List Byte) (s : State),
    (s.writePieces ch k l b).fixed = s.fixed
  | [], b, s => rfl
  | p :: rest, b, s => by
    unfold State.writePieces
    simp [writePieces_fixed ch k rest]

@[simp] theorem moveBytes_fixed (s : State) (ch n : Nat) :
    (State.moveBytes s ch n).fixed = s.fixed := by
  simp [State.moveBytes]

@[simp] theorem seeHalf_fixed (s : State) (ch before after : Nat) :
    (State.seeHalf s ch before after).fixed = s.fixed := by
  simp [State.seeHalf]

@[simp] theorem moveSome_fixed (s : State) (ch n : Nat) :
    (State.moveSome s ch n).fixed = s.fixed := by
  simp [State.moveSome]

@[simp] theorem readPorts_fixed (s : State) (ch k : Nat) (l : List Piece) :
    (State.readPorts s ch k l).fixed = s.fixed := by
  unfold State.readPorts
  split <;> simp

@[simp] theorem fetchNext_fixed (s : State) (ch : Nat) :
    (State.fetchNext s ch).fixed = s.fixed := by
  unfold State.fetchNext
  dsimp only
  (repeat' (first | rfl | (simp; done) | split))

@[simp] theorem readDone_fixed (s : State) (ch : Nat) :
    (State.readDone s ch).fixed = s.fixed := by
  unfold State.readDone
  dsimp only
  (repeat' (first | rfl | (simp; done) | split))

@[simp] theorem repace_fixed (s : State) (q : Nat) :
    (State.repace s q).fixed = s.fixed := by
  unfold State.repace
  refine (fixed_foldl _ (fun x a => ?_) _ _).trans rfl
  split <;> simp

@[simp] theorem launch_fixed (s : State) (ch : Nat) :
    (State.launch s ch).fixed = s.fixed := by
  simp [State.launch]

@[simp] theorem tryLaunch_fixed (s : State) (ch : Nat) :
    (State.tryLaunch s ch).fixed = s.fixed := by
  unfold State.tryLaunch
  dsimp only
  (repeat' (first | rfl | (simp; done) | split))

@[simp] theorem unpause_fixed (s : State) (ch : Nat) :
    (State.unpause s ch).fixed = s.fixed := by
  unfold State.unpause
  dsimp only
  (repeat' (first | rfl | (simp; done) | split))

@[simp] theorem startChan_fixed (s : State) (ch : Nat) :
    (State.startChan s ch).fixed = s.fixed := by
  unfold State.startChan
  dsimp only
  (repeat' (first | rfl | (simp; done) | split))

@[simp] theorem stopChan_fixed (s : State) (ch : Nat) :
    (State.stopChan s ch).fixed = s.fixed := by
  rfl

@[simp] theorem wrCtl_fixed (s : State) (port : Mgmt) (ch : Nat) (value : W32) :
    (State.wrCtl s port ch value).fixed = s.fixed := by
  unfold State.wrCtl
  dsimp only
  (repeat' (first | rfl | (simp; done) | split))

@[simp] theorem schedMover_fixed (s : State) (epoch : BitVec 2) (ch param : Nat) :
    (State.schedMover s epoch ch param).fixed = s.fixed := by
  unfold State.schedMover
  (repeat' (first | (simp; done) | split))

@[simp] theorem offRecord_fixed (s : State) (flag idx status : Nat) :
    (State.offRecord s flag idx status).fixed = s.fixed := by
  simp [State.offRecord]

@[simp] theorem offTryN_fixed (ch : Nat) : ∀ (n : Nat) (s : State), (State.offTryN ch n s).fixed = s.fixed
  | 0, s => rfl
  | n + 1, s => by
    unfold State.offTryN
    (repeat' (first | (simp [offTryN_fixed ch n]; done) | split))

@[simp] theorem offTry_fixed (s : State) (ch : Nat) :
    (State.offTry s ch).fixed = s.fixed := by
  simp [State.offTry]

@[simp] theorem offDone_fixed (s : State) (ch : Nat) :
    (State.offDone s ch).fixed = s.fixed := by
  unfold State.offDone
  dsimp only
  (repeat' (first | rfl | (simp; done) | split))

@[simp] theorem chanDone_fixed (s : State) (ch : Nat) :
    (State.chanDone s ch).fixed = s.fixed := by
  rfl

@[simp] theorem moverComplete_fixed (s : State) (ch : Nat) :
    (State.moverComplete s ch).fixed = s.fixed := by
  unfold State.moverComplete
  dsimp only
  (repeat' (first | rfl | (simp; done) | split))

@[simp] theorem moverDrained_fixed (s : State) (ch : Nat) (moved : Nat) :
    (State.moverDrained s ch moved).fixed = s.fixed := by
  simp [State.moverDrained]

@[simp] theorem moverError_fixed (s : State) (ch moved addr : Nat) (write : Bool) (status : Nat) :
    (State.moverError s ch moved addr write status).fixed = s.fixed := by
  simp [State.moverError]

@[simp] theorem portErr_fixed (s : State) (p : MemPort) (timeout : Bool) :
    (State.portErr s p timeout).fixed = s.fixed := by
  unfold State.portErr
  (repeat' (first | (simp; done) | split))

@[simp] theorem lateResponse_fixed (s : State) (req : MemReq) (refresh : Bool) :
    (State.lateResponse s req refresh).fixed = s.fixed := by
  unfold State.lateResponse
  (repeat' (first | (simp; done) | split))

@[simp] theorem memError_fixed (s : State) (req : MemReq) (status : Nat) :
    (State.memError s req status).fixed = s.fixed := by
  rfl

@[simp] theorem maskDamage_fixed (s : State) (req : MemReq) :
    (State.maskDamage s req).fixed = s.fixed := by
  unfold State.maskDamage
  dsimp only
  (repeat' (first | rfl | (simp; done) | split))

@[simp] theorem memResponse_fixed (s : State) (req : MemReq) (status : BitVec 2) (late refresh : Bool) :
    (State.memResponse s req status late refresh).fixed = s.fixed := by
  unfold State.memResponse
  dsimp only
  (repeat' (first | rfl | (simp; done) | split))

@[simp] theorem memTimeout_fixed (s : State) (req : MemReq) :
    (State.memTimeout s req).fixed = s.fixed := by
  unfold State.memTimeout
  dsimp only
  (repeat' (first | rfl | (simp; done) | split))

end Sys2Proof.Machine
end

