-- ==== Sys2Proof/Laws/FixedCodec.lean ====
section
/-! SUPPORT. What the operations of Machine/Codec.lean leave alone: one lemma each. -/

namespace Sys2Proof.Machine

@[simp] theorem writeBlock_fixed (s : State) (r : RegionEntry) (tables : List (Nat × PrefixTable)) (q : KvReq) :
    (State.writeBlock s r tables q).fixed = s.fixed := by
  unfold State.writeBlock
  (repeat' (first | (simp; done) | split))

@[simp] theorem encodeBlock_fixed (s : State) (t : Nat) :
    (State.encodeBlock s t).fixed = s.fixed := by
  unfold State.encodeBlock
  dsimp only
  (repeat' (first | rfl | (simp; done) | split))

@[simp] theorem blockWritten_fixed (s : State) (region block : Nat) :
    (State.blockWritten s region block).fixed = s.fixed := by
  simp [State.blockWritten]

@[simp] theorem xeReport_fixed (s : State) (xe : Nat) (ready : Bool) (info : Option W64) :
    (State.xeReport s xe ready info).fixed = s.fixed := by
  unfold State.xeReport
  dsimp only
  split
  · refine (fixed_foldl _ ?_ _ _).trans rfl
    intros
    rfl
  · (repeat' (first | rfl | split))

@[simp] theorem expand_fixed (s : State) (xe region block : Nat) (ready : Bool) (r : PodResult) :
    (State.expand s xe region block ready r).fixed = s.fixed := by
  unfold State.expand
  (repeat' (first | (simp; done) | split))

@[simp] theorem expandSlot_fixed (s : State) (xe region block : Nat) (slot : List Byte) (ready : Bool) :
    (State.expandSlot s xe region block slot ready).fixed = s.fixed := by
  unfold State.expandSlot
  dsimp only
  (repeat' (first | rfl | (simp; done) | split))

@[simp] theorem fetchDone_fixed (s : State) (xe : Nat) (line rest : List Byte) (status : BitVec 2) (ready : Bool) :
    (State.fetchDone s xe line rest status ready).fixed = s.fixed := by
  unfold State.fetchDone
  (repeat' (first | (simp; done) | split))

@[simp] theorem xtWrite_fixed (s : State) :
    (State.xtWrite s).fixed = s.fixed := by
  unfold State.xtWrite
  (repeat' (first | (simp; done) | split))

@[simp] theorem xtAdvance_fixed (s : State) :
    (State.xtAdvance s).fixed = s.fixed := by
  simp [State.xtAdvance]

@[simp] theorem xrIn_fixed (s : State) (info : Nat) :
    (State.xrIn s info).fixed = s.fixed := by
  rfl

end Sys2Proof.Machine
end

