-- ==== Sys2Proof/Laws/FixedOperands.lean ====
section
/-! SUPPORT. What the operations of Machine/Operands.lean leave alone: one lemma each. -/

namespace Sys2Proof.Machine

@[simp] theorem storeMask_fixed (s : State) (c : CatEntry) (row : Nat) (step : StepNo) (bits : List Bool) :
    (State.storeMask s c row step bits).fixed = s.fixed := by
  simp [State.storeMask]

@[simp] theorem maskLost_fixed (s : State) (tile tensor row : Nat) (c : CatEntry) :
    (State.maskLost s tile tensor row c).fixed = s.fixed := by
  simp [State.maskLost]

@[simp] theorem putResidual_fixed (s : State) (tensor : Nat) (c : CatEntry) (elem : Nat) (r : W32) :
    (State.putResidual s tensor c elem r).fixed = s.fixed := by
  simp [State.putResidual]

@[simp] theorem putResiduals_fixed (tensor : Nat) (c : CatEntry) : ∀ (l : List (Nat × W32)) (s : State),
    (s.putResiduals tensor c l).fixed = s.fixed
  | [], s => rfl
  | (e, r) :: rest, s => by
    unfold State.putResiduals
    simp [putResiduals_fixed tensor c rest]

@[simp] theorem withheldGroup_fixed (s : State) (tensor : Nat) (c : CatEntry) (i group : Nat) (vals : List W32) :
    (State.withheldGroup s tensor c i group vals).fixed = s.fixed := by
  unfold State.withheldGroup
  (repeat' (first | (simp; done) | split))

@[simp] theorem poisonedGroup_fixed (s : State) (tensor : Nat) (c : CatEntry) (i group : Nat) (vals : List W32) :
    (State.poisonedGroup s tensor c i group vals).fixed = s.fixed := by
  unfold State.poisonedGroup
  (repeat' (first | (simp; done) | split))

@[simp] theorem setPhase_fixed (s : State) (code : Nat) (on : Bool) :
    (State.setPhase s code on).fixed = s.fixed := by
  rfl

end Sys2Proof.Machine
end

