-- ==== Sys2Proof/Laws/FixedIntake.lean ====
section
/-! SUPPORT. What the operations of Machine/Intake.lean leave alone: one lemma each. -/

namespace Sys2Proof.Machine

@[simp] theorem discard_fixed (s : State) (tq : Nat) (d : BitVec 512) (r : Reason) :
    (State.discard s tq d r).fixed = s.fixed := by
  simp [State.discard]

@[simp] theorem setTq_fixed (s : State) (n : Nat) (st : TqState) :
    (State.setTq s n st).fixed = s.fixed := by
  rfl

@[simp] theorem cutShort_fixed (s : State) (n : Nat) :
    (State.cutShort s n).fixed = s.fixed := by
  rfl

@[simp] theorem scan_fixed (s : State) (d : DescHdr) (b : List Byte) (lo hi : Nat) :
    (State.scan s d b lo hi).fixed = s.fixed := by
  simp [State.scan]

@[simp] theorem storeGroup_fixed (s : State) (tensor : Nat) (c : CatEntry) (group : Nat) (g : List W32) :
    (State.storeGroup s tensor c group g).fixed = s.fixed := by
  unfold State.storeGroup
  try dsimp only
  (repeat' (first | rfl | (simp; done) | split))

@[simp] theorem takeGradient_fixed (s : State) (d : DescHdr) (c : CatEntry) (b : List Byte) :
    (State.takeGradient s d c b).fixed = s.fixed := by
  simp [State.takeGradient]

@[simp] theorem takeSamples_fixed (s : State) (d : DescHdr) (c : CatEntry) (b : List Byte) :
    (State.takeSamples s d c b).fixed = s.fixed := by
  simp [State.takeSamples]

@[simp] theorem endIntake_fixed (s : State) :
    (State.endIntake s).fixed = s.fixed := by
  simp [State.endIntake]

@[simp] theorem tileDone_fixed (s : State) (n : Nat) (d : DescHdr) (b : List Byte) :
    (State.tileDone s n d b).fixed = s.fixed := by
  unfold State.tileDone
  (repeat' (first | (simp; done) | split))

@[simp] theorem payloadIn_fixed (s : State) (n : Nat) (raw : BitVec 512) (got more : List Byte) (last : Bool) :
    (State.payloadIn s n raw got more last).fixed = s.fixed := by
  unfold State.payloadIn
  dsimp only
  (repeat' (first | rfl | (simp; done) | split))

@[simp] theorem openTile_fixed (s : State) (n : Nat) (raw : BitVec 512) (payload : List Byte) (last : Bool) :
    (State.openTile s n raw payload last).fixed = s.fixed := by
  simp [State.openTile]

@[simp] theorem failDesc_fixed (s : State) (n : Nat) (raw : BitVec 512) (r : Reason) (last : Bool) :
    (State.failDesc s n raw r last).fixed = s.fixed := by
  simp [State.failDesc]

@[simp] theorem descIn_fixed (s : State) (n : Nat) (raw : BitVec 512) (payload : List Byte) (last : Bool) :
    (State.descIn s n raw payload last).fixed = s.fixed := by
  simp [State.descIn]

@[simp] theorem beatsIn_fixed (s : State) (n : Nat) (payload : List Byte) (last : Bool) :
    (State.beatsIn s n payload last).fixed = s.fixed := by
  unfold State.beatsIn
  (repeat' (first | (simp; done) | split))

@[simp] theorem tileReceive_fixed (s : State) (n : Nat) (desc : Option (BitVec 512)) (payload : List Byte) (last : Bool) :
    (State.tileReceive s n desc payload last).fixed = s.fixed := by
  unfold State.tileReceive
  (repeat' (first | (simp; done) | split))

@[simp] theorem heldRelease_fixed (s : State) (n : Nat) (payload : List Byte) (last : Bool) :
    (State.heldRelease s n payload last).fixed = s.fixed := by
  unfold State.heldRelease
  (repeat' (first | (simp; done) | split))

@[simp] theorem failHeld_fixed (s : State) :
    (State.failHeld s).fixed = s.fixed := by
  unfold State.failHeld
  try dsimp only
  (repeat' (first | rfl | (simp; done) | (simp (disch := (intros; repeat' (first | rfl | (simp; done) | split))); done) | split))

@[simp] theorem producerReset_fixed (s : State) (n : Nat) :
    (State.producerReset s n).fixed = s.fixed := by
  unfold State.producerReset
  (repeat' (first | (simp; done) | split))

end Sys2Proof.Machine
end

