-- ==== Sys2Proof/Laws/FixedRing.lean ====
section
/-! SUPPORT. What the operations of Machine/Ring.lean leave alone: one lemma each. -/

namespace Sys2Proof.Machine

@[simp] theorem twinSend_fixed (s : State) (item : TwinItem) (msg : TwinMsg) :
    (State.twinSend s item msg).fixed = s.fixed := by
  simp [State.twinSend]

@[simp] theorem sendChunk_fixed (s : State) (port vc : Nat) (h : ChunkHdr) (payload : List Byte) :
    (State.sendChunk s port vc h payload).fixed = s.fixed := by
  simp [State.sendChunk]

@[simp] theorem sendLap1_fixed (s : State) (d : DomEntry) (axis : Nat) (hop : Hop) (h : ChunkHdr) (payload : List Byte) :
    (State.sendLap1 s d axis hop h payload).fixed = s.fixed := by
  simp [State.sendLap1]

@[simp] theorem freeChunk_fixed (s : State) (c : RxChunk) :
    (State.freeChunk s c).fixed = s.fixed := by
  rfl

@[simp] theorem addSat_fixed (s : State) (tensor : Nat) (c : CatEntry) (tile n : Nat) :
    (State.addSat s tensor c tile n).fixed = s.fixed := by
  simp [State.addSat]

@[simp] theorem resUnselected_fixed (s : State) (tensor : Nat) (c : CatEntry) (e : ChunkEntry) (sel : List Nat) :
    (State.resUnselected s tensor c e sel).fixed = s.fixed := by
  unfold State.resUnselected
  try dsimp only
  (repeat' (first | rfl | (simp; done) | (simp (disch := (intros; repeat' (first | (simp; done) | split))); done) | split))

@[simp] theorem resSelected_fixed (s : State) (tensor : Nat) (c : CatEntry) (sel : List Nat) (r : List W32) :
    (State.resSelected s tensor c sel r).fixed = s.fixed := by
  simp [State.resSelected]

@[simp] theorem resOpen_fixed (s : State) (tensor : Nat) (c : CatEntry) (sel : List Nat) :
    (State.resOpen s tensor c sel).fixed = s.fixed := by
  simp [State.resOpen]

@[simp] theorem resLost_fixed (s : State) (i tensor : Nat) (c : CatEntry) (e : ChunkEntry) (sel : List Nat) :
    (State.resLost s i tensor c e sel).fixed = s.fixed := by
  simp [State.resLost]

@[simp] theorem noteMask_fixed (s : State) (i tensor : Nat) (c : CatEntry) (e : ChunkEntry) :
    (State.noteMask s i tensor c e).fixed = s.fixed := by
  simp [State.noteMask]

@[simp] theorem withhold_fixed (s : State) (i tensor : Nat) (c : CatEntry) (e : ChunkEntry) (d : DomEntry) :
    (State.withhold s i tensor c e d).fixed = s.fixed := by
  unfold State.withhold
  try dsimp only
  (repeat' (first | rfl | (simp; done) | (simp (disch := (intros; repeat' (first | (simp; done) | split))); done) | split))

@[simp] theorem ownerTakes_fixed (s : State) (i tensor : Nat) (c : CatEntry) (e : ChunkEntry) (sel : List Nat) (f : Folded) :
    (State.ownerTakes s i tensor c e sel f).fixed = s.fixed := by
  simp [State.ownerTakes]

@[simp] theorem sendFormed_fixed (s : State) (i tensor : Nat) (c : CatEntry) (e : ChunkEntry) (d : DomEntry) (axis : Nat) (hop : Hop)
    (sel : List Nat) (tileUnit : Bool) (f : Formed) : (s.sendFormed i tensor c e d axis hop sel tileUnit f).fixed = s.fixed := by
  unfold State.sendFormed
  split <;> simp

@[simp] theorem endLap_fixed (s : State) (i tensor : Nat) (c : CatEntry) (e : ChunkEntry) (d : DomEntry) (axis : Nat) (sel : List Nat) (f : Folded) :
    (State.endLap s i tensor c e d axis sel f).fixed = s.fixed := by
  simp [State.endLap]

@[simp] theorem passPoison_fixed (s : State) (i tensor : Nat) (c : CatEntry) (e : ChunkEntry) (d : DomEntry) (axis : Nat) (hop : Hop) (h : ChunkHdr) (b : List Byte) :
    (State.passPoison s i tensor c e d axis hop h b).fixed = s.fixed := by
  simp [State.passPoison]

@[simp] theorem takeRx_fixed (s : State) (x : RxChunk) :
    (State.takeRx s x).fixed = s.fixed := by
  rfl

@[simp] theorem firstAxisRes_fixed (s : State) (i tensor : Nat) (c : CatEntry) (e : ChunkEntry) (d : DomEntry) (axis : Nat) (sel : List Nat) :
    (State.firstAxisRes s i tensor c e d axis sel).fixed = s.fixed := by
  simp [State.firstAxisRes]

@[simp] theorem hopAct_fixed (s : State) (i tensor : Nat) (c : CatEntry) (e : ChunkEntry) (d : DomEntry) (axis : Nat) (hop : Hop)
    (withheld : Bool) (inc : Option RxChunk) : (s.hopAct i tensor c e d axis hop withheld inc).fixed = s.fixed := by
  unfold State.hopAct
  extract_lets first own s1 s2 sel s3 share carried s4 drop base
  have h1 : s1.fixed = s.fixed := by simp [s1]
  have h2 : s2.fixed = s.fixed := by
    simp only [s2]
    split <;> simp [h1]
  have h3 : s3.fixed = s.fixed := by simp [s3, h2]
  have h4 : s4.fixed = s.fixed := by
    simp only [s4]
    split <;> simp [h3]
  have hd : ∀ x : State, (drop x).fixed = x.fixed := by
    intro x
    simp only [drop]
    split <;> rfl
  clear_value s1 s2 s3 s4 drop share carried own sel first
  rw [← h4]
  (repeat' (first | (simp +zetaDelta [hd]; done) | split))

@[simp] theorem lap1Add_fixed (s : State) (i axis : Nat) (bypass : Bool) :
    (State.lap1Add s i axis bypass).fixed = s.fixed := by
  unfold State.lap1Add
  try dsimp only
  (repeat' (first | rfl | (simp; done) | split))

@[simp] theorem lap1Expire_fixed (s : State) (i axis : Nat) :
    (State.lap1Expire s i axis).fixed = s.fixed := by
  unfold State.lap1Expire
  try dsimp only
  (repeat' (first | rfl | (simp; done) | split))

@[simp] theorem maskBuild_fixed (s : State) (tensor row : Nat) :
    (State.maskBuild s tensor row).fixed = s.fixed := by
  unfold State.maskBuild
  (repeat' (first | (simp; done) | split))

end Sys2Proof.Machine
end

