-- ==== Sys2Proof/Laws/FixedGather.lean ====
section
/-! SUPPORT. What the operations of Machine/Gather.lean leave alone: one lemma each. -/

namespace Sys2Proof.Machine

@[simp] theorem stale_fixed (s : State) (epoch : BitVec 2) (src dom : Nat) :
    (State.stale s epoch src dom).fixed = s.fixed := by
  rfl

@[simp] theorem badForm_fixed (s : State) (raw : BitVec 512) (test : Nat) :
    (State.badForm s raw test).fixed = s.fixed := by
  rfl

@[simp] theorem sendLap2_fixed (s : State) (d : DomEntry) (axis : Nat) (minus : Bool) (k : Nat) (h : ChunkHdr) (payload : List Byte) :
    (State.sendLap2 s d axis minus k h payload).fixed = s.fixed := by
  simp [State.sendLap2]

@[simp] theorem startLap2_fixed (s : State) (d : DomEntry) (h : ChunkHdr) (payload : List Byte) (axis : Nat) :
    (State.startLap2 s d h payload axis).fixed = s.fixed := by
  simp [State.startLap2]

@[simp] theorem onwardLap2_fixed (s : State) (d : DomEntry) (hop : Option Lap2Hop) (h : ChunkHdr) (payload : List Byte) :
    (State.onwardLap2 s d hop h payload).fixed = s.fixed := by
  unfold State.onwardLap2
  try dsimp only
  (repeat' (first | rfl | (simp; done) | split | (rw [fixed_foldl]) | intro _))

@[simp] theorem openRun_fixed (s : State) (g : Nat) :
    (State.openRun s g).fixed = s.fixed := by
  rfl

@[simp] theorem setRun_fixed (s : State) (r : GatherRun) :
    (State.setRun s r).fixed = s.fixed := by
  rfl

@[simp] theorem scanWc_fixed (s : State) (tensor : Nat) (c : CatEntry) (aux : W32) (codes : List Byte) :
    (State.scanWc s tensor c aux codes).fixed = s.fixed := by
  simp [State.scanWc]

@[simp] theorem storeBits_fixed (s : State) (c : CatEntry) (e : ChunkEntry) (step : StepNo) (bits : List Bool) :
    (State.storeBits s c e step bits).fixed = s.fixed := by
  simp [State.storeBits]

@[simp] theorem gatherBad_fixed (s : State) (r : GatherRun) (i : Nat) :
    (State.gatherBad s r i).fixed = s.fixed := by
  rfl

@[simp] theorem writeLap2_fixed (s : State) (r : GatherRun) (ge : GatherEntry) (e : ChunkEntry) (c : CatEntry) (h : ChunkHdr) (payload : List Byte) :
    (State.writeLap2 s r ge e c h payload).fixed = s.fixed := by
  simp [State.writeLap2]

@[simp] theorem takeLap2_fixed (s : State) (e : ChunkEntry) (d : DomEntry) (c : CatEntry) (hop : Option Lap2Hop) (h : ChunkHdr) (payload : List Byte) :
    (State.takeLap2 s e d c hop h payload).fixed = s.fixed := by
  unfold State.takeLap2
  try dsimp only
  (repeat' (first | rfl | (simp; done) | split))

@[simp] theorem sendOwn_fixed (s : State) (g i : Nat) (ge : GatherEntry) (last : Bool) :
    (State.sendOwn s g i ge last).fixed = s.fixed := by
  unfold State.sendOwn
  try dsimp only
  (repeat' (first | rfl | (simp; done) | split))

@[simp] theorem gatherStart_fixed (s : State) (g : Nat) :
    (State.gatherStart s g).fixed = s.fixed := by
  unfold State.gatherStart
  try dsimp only
  (repeat' (first | rfl | (simp; done) | split))

@[simp] theorem gatherMiss_fixed (s : State) (r : GatherRun) (i : Nat) (last : Bool) :
    (State.gatherMiss s r i last).fixed = s.fixed := by
  unfold State.gatherMiss
  dsimp only
  (repeat' (first | rfl | (simp; done) | split))

@[simp] theorem gatherExpire_fixed (s : State) (g : Nat) :
    (State.gatherExpire s g).fixed = s.fixed := by
  unfold State.gatherExpire
  try dsimp only
  (repeat' (first | rfl | (simp; done) | split))

@[simp] theorem gatherFlag_fixed (s : State) (g : Nat) :
    (State.gatherFlag s g).fixed = s.fixed := by
  unfold State.gatherFlag
  (repeat' (first | (simp; done) | split))

@[simp] theorem sendPerm_fixed (s : State) (x : XferEntry) (h : ChunkHdr) (payload : List Byte) :
    (State.sendPerm s x h payload).fixed = s.fixed := by
  unfold State.sendPerm
  try dsimp only
  (repeat' (first | rfl | (simp; done) | split))

@[simp] theorem openXfer_fixed (s : State) (n : Nat) :
    (State.openXfer s n).fixed = s.fixed := by
  rfl

@[simp] theorem setXfer_fixed (s : State) (r : XferRun) :
    (State.setXfer s r).fixed = s.fixed := by
  rfl

@[simp] theorem takeXfer_fixed (s : State) (n : Nat) (x : XferEntry) (k : Nat) (poison : Bool) (payload : List Byte) :
    (State.takeXfer s n x k poison payload).fixed = s.fixed := by
  unfold State.takeXfer
  try dsimp only
  (repeat' (first | rfl | (simp; done) | split))

@[simp] theorem xferStart_fixed (s : State) (n : Nat) :
    (State.xferStart s n).fixed = s.fixed := by
  unfold State.xferStart
  (repeat' (first | (simp; done) | split))

@[simp] theorem xferExpire_fixed (s : State) (n : Nat) :
    (State.xferExpire s n).fixed = s.fixed := by
  unfold State.xferExpire
  try dsimp only
  (repeat' (first | rfl | (simp; done) | split))

@[simp] theorem xferFlag_fixed (s : State) (n : Nat) :
    (State.xferFlag s n).fixed = s.fixed := by
  unfold State.xferFlag
  (repeat' (first | (simp; done) | split))

@[simp] theorem routeChunk_fixed (s : State) (c : RxChunk) :
    (State.routeChunk s c).fixed = s.fixed := by
  unfold State.routeChunk
  try dsimp only
  (repeat' (first | (simp; done) | split))

@[simp] theorem maskEpochBad_fixed (s : State) (h : ChunkHdr) :
    (State.maskEpochBad s h).fixed = s.fixed := by
  rfl

@[simp] theorem maskEpoch_fixed (s : State) (h : ChunkHdr) :
    (State.maskEpoch s h).fixed = s.fixed := by
  unfold State.maskEpoch
  (repeat' (first | (simp; done) | split))

@[simp] theorem holdChunk_fixed (s : State) (c : RxChunk) :
    (State.holdChunk s c).fixed = s.fixed := by
  simp [State.holdChunk]

@[simp] theorem lateTests_fixed (s : State) (c : RxChunk) :
    (State.lateTests s c).fixed = s.fixed := by
  simp [State.lateTests]

@[simp] theorem release_fixed (s : State) (c : RxChunk) :
    (State.release s c).fixed = s.fixed := by
  simp [State.release]

@[simp] theorem retestChunks_fixed (s : State) :
    (State.retestChunks s).fixed = s.fixed := by
  simp [State.retestChunks]

@[simp] theorem useTests_fixed (s : State) (c : RxChunk) :
    (State.useTests s c).1.fixed = s.fixed := by
  simp [State.useTests]

@[simp] theorem chunkReceive_fixed (s : State) (port vc : Nat) (raw : BitVec 512) (payload : List Byte) :
    (State.chunkReceive s port vc raw payload).fixed = s.fixed := by
  simp [State.chunkReceive]

end Sys2Proof.Machine
end

