-- ==== Sys2Proof/Laws/FixedGazelle.lean ====
section
/-! SUPPORT. What the operations of Machine/Gazelle.lean leave alone: one lemma each. -/

namespace Sys2Proof.Machine

@[simp] theorem putCell_fixed (s : State) (port : Nat) (c : GzCell) :
    (State.putCell s port c).fixed = s.fixed := by
  simp [State.putCell]

@[simp] theorem sendCell_fixed (s : State) (port : Nat) (h : CellHdr) (payload : List Byte) (t : CellTrl) :
    (State.sendCell s port h payload t).fixed = s.fixed := by
  simp [State.sendCell]

@[simp] theorem writeNorms_fixed (s : State) :
    (State.writeNorms s).fixed = s.fixed := by
  simp [State.writeNorms]

@[simp] theorem gzOwn_fixed (s : State) (rid : Nat) (g : GzSpec) :
    (State.gzOwn s rid g).2.fixed = s.fixed := by
  unfold State.gzOwn
  (repeat' (first | (simp; done) | split))

@[simp] theorem setGzRun_fixed (s : State) (r : GzRun) :
    (State.setGzRun s r).fixed = s.fixed := by
  rfl

@[simp] theorem setGzRed_fixed (s : State) (r : GzRed) :
    (State.setGzRed s r).fixed = s.fixed := by
  rfl

@[simp] theorem copyJudged_fixed (s : State) (agreed : Bool) :
    (State.copyJudged s agreed).fixed = s.fixed := by
  simp [State.copyJudged]

@[simp] theorem replicaJudge_fixed (s : State) :
    (State.replicaJudge s).fixed = s.fixed := by
  unfold State.replicaJudge
  try dsimp only
  (repeat' (first | rfl | (simp; done) | split))

@[simp] theorem gzInternal_fixed (s : State) (rid : Nat) (l : List GzElem) (decision : Nat) :
    (State.gzInternal s rid l decision).fixed = s.fixed := by
  unfold State.gzInternal
  (repeat' (first | (simp; done) | split))

@[simp] theorem gzWrite_fixed (s : State) (rid : Nat) (g : GzSpec) (run : W32) (incomplete : Bool) (l : List GzElem) :
    (State.gzWrite s rid g run incomplete l).fixed = s.fixed := by
  simp [State.gzWrite]

@[simp] theorem gzDeliver_fixed (s : State) (rid : Nat) (g : GzSpec) (l : List GzElem) (nf : Bool) (decision : Nat) (inc : Bool) :
    (State.gzDeliver s rid g l nf decision inc).fixed = s.fixed := by
  simp [State.gzDeliver]

@[simp] theorem spreadResult_fixed (s : State) (rid k : Nat) (g : GzSpec) (d : DomEntry) (epoch : BitVec 2) (run : W32) (onAxis : Option (Nat × Nat)) (payload : List Byte) (bad nf : Bool) (decision : Nat) (inc : Bool) :
    (State.spreadResult s rid k g d epoch run onAxis payload bad nf decision inc).fixed = s.fixed := by
  unfold State.spreadResult
  try dsimp only
  (repeat' (first | rfl | (simp; done) | split | (rw [fixed_foldl]) | intro _))

@[simp] theorem gzFinish_fixed (s : State) (rid k : Nat) (g : GzSpec) (d : DomEntry) (r : GzRed) :
    (State.gzFinish s rid k g d r).fixed = s.fixed := by
  simp [State.gzFinish]

@[simp] theorem gzDecide_fixed (s : State) (g : GzSpec) (d : DomEntry) (a b : GzRed) :
    (State.gzDecide s g d a b).fixed = s.fixed := by
  simp [State.gzDecide]

@[simp] theorem gzRoot_fixed (s : State) (rid k : Nat) (force : Bool) (g : GzSpec) (d : DomEntry) (r : GzRed) :
    (State.gzRoot s rid k force g d r).fixed = s.fixed := by
  unfold State.gzRoot
  (repeat' (first | (simp; done) | split))

@[simp] theorem gzAdvance_fixed (rid k : Nat) (force : Bool) : ∀ (n : Nat) (s : State),
    (State.gzAdvance rid k force n s).fixed = s.fixed
  | 0, s => rfl
  | n + 1, s => by
    unfold State.gzAdvance
    (repeat' (first | (simp [gzAdvance_fixed rid k force n]; done) | split))

@[simp] theorem gzGo_fixed (s : State) (rid k : Nat) :
    (State.gzGo s rid k).fixed = s.fixed := by
  simp [State.gzGo]

@[simp] theorem cellFree_fixed (s : State) (port : Nat) :
    (State.cellFree s port).fixed = s.fixed := by
  rfl

@[simp] theorem useCell_fixed (s : State) (c : GzHeld) (bad : Bool) :
    (State.useCell s c bad).fixed = s.fixed := by
  unfold State.useCell
  try dsimp only
  (repeat' (first | rfl | (simp; done) | split))

@[simp] theorem cellForm_fixed (s : State) (c : GzHeld) (fault : Bool) :
    (State.cellForm s c fault).fixed = s.fixed := by
  simp [State.cellForm]

@[simp] theorem strayCell_fixed (s : State) (c : GzHeld) :
    (State.strayCell s c).fixed = s.fixed := by
  unfold State.strayCell
  dsimp only
  (repeat' (first | rfl | (simp; done) | split))

@[simp] theorem routeCell_fixed (s : State) (c : GzHeld) (bad : Bool) :
    (State.routeCell s c bad).fixed = s.fixed := by
  simp [State.routeCell]

@[simp] theorem gazelleCell_fixed (s : State) (port : Nat) (hdr : BitVec 128) (payload : List Byte) (trailer : BitVec 128) :
    (State.gazelleCell s port hdr payload trailer).fixed = s.fixed := by
  simp [State.gazelleCell]

@[simp] theorem sendAborted_fixed (s : State) (p : Nat) (cell : List Byte) :
    (State.sendAborted s p cell).fixed = s.fixed := by
  simp [State.sendAborted]

@[simp] theorem abortForward_fixed (s : State) (p : Nat) (cell : List Byte) :
    (State.abortForward s p cell).fixed = s.fixed := by
  unfold State.abortForward
  try dsimp only
  (repeat' (first | rfl | (simp; done) | (simp (disch := (intros; repeat' (first | rfl | (simp; done) | split))); done) | split))

@[simp] theorem retestCells_fixed (s : State) :
    (State.retestCells s).fixed = s.fixed := by
  simp [State.retestCells]

@[simp] theorem gzSetOwn_fixed (s : State) (rid : Nat) (g : GzSpec) (own : List GzElem) :
    (State.gzSetOwn s rid g own).fixed = s.fixed := by
  unfold State.gzSetOwn
  try dsimp only
  (repeat' (first | rfl | (simp; done) | (simp (disch := (intros; repeat' (first | (simp; done) | split))); done) | split))

@[simp] theorem gzStart_fixed (s : State) (rid : Nat) (wait : Bool) :
    (State.gzStart s rid wait).fixed = s.fixed := by
  unfold State.gzStart
  (repeat' (first | (simp; done) | split))

@[simp] theorem gzExpire_fixed (s : State) (rid : Nat) :
    (State.gzExpire s rid).fixed = s.fixed := by
  unfold State.gzExpire
  (repeat' (first | (simp; done) | split))

@[simp] theorem gzReset_fixed (s : State) :
    (State.gzReset s).fixed = s.fixed := by
  simp [State.gzReset]

@[simp] theorem drainCap_fixed : ∀ (l : List GzHeld) (s : State), (s.drainCap l).fixed = s.fixed
  | [], s => rfl
  | c :: rest, s => by
    unfold State.drainCap
    (repeat' (first | (simp [drainCap_fixed rest]; done) | split))

@[simp] theorem capWindow_fixed (s : State) :
    (State.capWindow s).fixed = s.fixed := by
  simp [State.capWindow]

@[simp] theorem doDataFrame_fixed (p : BitVec 3) (f : Frame) (s : State) : (doDataFrame p f s).fixed = s.fixed := by
  have g := testFrame_fixed s p.toNat 0 f
  unfold doDataFrame
  dsimp only
  (repeat' (first | (simp_all; done) | split))

end Sys2Proof.Machine
end

