-- ==== Sys2Proof/Laws/FixedCurvature.lean ====
section
/-! SUPPORT. What the operations of Machine/Curvature.lean leave alone: one lemma each. -/

namespace Sys2Proof.Machine

@[simp] theorem setArray_fixed (s : State) (n : Nat) (f : ArrayUnit → ArrayUnit) :
    (State.setArray s n f).fixed = s.fixed := by
  rfl

@[simp] theorem mergeTaken_fixed (s : State) (m : Merge) (side : Side) (index : Nat) (vals : List W32) :
    (State.mergeTaken s m side index vals).fixed = s.fixed := by
  unfold State.mergeTaken
  dsimp only
  (repeat' (first | rfl | (simp; done) | split))

@[simp] theorem takeTile_fixed (s : State) (n : Nat) (q : Taker × List W32) :
    (State.takeTile s n q).fixed = s.fixed := by
  unfold State.takeTile
  split <;> simp

@[simp] theorem serveQueue_fixed (s : State) (n : Nat) :
    (State.serveQueue s n).fixed = s.fixed := by
  simp [State.serveQueue]

@[simp] theorem drainSet_fixed (s : State) (n : Nat) (i : BitVec 1) :
    (State.drainSet s n i).fixed = s.fixed := by
  unfold State.drainSet
  dsimp only
  (repeat' (first | rfl | (simp; done) | split))

@[simp] theorem feedTile_fixed (s : State) (n : Nat) (t : AccSet) :
    (State.feedTile s n t).fixed = s.fixed := by
  simp [State.feedTile]

@[simp] theorem arrayFeed_fixed (s : State) (n job : Nat) :
    (State.arrayFeed s n job).fixed = s.fixed := by
  unfold State.arrayFeed
  split <;> simp

@[simp] theorem passTiles_fixed (s : State) (r c : Nat) :
    (State.passTiles s r c).fixed = s.fixed := by
  simp [State.passTiles]

@[simp] theorem mergeTile_fixed (s : State) (m : Merge) (c : CatEntry) (side : Side) (cols : List (List W16)) (quant : List (Int × List Int × Nat)) (uv : Nat × Nat) (index : Nat) :
    (State.mergeTile s m c side cols quant uv index).fixed = s.fixed := by
  simp [State.mergeTile]

@[simp] theorem mergeSide_fixed (s : State) (m : Merge) (c : CatEntry) (side : Side) :
    (State.mergeSide s m c side).fixed = s.fixed := by
  simp [State.mergeSide]

@[simp] theorem mergeFactor_fixed (s : State) (tensor block : Nat) (c : CatEntry) (side : Side) :
    (State.mergeFactor s tensor block c side).fixed = s.fixed := by
  unfold State.mergeFactor
  split <;> simp

@[simp] theorem factorMerge_fixed (s : State) (tensor block : Nat) :
    (State.factorMerge s tensor block).fixed = s.fixed := by
  unfold State.factorMerge
  dsimp only
  (repeat' (first | rfl | (simp; done) | split))

@[simp] theorem queueMerges_fixed (s : State) (step : StepNo) :
    (State.queueMerges s step).fixed = s.fixed := by
  rfl

@[simp] theorem queueRefreshes_fixed (s : State) :
    (State.queueRefreshes s).fixed = s.fixed := by
  rfl

@[simp] theorem poolPut_fixed (s : State) (slot : Nat) (vals : List W16) :
    (State.poolPut s slot vals).fixed = s.fixed := by
  rfl

@[simp] theorem poolFree_fixed (s : State) (slot : Nat) :
    (State.poolFree s slot).fixed = s.fixed := by
  rfl

@[simp] theorem setRoot_fixed (s : State) (tensor block : Nat) (e : RootEntry) :
    (State.setRoot s tensor block e).fixed = s.fixed := by
  simp [State.setRoot]

@[simp] theorem refStale_fixed (s : State) (m : Markhor) (iters : Nat) (r : W32) (nonFin : Bool) :
    (State.refStale s m iters r nonFin).fixed = s.fixed := by
  simp [State.refStale]

@[simp] theorem refreshStart_fixed (s : State) :
    (State.refreshStart s).fixed = s.fixed := by
  unfold State.refreshStart
  (repeat' (first | (simp; done) | split))

@[simp] theorem newtonTiles_fixed (s : State) (p4 : Bool) (b : Nat) :
    (State.newtonTiles s p4 b).fixed = s.fixed := by
  simp [State.newtonTiles]

@[simp] theorem markhorIter_fixed (s : State) :
    (State.markhorIter s).fixed = s.fixed := by
  unfold State.markhorIter
  (repeat' (first | (simp; done) | split))

@[simp] theorem setHold_fixed (s : State) (hold : Bool) :
    (State.setHold s hold).fixed = s.fixed := by
  rfl

@[simp] theorem wrJkCfg_fixed (s : State) (port : Mgmt) (v : W32) :
    (State.wrJkCfg s port v).fixed = s.fixed := by
  unfold State.wrJkCfg
  try dsimp only
  (repeat' (first | rfl | (simp; done) | (simp (disch := (intros; repeat' (first | (simp; done) | split))); done) | split))

@[simp] theorem rootLate_fixed (s : State) :
    (State.rootLate s).fixed = s.fixed := by
  unfold State.rootLate
  try dsimp only
  (repeat' (first | rfl | (simp; done) | split))

@[simp] theorem installOne_fixed (s : State) (f : Finished) :
    (State.installOne s f).fixed = s.fixed := by
  unfold State.installOne
  (repeat' (first | (simp; done) | split))

@[simp] theorem installRoots_fixed (s : State) :
    (State.installRoots s).fixed = s.fixed := by
  simp [State.installRoots]

@[simp] theorem clearRoots_fixed (s : State) :
    (State.clearRoots s).fixed = s.fixed := by
  simp [State.clearRoots]

@[simp] theorem markhorQuiesce_fixed (s : State) :
    (State.markhorQuiesce s).fixed = s.fixed := by
  unfold State.markhorQuiesce
  (repeat' (first | (simp; done) | split))

@[simp] theorem precondTiles_fixed (s : State) (tensor block b : Nat) :
    (State.precondTiles s tensor block b).fixed = s.fixed := by
  simp [State.precondTiles]

end Sys2Proof.Machine
end

