-- ==== Sys2Proof/Laws/FixedUpdate.lean ====
section
/-! SUPPORT. What the operations of Machine/Update.lean leave alone: one lemma each. -/

namespace Sys2Proof.Machine

@[simp] theorem setInv_fixed (s : State) (tile : Nat) (f : Inv → Inv) :
    (State.setInv s tile f).fixed = s.fixed := by
  rfl

@[simp] theorem showJob_fixed (s : State) (tile kind tensor : Nat) :
    (State.showJob s tile kind tensor).fixed = s.fixed := by
  rfl

@[simp] theorem leaveInv_fixed (s : State) (tile : Nat) :
    (State.leaveInv s tile).fixed = s.fixed := by
  unfold State.leaveInv
  try dsimp only
  (repeat' (first | rfl | (simp; done) | split))

@[simp] theorem consume_fixed (s : State) (i : Nat) :
    (State.consume s i).fixed = s.fixed := by
  rfl

@[simp] theorem endSection_fixed (s : State) (tensor block : Nat) :
    (State.endSection s tensor block).fixed = s.fixed := by
  rfl

@[simp] theorem progFault_fixed (s : State) (x : TileCtx) (cause addr : Nat) :
    (State.progFault s x cause addr).fixed = s.fixed := by
  simp [State.progFault]

@[simp] theorem setV_fixed (s : State) (tile n : Nat) (l : List W32) :
    (State.setV s tile n l).fixed = s.fixed := by
  rfl

@[simp] theorem setA_fixed (s : State) (tile n : Nat) (l : List CState) :
    (State.setA s tile n l).fixed = s.fixed := by
  rfl

@[simp] theorem issue_fixed (s : State) (tile : Nat) (w : W32) (op : Nat) (body : State → TileCtx → Word7 → State × Bool)
    (h : ∀ s x i, (body s x i).1.fixed = s.fixed) : (State.issue s tile w op body).fixed = s.fixed := by
  unfold State.issue
  (repeat' (first | rfl | (simp [h]; done) | split))

@[simp] theorem lanes_fixed (s : State) (tile : Nat) (w : W32) (op : Nat) (uses : Bool × Bool × Bool) (f : W32 → W32 → W32 → W32) :
    (State.lanes s tile w op uses f).fixed = s.fixed := by
  simp [State.lanes]

@[simp] theorem accumulate_fixed (s : State) (tile : Nat) (w : W32) (op : Nat) (f : W32 → W32) :
    (State.accumulate s tile w op f).fixed = s.fixed := by
  simp [State.accumulate]

@[simp] theorem foldReg_fixed (s : State) (tile : Nat) (w : W32) :
    (State.foldReg s tile w).fixed = s.fixed := by
  simp [State.foldReg]

@[simp] theorem giveArea_fixed (s : State) (tile : Nat) (b : Nat × Nat) :
    (State.giveArea s tile b).fixed = s.fixed := by
  unfold State.giveArea
  dsimp only
  (repeat' (first | rfl | (simp; done) | split))

@[simp] theorem loadStream_fixed (s : State) (tile : Nat) (w : W32) :
    (State.loadStream s tile w).fixed = s.fixed := by
  simp [State.loadStream]

@[simp] theorem storeBytes_fixed (s : State) (x : TileCtx) (stream : Nat) (host : Bool) (addr0 : Nat) (b : List Byte) :
    (State.storeBytes s x stream host addr0 b).fixed = s.fixed := by
  simp [State.storeBytes]

@[simp] theorem storeJb8_fixed (s : State) (x : TileCtx) (stream base : Nat) (p : Purpose) (conv : List W32 → List (Option W16) → List Byte × W16 × Bool) (vals : List W32) :
    (State.storeJb8 s x stream base p conv vals).fixed = s.fixed := by
  simp [State.storeJb8]

@[simp] theorem giveAreas_fixed (s : State) (x : TileCtx) (vals : List W32) :
    (State.giveAreas s x vals).fixed = s.fixed := by
  simp [State.giveAreas]

@[simp] theorem storeGb_fixed (s : State) (x : TileCtx) (vals : List W32) :
    (State.storeGb s x vals).fixed = s.fixed := by
  simp [State.storeGb]

@[simp] theorem storeWc_fixed (s : State) (x : TileCtx) (vals : List W32) :
    (State.storeWc s x vals).fixed = s.fixed := by
  simp [State.storeWc]

@[simp] theorem storeWn_fixed (s : State) (x : TileCtx) (vals : List W32) :
    (State.storeWn s x vals).fixed = s.fixed := by
  simp [State.storeWn]

@[simp] theorem storeStream_fixed (s : State) (tile : Nat) (w : W32) :
    (State.storeStream s tile w).fixed = s.fixed := by
  unfold State.storeStream
  try dsimp only
  (repeat' (first | rfl | (simp; done) | (simp (disch := (intros; repeat' (first | (simp; done) | split))); done) | split))

@[simp] theorem loadX_fixed (s : State) (tile : Nat) (w : W32) :
    (State.loadX s tile w).fixed = s.fixed := by
  simp [State.loadX]

@[simp] theorem storeX_fixed (s : State) (tile : Nat) (w : W32) :
    (State.storeX s tile w).fixed = s.fixed := by
  simp [State.storeX]

@[simp] theorem chunkPass_fixed (s : State) (tile : Nat) :
    (State.chunkPass s tile).fixed = s.fixed := by
  unfold State.chunkPass
  try dsimp only
  (repeat' (first | rfl | (simp; done) | split))

@[simp] theorem blockSection_fixed (s : State) (tile : Nat) :
    (State.blockSection s tile).fixed = s.fixed := by
  unfold State.blockSection
  try dsimp only
  (repeat' (first | rfl | (simp; done) | split))

@[simp] theorem prePass_fixed (s : State) (tile : Nat) :
    (State.prePass s tile).fixed = s.fixed := by
  unfold State.prePass
  dsimp only
  (repeat' (first | rfl | (simp; done) | split))

@[simp] theorem putNorm_fixed (s : State) (n : NormSlot) :
    (State.putNorm s n).fixed = s.fixed := by
  rfl

@[simp] theorem endInv_fixed (s : State) (tile : Nat) (inv : Inv) (crcs : List RunCrc) :
    (State.endInv s tile inv crcs).fixed = s.fixed := by
  simp [State.endInv]

@[simp] theorem passComplete_fixed (s : State) (tile : Nat) :
    (State.passComplete s tile).fixed = s.fixed := by
  unfold State.passComplete
  try dsimp only
  (repeat' (first | rfl | (simp; done) | split))

@[simp] theorem chunkConsumed_fixed (s : State) (i : Nat) :
    (State.chunkConsumed s i).fixed = s.fixed := by
  simp [State.chunkConsumed]

end Sys2Proof.Machine
end

