-- ==== Sys2Proof/Laws/FixedCommit.lean ====
section
/-! SUPPORT. What the operations of Machine/Commit.lean leave alone: one lemma each. -/

namespace Sys2Proof.Machine

@[simp] theorem latchCoefs_fixed (s : State) :
    (State.latchCoefs s).fixed = s.fixed := by
  rfl

@[simp] theorem pushScan_fixed (s : State) (x : WcScan) :
    (State.pushScan s x).fixed = s.fixed := by
  simp [State.pushScan]

@[simp] theorem pushScans_fixed (s : State) :
    (State.pushScans s).fixed = s.fixed := by
  simp [State.pushScans]

@[simp] theorem rewriteWc_fixed (s : State) (tensor : Nat) (c : CatEntry) :
    (State.rewriteWc s tensor c).fixed = s.fixed := by
  unfold State.rewriteWc
  try dsimp only
  (repeat' (first | rfl | (simp; done) | (simp (disch := (intros; repeat' (first | (simp; done) | split))); done) | split))

@[simp] theorem rewriteWcs_fixed (s : State) :
    (State.rewriteWcs s).fixed = s.fixed := by
  simp [State.rewriteWcs]

@[simp] theorem changeTiles_fixed (s : State) (retire admitTile : BitVec 48) :
    (State.changeTiles s retire admitTile).fixed = s.fixed := by
  rfl

@[simp] theorem activate_fixed (s : State) (code : Nat) :
    (State.activate s code).fixed = s.fixed := by
  rfl

@[simp] theorem dropEntries_fixed (s : State) :
    (State.dropEntries s).fixed = s.fixed := by
  rfl

@[simp] theorem beginIntake_fixed (s : State) :
    (State.beginIntake s).fixed = s.fixed := by
  rfl

@[simp] theorem sendVerdict_fixed (s : State) (veto : Bool) :
    (State.sendVerdict s veto).fixed = s.fixed := by
  unfold State.sendVerdict
  try dsimp only
  (repeat' (first | rfl | (simp; done) | split))

@[simp] theorem formVerdict_fixed (s : State) :
    (State.formVerdict s).fixed = s.fixed := by
  simp [State.formVerdict]

@[simp] theorem verdictEntry_fixed (s : State) :
    (State.verdictEntry s).fixed = s.fixed := by
  simp [State.verdictEntry]

@[simp] theorem verdictTimeout_fixed (s : State) :
    (State.verdictTimeout s).fixed = s.fixed := by
  simp [State.verdictTimeout]

@[simp] theorem verdictLost_fixed (s : State) :
    (State.verdictLost s).fixed = s.fixed := by
  simp [State.verdictLost]

@[simp] theorem passCopy_fixed (s : State) (p : Nat) (h : CopyHdr) (data : List Byte) (crc : W64) :
    (State.passCopy s p h data crc).fixed = s.fixed := by
  simp [State.passCopy]

@[simp] theorem sendCopy_fixed (s : State) (p : Nat) (h : CopyHdr) (data : List Byte) :
    (State.sendCopy s p h data).fixed = s.fixed := by
  simp [State.sendCopy]

@[simp] theorem takePieces_fixed (s : State) :
    (State.takePieces s).fixed = s.fixed := by
  simp [State.takePieces]

@[simp] theorem startCopy_fixed (s : State) (step : StepNo) :
    (State.startCopy s step).fixed = s.fixed := by
  rfl

@[simp] theorem copyProgress_fixed (s : State) :
    (State.copyProgress s).fixed = s.fixed := by
  unfold State.copyProgress
  (repeat' (first | (simp; done) | split))

@[simp] theorem copyComplete_fixed (s : State) :
    (State.copyComplete s).fixed = s.fixed := by
  simp [State.copyComplete]

@[simp] theorem copyCut_fixed (s : State) :
    (State.copyCut s).fixed = s.fixed := by
  unfold State.copyCut
  (repeat' (first | (simp; done) | split))

@[simp] theorem holdCopy_fixed (s : State) (c : HeldCopy) :
    (State.holdCopy s c).fixed = s.fixed := by
  rfl

@[simp] theorem headerIn_fixed (s : State) (h : CopyHdr) :
    (State.headerIn s h).fixed = s.fixed := by
  simp [State.headerIn]

@[simp] theorem trailerIn_fixed (s : State) (src : W16) (data : List Byte) (crc : W64) :
    (State.trailerIn s src data crc).fixed = s.fixed := by
  unfold State.trailerIn
  (repeat' (first | (simp; done) | split))

@[simp] theorem emptyPorts_fixed (s : State) :
    (State.emptyPorts s).fixed = s.fixed := by
  simp [State.emptyPorts]

@[simp] theorem dropWaiting_fixed (s : State) :
    (State.dropWaiting s).fixed = s.fixed := by
  simp [State.dropWaiting]

@[simp] theorem resetSeq_fixed (s : State) :
    (State.resetSeq s).fixed = s.fixed := by
  simp [State.resetSeq]

@[simp] theorem maskRestart_fixed (s : State) :
    (State.maskRestart s).fixed = s.fixed := by
  rfl

@[simp] theorem densRestart_fixed (s : State) :
    (State.densRestart s).fixed = s.fixed := by
  rfl

@[simp] theorem loadUnbanked_fixed (s : State) :
    (State.loadUnbanked s).fixed = s.fixed := by
  simp [State.loadUnbanked]

@[simp] theorem endSlips_fixed (s : State) :
    (State.endSlips s).fixed = s.fixed := by
  unfold State.endSlips
  (repeat' (first | (simp; done) | split))

@[simp] theorem cmdEnds_fixed (s : State) (code result : Nat) :
    (State.cmdEnds s code result).fixed = s.fixed := by
  simp [State.cmdEnds]

@[simp] theorem swapDrive_fixed (s : State) :
    (State.swapDrive s).fixed = s.fixed := by
  simp [State.swapDrive]

@[simp] theorem dropRx_fixed (s : State) (keep : RxChunk → Bool) :
    (State.dropRx s keep).fixed = s.fixed := by
  simp [State.dropRx]

@[simp] theorem nextAttempt_fixed (s : State) (intake : Bool) :
    (State.nextAttempt s intake).fixed = s.fixed := by
  simp [State.nextAttempt]

@[simp] theorem startReplica_fixed (s : State) (step : StepNo) :
    (State.startReplica s step).fixed = s.fixed := by
  simp [State.startReplica]

@[simp] theorem twinDigests_fixed (s : State) :
    (State.twinDigests s).fixed = s.fixed := by
  simp [State.twinDigests]

end Sys2Proof.Machine
end

