-- ==== Sys2Proof/Laws/FixedPower.lean ====
section
/-! SUPPORT. What the operations of Machine/Power.lean leave alone: one lemma each. -/

namespace Sys2Proof.Machine

@[simp] theorem setTarget_fixed (s : State) (g : Nat) (up : Bool) :
    (State.setTarget s g up).fixed = s.fixed := by
  simp [State.setTarget]

@[simp] theorem targetsDown_fixed (s : State) :
    (State.targetsDown s).fixed = s.fixed := by
  rfl

@[simp] theorem rampStep_fixed (s : State) :
    (State.rampStep s).fixed = s.fixed := by
  rfl

@[simp] theorem rampHold_fixed (s : State) (unit : Nat) :
    (State.rampHold s unit).fixed = s.fixed := by
  rfl

@[simp] theorem ballastStep_fixed (s : State) (units : List Nat) :
    (State.ballastStep s units).fixed = s.fixed := by
  simp [State.ballastStep]

@[simp] theorem wrJpSlew_fixed (s : State) (port : Mgmt) (v : W32) :
    (State.wrJpSlew s port v).fixed = s.fixed := by
  unfold State.wrJpSlew
  try dsimp only
  (repeat' (first | rfl | (simp; done) | (simp (disch := (intros; repeat' (first | (simp; done) | split))); done) | split))

@[simp] theorem inrushEnds_fixed (s : State) :
    (State.inrushEnds s).fixed = s.fixed := by
  simp [State.inrushEnds]

end Sys2Proof.Machine
end

