-- ==== Sys2Proof/Laws/Memory.lean ====
section
/-!
SUPPORT. The laws of memory and of the small lists: what a write does to a read, and that every memory operation keeps the
canonical form.
-/

namespace Sys2Proof.Machine

/-! ### Bytes -/

@[simp] theorem memGet_nil (a : Nat) : memGet [] a = 0 := rfl

theorem memGet_of_memAbove {m : Mem} {a k : Nat} (h : memAbove k m = true) (hk : a ≤ k) : memGet m a = 0 := by
  cases m with
  | nil => rfl
  | cons p rest =>
    simp only [memAbove, decide_eq_true_eq] at h
    obtain ⟨q, v⟩ := p
    simp only at h
    simp [memGet, show a < q by omega]

/-- A byte written reads back. -/
@[simp] theorem memGet_memSet_same (m : Mem) (a : Nat) (b : Byte) (h : Memory.wf m = true) : memGet (memSet m a b) a = b := by
  induction m with
  | nil => unfold memSet; split <;> simp_all [memGet]
  | cons p rest ih =>
    obtain ⟨k, v⟩ := p
    simp only [Memory.wf, Bool.and_eq_true] at h
    unfold memSet
    split
    · split
      · simp_all [memGet]
      · simp [memGet]
    · split
      · subst_vars
        split
        · rename_i hb
          rw [hb]
          exact memGet_of_memAbove h.1.2 (Nat.le_refl _)
        · simp [memGet]
      · simp [memGet, *]

/-- A byte written leaves every other byte. -/
@[simp] theorem memGet_memSet_ne (m : Mem) (a c : Nat) (b : Byte) (h : Memory.wf m = true) (hc : c ≠ a) :
    memGet (memSet m a b) c = memGet m c := by
  induction m with
  | nil => unfold memSet; split <;> simp_all [memGet]
  | cons p rest ih =>
    obtain ⟨k, v⟩ := p
    simp only [Memory.wf, Bool.and_eq_true] at h
    unfold memSet
    split
    · split
      · rfl
      · rename_i hk hb
        by_cases h1 : c < a
        · simp [memGet, h1, show c < k by omega]
        · simp [memGet, h1, hc]
    · split
      · rename_i h2
        subst h2
        split
        · by_cases h1 : c < a
          · simp only [memGet, h1, if_true]
            exact memGet_of_memAbove h.1.2 (by omega)
          · simp [memGet, h1, hc]
        · simp [memGet, hc]
      · rename_i h1 h2
        simp only [memGet]
        split
        · rfl
        · split
          · rfl
          · exact ih h.2

theorem memAbove_mono {m : Mem} {j k : Nat} (h : memAbove k m = true) (hj : j ≤ k) : memAbove j m = true := by
  cases m with
  | nil => rfl
  | cons p rest => simp only [memAbove, decide_eq_true_eq] at h ⊢; omega

theorem memAbove_memSet {m : Mem} {a k : Nat} {b : Byte} (hw : Memory.wf m = true) (h : memAbove k m = true)
    (hk : k < a) : memAbove k (memSet m a b) = true := by
  cases m with
  | nil => unfold memSet; split <;> simp_all [memAbove]
  | cons p rest =>
    obtain ⟨q, v⟩ := p
    simp only [Memory.wf, Bool.and_eq_true] at hw
    simp only [memAbove, decide_eq_true_eq] at h
    unfold memSet
    split
    · split <;> simp_all [memAbove]
    · split
      · split
        · exact memAbove_mono hw.1.2 (by omega)
        · simp_all [memAbove]
      · simp_all [memAbove]

/-- Writing a byte keeps the canonical form. -/
@[simp] theorem wf_memSet (m : Mem) (a : Nat) (b : Byte) (h : Memory.wf m = true) : Memory.wf (memSet m a b) = true := by
  induction m with
  | nil => unfold memSet; split <;> simp_all [Memory.wf, memAbove]
  | cons p rest ih =>
    obtain ⟨k, v⟩ := p
    have h' := h
    simp only [Memory.wf, Bool.and_eq_true] at h
    unfold memSet
    split
    · split
      · exact h'
      · rename_i h1 h2
        simp only [Memory.wf, memAbove, Bool.and_eq_true, decide_eq_true_eq]
        exact ⟨⟨by simpa using h2, h1⟩, h.1, h.2⟩
    · split
      · rename_i h2
        subst h2
        split
        · exact h.2
        · rename_i h3
          simp only [Memory.wf, Bool.and_eq_true]
          exact ⟨⟨by simpa using h3, h.1.2⟩, h.2⟩
      · simp only [Memory.wf, Bool.and_eq_true]
        exact ⟨⟨h.1.1, memAbove_memSet h.2 h.1.2 (by omega)⟩, ih h.2⟩

/-- Writing a run of bytes keeps the canonical form. -/
@[simp] theorem wf_memWrite (l : List Byte) (m : Mem) (a : Nat) (h : Memory.wf m = true) :
    Memory.wf (memWrite m a l) = true := by
  induction l generalizing m a with
  | nil => exact h
  | cons b l ih => exact ih _ _ (wf_memSet _ _ _ h)

theorem memAbove_filter {m : Mem} {k : Nat} (f : Nat × Byte → Bool) (hw : Memory.wf m = true) (h : memAbove k m = true) :
    memAbove k (m.filter f) = true := by
  induction m generalizing k with
  | nil => rfl
  | cons p rest ih =>
    simp only [Memory.wf, Bool.and_eq_true] at hw
    simp only [memAbove, decide_eq_true_eq] at h
    simp only [List.filter]
    split
    · simpa [memAbove] using h
    · exact ih hw.2 (memAbove_mono hw.1.2 (by omega))

/-- Clearing a run of bytes keeps the canonical form. -/
@[simp] theorem wf_memClear (m : Mem) (a n : Nat) (h : Memory.wf m = true) : Memory.wf (memClear m a n) = true := by
  unfold memClear
  induction m with
  | nil => rfl
  | cons p rest ih =>
    simp only [Memory.wf, Bool.and_eq_true] at h
    simp only [List.filter]
    split
    · simp only [Memory.wf, Bool.and_eq_true]
      exact ⟨⟨h.1.1, memAbove_filter _ h.2 h.1.2⟩, ih h.2⟩
    · exact ih h.2

/-- A run written leaves every byte outside it. -/
@[simp] theorem memGet_memWrite_out (l : List Byte) (m : Mem) (a c : Nat) (h : Memory.wf m = true)
    (hc : c < a ∨ a + l.length ≤ c) : memGet (memWrite m a l) c = memGet m c := by
  induction l generalizing m a with
  | nil => rfl
  | cons b l ih =>
    simp only [List.length_cons] at hc
    rw [memWrite, ih _ _ (wf_memSet _ _ _ h) (by omega), memGet_memSet_ne _ _ _ _ h (by omega)]

/-- A run written reads back. -/
@[simp] theorem memRead_memWrite (l : List Byte) (m : Mem) (a : Nat) (h : Memory.wf m = true) :
    memRead (memWrite m a l) a l.length = l := by
  induction l generalizing m a with
  | nil => rfl
  | cons b l ih =>
    simp only [List.length_cons, memRead, memWrite]
    rw [ih _ _ (wf_memSet _ _ _ h), memGet_memWrite_out _ _ _ _ (wf_memSet _ _ _ h) (by omega),
      memGet_memSet_same _ _ _ h]

@[simp] theorem memRead_length (m : Mem) (a n : Nat) : (memRead m a n).length = n := by
  induction n generalizing a with
  | zero => rfl
  | succ n ih => simp [memRead, ih]

/-- A run written leaves every run that does not meet it. -/
theorem memRead_memWrite_out (l : List Byte) (m : Mem) (a c n : Nat) (h : Memory.wf m = true)
    (hc : c + n ≤ a ∨ a + l.length ≤ c) : memRead (memWrite m a l) c n = memRead m c n := by
  induction n generalizing c with
  | zero => rfl
  | succ n ih => simp only [memRead]; rw [memGet_memWrite_out _ _ _ _ h (by omega), ih _ (by omega)]

/-! ### Lists and tables -/

@[simp] theorem modifyNth_length {α : Type} (f : α → α) (n : Nat) (l : List α) : (modifyNth f n l).length = l.length := by
  induction l generalizing n with
  | nil => cases n <;> rfl
  | cons a l ih => cases n with
    | zero => rfl
    | succ n => simp [modifyNth, ih]

theorem modifyNth_getElem? {α : Type} (f : α → α) (n k : Nat) (l : List α) :
    (modifyNth f n l)[k]? = if k = n then l[k]?.map f else l[k]? := by
  induction l generalizing n k with
  | nil => cases n <;> simp [modifyNth]
  | cons a l ih =>
    cases n <;> cases k <;> simp [modifyNth, ih]

@[simp] theorem modifyNth_getD_same {α : Type} (f : α → α) (n : Nat) (l : List α) (d : α) (h : n < l.length) :
    (modifyNth f n l).getD n d = f (l.getD n d) := by
  simp only [List.getD_eq_getElem?_getD, modifyNth_getElem?]
  simp [h]

@[simp] theorem modifyNth_getD_ne {α : Type} (f : α → α) (n k : Nat) (l : List α) (d : α) (h : k ≠ n) :
    (modifyNth f n l).getD k d = l.getD k d := by
  simp [List.getD_eq_getElem?_getD, modifyNth_getElem?, h]

@[simp] theorem tabGet_tabSet_same {α : Type} (k : Nat) (v : α) (l : List (Nat × α)) : tabGet k (tabSet k v l) = some v := by
  induction l with
  | nil => simp [tabSet, tabGet]
  | cons p rest ih =>
    obtain ⟨q, w⟩ := p
    unfold tabSet
    split
    · simp [tabGet]
    · split
      · simp [tabGet]
      · rename_i h1 h2
        simpa [tabGet, List.find?_cons, show (q == k) = false by simpa using fun e => h2 e.symm] using ih

@[simp] theorem tabGet_tabSet_ne {α : Type} (j k : Nat) (v : α) (l : List (Nat × α)) (h : j ≠ k) :
    tabGet j (tabSet k v l) = tabGet j l := by
  have hk : (k == j) = false := by simpa using fun e => h e.symm
  induction l with
  | nil => simp [tabSet, tabGet, hk]
  | cons p rest ih =>
    obtain ⟨q, w⟩ := p
    unfold tabSet
    split
    · simp [tabGet, hk]
    · split
      · rename_i h2
        subst h2
        simp [tabGet, hk]
      · simp only [tabGet, List.find?_cons] at ih ⊢
        split
        · rfl
        · exact ih

end Sys2Proof.Machine
end

