-- ==== Sys2Proof/Laws/State.lean ====
section
/-!
SUPPORT. The laws of State's named updates: for each, the fields it leaves and the field it writes, so that no later proof unfolds
a record update; and what running a command does.
-/

namespace Sys2Proof.Machine

/-- What `emit` leaves and what it writes. -/
@[simp] theorem emit_fields (s : State) (o : Output) :
    (s.emit o).pending = s.pending ∧ (s.emit o).jg = s.jg ∧ (s.emit o).jq = s.jq ∧ (s.emit o).ji = s.ji ∧
    (s.emit o).jx = s.jx ∧ (s.emit o).jz = s.jz ∧ (s.emit o).jk = s.jk ∧ (s.emit o).ju = s.ju ∧
    (s.emit o).jl = s.jl ∧ (s.emit o).je = s.je ∧ (s.emit o).jm = s.jm ∧ (s.emit o).jc = s.jc ∧
    (s.emit o).js = s.js ∧ (s.emit o).jp = s.jp ∧ (s.emit o).jt = s.jt ∧ (s.emit o).tiles = s.tiles ∧
    (s.emit o).nvm = s.nvm ∧ (s.emit o).fuses = s.fuses ∧ (s.emit o).imageHdr = s.imageHdr ∧
    (s.emit o).image = s.image ∧ (s.emit o).live = s.live ∧ (s.emit o).hostMem = s.hostMem ∧
    (s.emit o).stateMem = s.stateMem ∧ (s.emit o).scratch = s.scratch ∧ (s.emit o).staging = s.staging ∧
    (s.emit o).ethBuf = s.ethBuf ∧ (s.emit o).pins = s.pins ∧ (s.emit o).freeCnt = s.freeCnt ∧
    (s.emit o).out = s.out ++ [o] := by
  repeat' apply And.intro
  all_goals rfl

/-- What `setPort` leaves and what it writes. -/
@[simp] theorem setPort_fields (s : State) (p : Nat) (f : PeerPort → PeerPort) :
    (s.setPort p f).pending = s.pending ∧ (s.setPort p f).jg = s.jg ∧ (s.setPort p f).jq = s.jq ∧
    (s.setPort p f).ji = s.ji ∧ (s.setPort p f).jx = s.jx ∧ (s.setPort p f).jz = s.jz ∧ (s.setPort p f).jk = s.jk ∧
    (s.setPort p f).ju = s.ju ∧ (s.setPort p f).je = s.je ∧ (s.setPort p f).jm = s.jm ∧ (s.setPort p f).jc = s.jc ∧
    (s.setPort p f).js = s.js ∧ (s.setPort p f).jp = s.jp ∧ (s.setPort p f).jt = s.jt ∧
    (s.setPort p f).tiles = s.tiles ∧ (s.setPort p f).nvm = s.nvm ∧ (s.setPort p f).fuses = s.fuses ∧
    (s.setPort p f).imageHdr = s.imageHdr ∧ (s.setPort p f).image = s.image ∧ (s.setPort p f).live = s.live ∧
    (s.setPort p f).hostMem = s.hostMem ∧ (s.setPort p f).stateMem = s.stateMem ∧
    (s.setPort p f).scratch = s.scratch ∧ (s.setPort p f).staging = s.staging ∧ (s.setPort p f).ethBuf = s.ethBuf ∧
    (s.setPort p f).pins = s.pins ∧ (s.setPort p f).out = s.out ∧ (s.setPort p f).freeCnt = s.freeCnt ∧
    (s.setPort p f).jl.ports = modifyNth f p s.jl.ports := by
  repeat' apply And.intro
  all_goals rfl

/-- What `setTile` leaves and what it writes. -/
@[simp] theorem setTile_fields (s : State) (t : Nat) (f : TileSt → TileSt) :
    (s.setTile t f).pending = s.pending ∧ (s.setTile t f).jg = s.jg ∧ (s.setTile t f).jq = s.jq ∧
    (s.setTile t f).ji = s.ji ∧ (s.setTile t f).jx = s.jx ∧ (s.setTile t f).jz = s.jz ∧ (s.setTile t f).jk = s.jk ∧
    (s.setTile t f).ju = s.ju ∧ (s.setTile t f).jl = s.jl ∧ (s.setTile t f).je = s.je ∧ (s.setTile t f).jm = s.jm ∧
    (s.setTile t f).jc = s.jc ∧ (s.setTile t f).js = s.js ∧ (s.setTile t f).jp = s.jp ∧ (s.setTile t f).jt = s.jt ∧
    (s.setTile t f).nvm = s.nvm ∧ (s.setTile t f).fuses = s.fuses ∧ (s.setTile t f).imageHdr = s.imageHdr ∧
    (s.setTile t f).image = s.image ∧ (s.setTile t f).live = s.live ∧ (s.setTile t f).hostMem = s.hostMem ∧
    (s.setTile t f).stateMem = s.stateMem ∧ (s.setTile t f).scratch = s.scratch ∧
    (s.setTile t f).staging = s.staging ∧ (s.setTile t f).ethBuf = s.ethBuf ∧ (s.setTile t f).pins = s.pins ∧
    (s.setTile t f).out = s.out ∧ (s.setTile t f).freeCnt = s.freeCnt ∧
    (s.setTile t f).tiles = modifyNth f t s.tiles := by
  repeat' apply And.intro
  all_goals rfl

/-- What `setWin` leaves and what it writes. -/
@[simp] theorem setWin_fields (s : State) (t : Nat) (f : TileWin → TileWin) :
    (s.setWin t f).pending = s.pending ∧ (s.setWin t f).jg = s.jg ∧ (s.setWin t f).jq = s.jq ∧
    (s.setWin t f).ji = s.ji ∧ (s.setWin t f).jx = s.jx ∧ (s.setWin t f).jz = s.jz ∧ (s.setWin t f).jk = s.jk ∧
    (s.setWin t f).ju = s.ju ∧ (s.setWin t f).jl = s.jl ∧ (s.setWin t f).je = s.je ∧ (s.setWin t f).jm = s.jm ∧
    (s.setWin t f).jc = s.jc ∧ (s.setWin t f).js = s.js ∧ (s.setWin t f).jp = s.jp ∧ (s.setWin t f).tiles = s.tiles ∧
    (s.setWin t f).nvm = s.nvm ∧ (s.setWin t f).fuses = s.fuses ∧ (s.setWin t f).imageHdr = s.imageHdr ∧
    (s.setWin t f).image = s.image ∧ (s.setWin t f).live = s.live ∧ (s.setWin t f).hostMem = s.hostMem ∧
    (s.setWin t f).stateMem = s.stateMem ∧ (s.setWin t f).scratch = s.scratch ∧ (s.setWin t f).staging = s.staging ∧
    (s.setWin t f).ethBuf = s.ethBuf ∧ (s.setWin t f).pins = s.pins ∧ (s.setWin t f).out = s.out ∧
    (s.setWin t f).freeCnt = s.freeCnt ∧ (s.setWin t f).jt.wins = modifyNth f t s.jt.wins := by
  repeat' apply And.intro
  all_goals rfl

/-- What `setChan` leaves and what it writes. -/
@[simp] theorem setChan_fields (s : State) (n : Nat) (f : Chan → Chan) :
    (s.setChan n f).pending = s.pending ∧ (s.setChan n f).jg = s.jg ∧ (s.setChan n f).jq = s.jq ∧
    (s.setChan n f).ji = s.ji ∧ (s.setChan n f).jx = s.jx ∧ (s.setChan n f).jz = s.jz ∧ (s.setChan n f).jk = s.jk ∧
    (s.setChan n f).ju = s.ju ∧ (s.setChan n f).jl = s.jl ∧ (s.setChan n f).je = s.je ∧ (s.setChan n f).jc = s.jc ∧
    (s.setChan n f).js = s.js ∧ (s.setChan n f).jp = s.jp ∧ (s.setChan n f).jt = s.jt ∧
    (s.setChan n f).tiles = s.tiles ∧ (s.setChan n f).nvm = s.nvm ∧ (s.setChan n f).fuses = s.fuses ∧
    (s.setChan n f).imageHdr = s.imageHdr ∧ (s.setChan n f).image = s.image ∧ (s.setChan n f).live = s.live ∧
    (s.setChan n f).hostMem = s.hostMem ∧ (s.setChan n f).stateMem = s.stateMem ∧
    (s.setChan n f).scratch = s.scratch ∧ (s.setChan n f).staging = s.staging ∧ (s.setChan n f).ethBuf = s.ethBuf ∧
    (s.setChan n f).pins = s.pins ∧ (s.setChan n f).out = s.out ∧ (s.setChan n f).freeCnt = s.freeCnt ∧
    (s.setChan n f).jm.chans = modifyNth f n s.jm.chans ∧ (s.setChan n f).jm.done = s.jm.done ∧
    (s.setChan n f).jm.irqEn = s.jm.irqEn := by
  repeat' apply And.intro
  all_goals rfl

/-- What `setEth` leaves and what it writes. -/
@[simp] theorem setEth_fields (s : State) (n : Nat) (f : EthPort → EthPort) :
    (s.setEth n f).pending = s.pending ∧ (s.setEth n f).jg = s.jg ∧ (s.setEth n f).jq = s.jq ∧
    (s.setEth n f).ji = s.ji ∧ (s.setEth n f).jx = s.jx ∧ (s.setEth n f).jz = s.jz ∧ (s.setEth n f).jk = s.jk ∧
    (s.setEth n f).ju = s.ju ∧ (s.setEth n f).jl = s.jl ∧ (s.setEth n f).jm = s.jm ∧ (s.setEth n f).jc = s.jc ∧
    (s.setEth n f).js = s.js ∧ (s.setEth n f).jp = s.jp ∧ (s.setEth n f).jt = s.jt ∧ (s.setEth n f).tiles = s.tiles ∧
    (s.setEth n f).nvm = s.nvm ∧ (s.setEth n f).fuses = s.fuses ∧ (s.setEth n f).imageHdr = s.imageHdr ∧
    (s.setEth n f).image = s.image ∧ (s.setEth n f).live = s.live ∧ (s.setEth n f).hostMem = s.hostMem ∧
    (s.setEth n f).stateMem = s.stateMem ∧ (s.setEth n f).scratch = s.scratch ∧ (s.setEth n f).staging = s.staging ∧
    (s.setEth n f).ethBuf = s.ethBuf ∧ (s.setEth n f).pins = s.pins ∧ (s.setEth n f).out = s.out ∧
    (s.setEth n f).freeCnt = s.freeCnt ∧ (s.setEth n f).je.ports = modifyNth f n s.je.ports ∧
    (s.setEth n f).je.queues = s.je.queues := by
  repeat' apply And.intro
  all_goals rfl

/-- What `setQueue` leaves and what it writes. -/
@[simp] theorem setQueue_fields (s : State) (q : Queue) :
    (s.setQueue q).pending = s.pending ∧ (s.setQueue q).jg = s.jg ∧ (s.setQueue q).jq = s.jq ∧
    (s.setQueue q).ji = s.ji ∧ (s.setQueue q).jx = s.jx ∧ (s.setQueue q).jz = s.jz ∧ (s.setQueue q).jk = s.jk ∧
    (s.setQueue q).ju = s.ju ∧ (s.setQueue q).jl = s.jl ∧ (s.setQueue q).jm = s.jm ∧ (s.setQueue q).jc = s.jc ∧
    (s.setQueue q).js = s.js ∧ (s.setQueue q).jp = s.jp ∧ (s.setQueue q).jt = s.jt ∧ (s.setQueue q).tiles = s.tiles ∧
    (s.setQueue q).nvm = s.nvm ∧ (s.setQueue q).fuses = s.fuses ∧ (s.setQueue q).imageHdr = s.imageHdr ∧
    (s.setQueue q).image = s.image ∧ (s.setQueue q).live = s.live ∧ (s.setQueue q).hostMem = s.hostMem ∧
    (s.setQueue q).stateMem = s.stateMem ∧ (s.setQueue q).scratch = s.scratch ∧ (s.setQueue q).staging = s.staging ∧
    (s.setQueue q).ethBuf = s.ethBuf ∧ (s.setQueue q).pins = s.pins ∧ (s.setQueue q).out = s.out ∧
    (s.setQueue q).freeCnt = s.freeCnt ∧ (s.setQueue q).je.ports = s.je.ports := by
  repeat' apply And.intro
  all_goals rfl

/-- What `event` leaves and what it writes. -/
@[simp] theorem event_fields (s : State) (source code sev : Nat) (items : List EvItem) :
    (s.event source code sev items).pending = s.pending ∧ (s.event source code sev items).jg = s.jg ∧
    (s.event source code sev items).jq = s.jq ∧ (s.event source code sev items).ji = s.ji ∧
    (s.event source code sev items).jx = s.jx ∧ (s.event source code sev items).jz = s.jz ∧
    (s.event source code sev items).jk = s.jk ∧ (s.event source code sev items).ju = s.ju ∧
    (s.event source code sev items).jl = s.jl ∧ (s.event source code sev items).je = s.je ∧
    (s.event source code sev items).jm = s.jm ∧ (s.event source code sev items).jc = s.jc ∧
    (s.event source code sev items).jp = s.jp ∧ (s.event source code sev items).jt = s.jt ∧
    (s.event source code sev items).tiles = s.tiles ∧ (s.event source code sev items).nvm = s.nvm ∧
    (s.event source code sev items).fuses = s.fuses ∧ (s.event source code sev items).imageHdr = s.imageHdr ∧
    (s.event source code sev items).image = s.image ∧ (s.event source code sev items).live = s.live ∧
    (s.event source code sev items).hostMem = s.hostMem ∧ (s.event source code sev items).stateMem = s.stateMem ∧
    (s.event source code sev items).scratch = s.scratch ∧ (s.event source code sev items).staging = s.staging ∧
    (s.event source code sev items).ethBuf = s.ethBuf ∧ (s.event source code sev items).pins = s.pins ∧
    (s.event source code sev items).out = s.out ∧ (s.event source code sev items).freeCnt = s.freeCnt ∧
    (s.event source code sev items).js.ring.evq = s.js.ring.evq ++ [⟨source, code, sev, items⟩] ∧
    (s.event source code sev items).js.lock = s.js.lock ∧ (s.event source code sev items).js.cmd = s.js.cmd ∧
    (s.event source code sev items).js.boot = s.js.boot ∧
    (s.event source code sev items).js.ring.ring = s.js.ring.ring := by
  repeat' apply And.intro
  all_goals rfl

/-- What `finish` leaves and what it writes. -/
@[simp] theorem finish_fields (s : State) :
    s.finish.pending = s.pending ∧ s.finish.jg = s.jg ∧ s.finish.jq = s.jq ∧ s.finish.ji = s.ji ∧
    s.finish.jx = s.jx ∧ s.finish.jz = s.jz ∧ s.finish.jk = s.jk ∧ s.finish.ju = s.ju ∧ s.finish.jl = s.jl ∧
    s.finish.je = s.je ∧ s.finish.jm = s.jm ∧ s.finish.jc = s.jc ∧ s.finish.jp = s.jp ∧ s.finish.jt = s.jt ∧
    s.finish.tiles = s.tiles ∧ s.finish.nvm = s.nvm ∧ s.finish.fuses = s.fuses ∧ s.finish.imageHdr = s.imageHdr ∧
    s.finish.image = s.image ∧ s.finish.live = s.live ∧ s.finish.hostMem = s.hostMem ∧
    s.finish.stateMem = s.stateMem ∧ s.finish.scratch = s.scratch ∧ s.finish.staging = s.staging ∧
    s.finish.ethBuf = s.ethBuf ∧ s.finish.pins = s.pins ∧ s.finish.out = s.out ∧ s.finish.freeCnt = s.freeCnt ∧
    s.finish.js.lock = s.js.lock ∧ s.finish.js.cmd = s.js.cmd ∧ s.finish.js.boot = s.js.boot := by
  repeat' apply And.intro
  all_goals rfl

/-- What `begin_` leaves and what it writes. -/
@[simp] theorem begin_fields (s : State) :
    s.begin_.pending = s.pending ∧ s.begin_.jg = s.jg ∧ s.begin_.jq = s.jq ∧ s.begin_.ji = s.ji ∧
    s.begin_.jx = s.jx ∧ s.begin_.jz = s.jz ∧ s.begin_.jk = s.jk ∧ s.begin_.ju = s.ju ∧ s.begin_.jl = s.jl ∧
    s.begin_.je = s.je ∧ s.begin_.jm = s.jm ∧ s.begin_.jc = s.jc ∧ s.begin_.js = s.js ∧ s.begin_.jp = s.jp ∧
    s.begin_.jt = s.jt ∧ s.begin_.tiles = s.tiles ∧ s.begin_.nvm = s.nvm ∧ s.begin_.fuses = s.fuses ∧
    s.begin_.imageHdr = s.imageHdr ∧ s.begin_.image = s.image ∧ s.begin_.live = s.live ∧
    s.begin_.hostMem = s.hostMem ∧ s.begin_.stateMem = s.stateMem ∧ s.begin_.scratch = s.scratch ∧
    s.begin_.staging = s.staging ∧ s.begin_.ethBuf = s.ethBuf ∧ s.begin_.pins = s.pins ∧
    s.begin_.freeCnt = s.freeCnt ∧ s.begin_.out = [] := by
  repeat' apply And.intro
  all_goals rfl

/-- What `setVerdict` leaves and what it writes. -/
@[simp] theorem setVerdict_fields (s : State) (f : VerdictBlock → VerdictBlock) :
    (s.setVerdict f).pending = s.pending ∧ (s.setVerdict f).jg = s.jg ∧ (s.setVerdict f).ji = s.ji ∧
    (s.setVerdict f).jx = s.jx ∧ (s.setVerdict f).jz = s.jz ∧ (s.setVerdict f).jk = s.jk ∧
    (s.setVerdict f).ju = s.ju ∧ (s.setVerdict f).jl = s.jl ∧ (s.setVerdict f).je = s.je ∧
    (s.setVerdict f).jm = s.jm ∧ (s.setVerdict f).jc = s.jc ∧ (s.setVerdict f).js = s.js ∧
    (s.setVerdict f).jp = s.jp ∧ (s.setVerdict f).jt = s.jt ∧ (s.setVerdict f).tiles = s.tiles ∧
    (s.setVerdict f).nvm = s.nvm ∧ (s.setVerdict f).fuses = s.fuses ∧ (s.setVerdict f).imageHdr = s.imageHdr ∧
    (s.setVerdict f).image = s.image ∧ (s.setVerdict f).live = s.live ∧ (s.setVerdict f).hostMem = s.hostMem ∧
    (s.setVerdict f).stateMem = s.stateMem ∧ (s.setVerdict f).scratch = s.scratch ∧
    (s.setVerdict f).staging = s.staging ∧ (s.setVerdict f).ethBuf = s.ethBuf ∧ (s.setVerdict f).pins = s.pins ∧
    (s.setVerdict f).out = s.out ∧ (s.setVerdict f).freeCnt = s.freeCnt ∧
    (s.setVerdict f).jq.verdict = f s.jq.verdict ∧ (s.setVerdict f).jq.step = s.jq.step ∧
    (s.setVerdict f).jq.slot = s.jq.slot ∧ (s.setVerdict f).jq.gen = s.jq.gen := by
  repeat' apply And.intro
  all_goals rfl

/-- What `fault` leaves and what it writes. -/
@[simp] theorem fault_fields (s : State) :
    s.fault.pending = s.pending ∧ s.fault.jg = s.jg ∧ s.fault.ji = s.ji ∧ s.fault.jx = s.jx ∧ s.fault.jz = s.jz ∧
    s.fault.jk = s.jk ∧ s.fault.ju = s.ju ∧ s.fault.jl = s.jl ∧ s.fault.je = s.je ∧ s.fault.jm = s.jm ∧
    s.fault.jc = s.jc ∧ s.fault.js = s.js ∧ s.fault.jp = s.jp ∧ s.fault.jt = s.jt ∧ s.fault.tiles = s.tiles ∧
    s.fault.nvm = s.nvm ∧ s.fault.fuses = s.fuses ∧ s.fault.imageHdr = s.imageHdr ∧ s.fault.image = s.image ∧
    s.fault.live = s.live ∧ s.fault.hostMem = s.hostMem ∧ s.fault.stateMem = s.stateMem ∧
    s.fault.scratch = s.scratch ∧ s.fault.staging = s.staging ∧ s.fault.ethBuf = s.ethBuf ∧ s.fault.pins = s.pins ∧
    s.fault.out = s.out ∧ s.fault.freeCnt = s.freeCnt ∧ s.fault.jq.verdict.fault = true ∧
    s.fault.jq.verdict.incomplete = s.jq.verdict.incomplete ∧ s.fault.jq.verdict.veto = s.jq.verdict.veto ∧
    s.fault.jq.step = s.jq.step := by
  repeat' apply And.intro
  all_goals rfl

/-- What `incomplete` leaves and what it writes. -/
@[simp] theorem incomplete_fields (s : State) :
    s.incomplete.pending = s.pending ∧ s.incomplete.jg = s.jg ∧ s.incomplete.ji = s.ji ∧ s.incomplete.jx = s.jx ∧
    s.incomplete.jz = s.jz ∧ s.incomplete.jk = s.jk ∧ s.incomplete.ju = s.ju ∧ s.incomplete.jl = s.jl ∧
    s.incomplete.je = s.je ∧ s.incomplete.jm = s.jm ∧ s.incomplete.jc = s.jc ∧ s.incomplete.js = s.js ∧
    s.incomplete.jp = s.jp ∧ s.incomplete.jt = s.jt ∧ s.incomplete.tiles = s.tiles ∧ s.incomplete.nvm = s.nvm ∧
    s.incomplete.fuses = s.fuses ∧ s.incomplete.imageHdr = s.imageHdr ∧ s.incomplete.image = s.image ∧
    s.incomplete.live = s.live ∧ s.incomplete.hostMem = s.hostMem ∧ s.incomplete.stateMem = s.stateMem ∧
    s.incomplete.scratch = s.scratch ∧ s.incomplete.staging = s.staging ∧ s.incomplete.ethBuf = s.ethBuf ∧
    s.incomplete.pins = s.pins ∧ s.incomplete.out = s.out ∧ s.incomplete.freeCnt = s.freeCnt ∧
    s.incomplete.jq.verdict.incomplete = true ∧ s.incomplete.jq.verdict.fault = s.jq.verdict.fault ∧
    s.incomplete.jq.verdict.veto = s.jq.verdict.veto ∧ s.incomplete.jq.step = s.jq.step := by
  repeat' apply And.intro
  all_goals rfl

/-- What `nonFinite` leaves and what it writes. -/
@[simp] theorem nonFinite_fields (s : State) (u : NfUnit) :
    (s.nonFinite u).pending = s.pending ∧ (s.nonFinite u).jq = s.jq ∧ (s.nonFinite u).ji = s.ji ∧
    (s.nonFinite u).jx = s.jx ∧ (s.nonFinite u).jz = s.jz ∧ (s.nonFinite u).jk = s.jk ∧ (s.nonFinite u).ju = s.ju ∧
    (s.nonFinite u).jl = s.jl ∧ (s.nonFinite u).je = s.je ∧ (s.nonFinite u).jm = s.jm ∧ (s.nonFinite u).jc = s.jc ∧
    (s.nonFinite u).js = s.js ∧ (s.nonFinite u).jp = s.jp ∧ (s.nonFinite u).jt = s.jt ∧
    (s.nonFinite u).tiles = s.tiles ∧ (s.nonFinite u).nvm = s.nvm ∧ (s.nonFinite u).fuses = s.fuses ∧
    (s.nonFinite u).imageHdr = s.imageHdr ∧ (s.nonFinite u).image = s.image ∧ (s.nonFinite u).live = s.live ∧
    (s.nonFinite u).hostMem = s.hostMem ∧ (s.nonFinite u).stateMem = s.stateMem ∧
    (s.nonFinite u).scratch = s.scratch ∧ (s.nonFinite u).staging = s.staging ∧ (s.nonFinite u).ethBuf = s.ethBuf ∧
    (s.nonFinite u).pins = s.pins ∧ (s.nonFinite u).out = s.out ∧ (s.nonFinite u).freeCnt = s.freeCnt ∧
    (s.nonFinite u).jg.epoch = s.jg.epoch ∧ (s.nonFinite u).jg.member = s.jg.member ∧
    (s.nonFinite u).jg.twin = s.jg.twin ∧ (s.nonFinite u).jg.tiles = s.jg.tiles := by
  repeat' apply And.intro
  all_goals rfl

/-- What `clearNonFinite` leaves and what it writes. -/
@[simp] theorem clearNonFinite_fields (s : State) :
    s.clearNonFinite.pending = s.pending ∧ s.clearNonFinite.jq = s.jq ∧ s.clearNonFinite.jx = s.jx ∧
    s.clearNonFinite.jz = s.jz ∧ s.clearNonFinite.jk = s.jk ∧ s.clearNonFinite.ju = s.ju ∧
    s.clearNonFinite.jl = s.jl ∧ s.clearNonFinite.je = s.je ∧ s.clearNonFinite.jm = s.jm ∧
    s.clearNonFinite.jc = s.jc ∧ s.clearNonFinite.js = s.js ∧ s.clearNonFinite.jp = s.jp ∧
    s.clearNonFinite.jt = s.jt ∧ s.clearNonFinite.tiles = s.tiles ∧ s.clearNonFinite.nvm = s.nvm ∧
    s.clearNonFinite.fuses = s.fuses ∧ s.clearNonFinite.imageHdr = s.imageHdr ∧ s.clearNonFinite.image = s.image ∧
    s.clearNonFinite.live = s.live ∧ s.clearNonFinite.hostMem = s.hostMem ∧ s.clearNonFinite.stateMem = s.stateMem ∧
    s.clearNonFinite.scratch = s.scratch ∧ s.clearNonFinite.staging = s.staging ∧
    s.clearNonFinite.ethBuf = s.ethBuf ∧ s.clearNonFinite.pins = s.pins ∧ s.clearNonFinite.out = s.out ∧
    s.clearNonFinite.freeCnt = s.freeCnt ∧ s.clearNonFinite.jg.nf.now = 0 ∧ s.clearNonFinite.ji.nfValid = false ∧
    s.clearNonFinite.jg.epoch = s.jg.epoch ∧ s.clearNonFinite.jg.member = s.jg.member := by
  repeat' apply And.intro
  all_goals rfl

/-- What `setPhase` leaves. -/
@[simp] theorem setPhase_fields (s : State) (code : Nat) (on : Bool) :
    (s.setPhase code on).pending = s.pending ∧ (s.setPhase code on).jg = s.jg ∧ (s.setPhase code on).ji = s.ji ∧
    (s.setPhase code on).jx = s.jx ∧ (s.setPhase code on).jz = s.jz ∧ (s.setPhase code on).jk = s.jk ∧
    (s.setPhase code on).ju = s.ju ∧ (s.setPhase code on).jl = s.jl ∧ (s.setPhase code on).je = s.je ∧
    (s.setPhase code on).jm = s.jm ∧ (s.setPhase code on).jc = s.jc ∧ (s.setPhase code on).js = s.js ∧
    (s.setPhase code on).jp = s.jp ∧ (s.setPhase code on).jt = s.jt ∧ (s.setPhase code on).tiles = s.tiles ∧
    (s.setPhase code on).nvm = s.nvm ∧ (s.setPhase code on).fuses = s.fuses ∧
    (s.setPhase code on).imageHdr = s.imageHdr ∧ (s.setPhase code on).image = s.image ∧
    (s.setPhase code on).live = s.live ∧ (s.setPhase code on).hostMem = s.hostMem ∧
    (s.setPhase code on).stateMem = s.stateMem ∧ (s.setPhase code on).scratch = s.scratch ∧
    (s.setPhase code on).staging = s.staging ∧ (s.setPhase code on).ethBuf = s.ethBuf ∧
    (s.setPhase code on).pins = s.pins ∧ (s.setPhase code on).out = s.out ∧
    (s.setPhase code on).freeCnt = s.freeCnt := by
  repeat' apply And.intro
  all_goals rfl

/-- What `setTq` leaves. -/
@[simp] theorem setTq_fields (s : State) (n : Nat) (st : TqState) :
    (s.setTq n st).pending = s.pending ∧ (s.setTq n st).jg = s.jg ∧ (s.setTq n st).jq = s.jq ∧
    (s.setTq n st).jx = s.jx ∧ (s.setTq n st).jz = s.jz ∧ (s.setTq n st).jk = s.jk ∧ (s.setTq n st).ju = s.ju ∧
    (s.setTq n st).jl = s.jl ∧ (s.setTq n st).je = s.je ∧ (s.setTq n st).jm = s.jm ∧ (s.setTq n st).jc = s.jc ∧
    (s.setTq n st).js = s.js ∧ (s.setTq n st).jp = s.jp ∧ (s.setTq n st).jt = s.jt ∧ (s.setTq n st).tiles = s.tiles ∧
    (s.setTq n st).nvm = s.nvm ∧ (s.setTq n st).fuses = s.fuses ∧ (s.setTq n st).imageHdr = s.imageHdr ∧
    (s.setTq n st).image = s.image ∧ (s.setTq n st).live = s.live ∧ (s.setTq n st).hostMem = s.hostMem ∧
    (s.setTq n st).stateMem = s.stateMem ∧ (s.setTq n st).scratch = s.scratch ∧ (s.setTq n st).staging = s.staging ∧
    (s.setTq n st).ethBuf = s.ethBuf ∧ (s.setTq n st).pins = s.pins ∧ (s.setTq n st).out = s.out ∧
    (s.setTq n st).freeCnt = s.freeCnt := by
  repeat' apply And.intro
  all_goals rfl

/-- What `setRun` leaves. -/
@[simp] theorem setRun_fields (s : State) (r : GatherRun) :
    (s.setRun r).pending = s.pending ∧ (s.setRun r).jg = s.jg ∧ (s.setRun r).jq = s.jq ∧ (s.setRun r).ji = s.ji ∧
    (s.setRun r).jz = s.jz ∧ (s.setRun r).jk = s.jk ∧ (s.setRun r).ju = s.ju ∧ (s.setRun r).jl = s.jl ∧
    (s.setRun r).je = s.je ∧ (s.setRun r).jm = s.jm ∧ (s.setRun r).jc = s.jc ∧ (s.setRun r).js = s.js ∧
    (s.setRun r).jp = s.jp ∧ (s.setRun r).jt = s.jt ∧ (s.setRun r).tiles = s.tiles ∧ (s.setRun r).nvm = s.nvm ∧
    (s.setRun r).fuses = s.fuses ∧ (s.setRun r).imageHdr = s.imageHdr ∧ (s.setRun r).image = s.image ∧
    (s.setRun r).live = s.live ∧ (s.setRun r).hostMem = s.hostMem ∧ (s.setRun r).stateMem = s.stateMem ∧
    (s.setRun r).scratch = s.scratch ∧ (s.setRun r).staging = s.staging ∧ (s.setRun r).ethBuf = s.ethBuf ∧
    (s.setRun r).pins = s.pins ∧ (s.setRun r).out = s.out ∧ (s.setRun r).freeCnt = s.freeCnt := by
  repeat' apply And.intro
  all_goals rfl

/-- What `setXfer` leaves. -/
@[simp] theorem setXfer_fields (s : State) (r : XferRun) :
    (s.setXfer r).pending = s.pending ∧ (s.setXfer r).jg = s.jg ∧ (s.setXfer r).jq = s.jq ∧ (s.setXfer r).ji = s.ji ∧
    (s.setXfer r).jz = s.jz ∧ (s.setXfer r).jk = s.jk ∧ (s.setXfer r).ju = s.ju ∧ (s.setXfer r).jl = s.jl ∧
    (s.setXfer r).je = s.je ∧ (s.setXfer r).jm = s.jm ∧ (s.setXfer r).jc = s.jc ∧ (s.setXfer r).js = s.js ∧
    (s.setXfer r).jp = s.jp ∧ (s.setXfer r).jt = s.jt ∧ (s.setXfer r).tiles = s.tiles ∧ (s.setXfer r).nvm = s.nvm ∧
    (s.setXfer r).fuses = s.fuses ∧ (s.setXfer r).imageHdr = s.imageHdr ∧ (s.setXfer r).image = s.image ∧
    (s.setXfer r).live = s.live ∧ (s.setXfer r).hostMem = s.hostMem ∧ (s.setXfer r).stateMem = s.stateMem ∧
    (s.setXfer r).scratch = s.scratch ∧ (s.setXfer r).staging = s.staging ∧ (s.setXfer r).ethBuf = s.ethBuf ∧
    (s.setXfer r).pins = s.pins ∧ (s.setXfer r).out = s.out ∧ (s.setXfer r).freeCnt = s.freeCnt := by
  repeat' apply And.intro
  all_goals rfl

/-- What `setGzRun` leaves. -/
@[simp] theorem setGzRun_fields (s : State) (r : GzRun) :
    (s.setGzRun r).pending = s.pending ∧ (s.setGzRun r).jg = s.jg ∧ (s.setGzRun r).jq = s.jq ∧
    (s.setGzRun r).ji = s.ji ∧ (s.setGzRun r).jx = s.jx ∧ (s.setGzRun r).jk = s.jk ∧ (s.setGzRun r).ju = s.ju ∧
    (s.setGzRun r).jl = s.jl ∧ (s.setGzRun r).je = s.je ∧ (s.setGzRun r).jm = s.jm ∧ (s.setGzRun r).jc = s.jc ∧
    (s.setGzRun r).js = s.js ∧ (s.setGzRun r).jp = s.jp ∧ (s.setGzRun r).jt = s.jt ∧ (s.setGzRun r).tiles = s.tiles ∧
    (s.setGzRun r).nvm = s.nvm ∧ (s.setGzRun r).fuses = s.fuses ∧ (s.setGzRun r).imageHdr = s.imageHdr ∧
    (s.setGzRun r).image = s.image ∧ (s.setGzRun r).live = s.live ∧ (s.setGzRun r).hostMem = s.hostMem ∧
    (s.setGzRun r).stateMem = s.stateMem ∧ (s.setGzRun r).scratch = s.scratch ∧ (s.setGzRun r).staging = s.staging ∧
    (s.setGzRun r).ethBuf = s.ethBuf ∧ (s.setGzRun r).pins = s.pins ∧ (s.setGzRun r).out = s.out ∧
    (s.setGzRun r).freeCnt = s.freeCnt := by
  repeat' apply And.intro
  all_goals rfl

/-- What `setGzRed` leaves. -/
@[simp] theorem setGzRed_fields (s : State) (r : GzRed) :
    (s.setGzRed r).pending = s.pending ∧ (s.setGzRed r).jg = s.jg ∧ (s.setGzRed r).jq = s.jq ∧
    (s.setGzRed r).ji = s.ji ∧ (s.setGzRed r).jx = s.jx ∧ (s.setGzRed r).jk = s.jk ∧ (s.setGzRed r).ju = s.ju ∧
    (s.setGzRed r).jl = s.jl ∧ (s.setGzRed r).je = s.je ∧ (s.setGzRed r).jm = s.jm ∧ (s.setGzRed r).jc = s.jc ∧
    (s.setGzRed r).js = s.js ∧ (s.setGzRed r).jp = s.jp ∧ (s.setGzRed r).jt = s.jt ∧ (s.setGzRed r).tiles = s.tiles ∧
    (s.setGzRed r).nvm = s.nvm ∧ (s.setGzRed r).fuses = s.fuses ∧ (s.setGzRed r).imageHdr = s.imageHdr ∧
    (s.setGzRed r).image = s.image ∧ (s.setGzRed r).live = s.live ∧ (s.setGzRed r).hostMem = s.hostMem ∧
    (s.setGzRed r).stateMem = s.stateMem ∧ (s.setGzRed r).scratch = s.scratch ∧ (s.setGzRed r).staging = s.staging ∧
    (s.setGzRed r).ethBuf = s.ethBuf ∧ (s.setGzRed r).pins = s.pins ∧ (s.setGzRed r).out = s.out ∧
    (s.setGzRed r).freeCnt = s.freeCnt := by
  repeat' apply And.intro
  all_goals rfl

/-- What `setArray` leaves. -/
@[simp] theorem setArray_fields (s : State) (n : Nat) (f : ArrayUnit → ArrayUnit) :
    (s.setArray n f).pending = s.pending ∧ (s.setArray n f).jg = s.jg ∧ (s.setArray n f).jq = s.jq ∧
    (s.setArray n f).ji = s.ji ∧ (s.setArray n f).jx = s.jx ∧ (s.setArray n f).jz = s.jz ∧
    (s.setArray n f).ju = s.ju ∧ (s.setArray n f).jl = s.jl ∧ (s.setArray n f).je = s.je ∧
    (s.setArray n f).jm = s.jm ∧ (s.setArray n f).jc = s.jc ∧ (s.setArray n f).js = s.js ∧
    (s.setArray n f).jp = s.jp ∧ (s.setArray n f).jt = s.jt ∧ (s.setArray n f).tiles = s.tiles ∧
    (s.setArray n f).nvm = s.nvm ∧ (s.setArray n f).fuses = s.fuses ∧ (s.setArray n f).imageHdr = s.imageHdr ∧
    (s.setArray n f).image = s.image ∧ (s.setArray n f).live = s.live ∧ (s.setArray n f).hostMem = s.hostMem ∧
    (s.setArray n f).stateMem = s.stateMem ∧ (s.setArray n f).scratch = s.scratch ∧
    (s.setArray n f).staging = s.staging ∧ (s.setArray n f).ethBuf = s.ethBuf ∧ (s.setArray n f).pins = s.pins ∧
    (s.setArray n f).out = s.out ∧ (s.setArray n f).freeCnt = s.freeCnt := by
  repeat' apply And.intro
  all_goals rfl

/-- What `setInv` leaves. -/
@[simp] theorem setInv_fields (s : State) (tile : Nat) (f : Inv → Inv) :
    (s.setInv tile f).pending = s.pending ∧ (s.setInv tile f).jg = s.jg ∧ (s.setInv tile f).jq = s.jq ∧
    (s.setInv tile f).ji = s.ji ∧ (s.setInv tile f).jx = s.jx ∧ (s.setInv tile f).jz = s.jz ∧
    (s.setInv tile f).jk = s.jk ∧ (s.setInv tile f).ju = s.ju ∧ (s.setInv tile f).jl = s.jl ∧
    (s.setInv tile f).je = s.je ∧ (s.setInv tile f).jm = s.jm ∧ (s.setInv tile f).jc = s.jc ∧
    (s.setInv tile f).js = s.js ∧ (s.setInv tile f).jp = s.jp ∧ (s.setInv tile f).jt = s.jt ∧
    (s.setInv tile f).nvm = s.nvm ∧ (s.setInv tile f).fuses = s.fuses ∧ (s.setInv tile f).imageHdr = s.imageHdr ∧
    (s.setInv tile f).image = s.image ∧ (s.setInv tile f).live = s.live ∧ (s.setInv tile f).hostMem = s.hostMem ∧
    (s.setInv tile f).stateMem = s.stateMem ∧ (s.setInv tile f).scratch = s.scratch ∧
    (s.setInv tile f).staging = s.staging ∧ (s.setInv tile f).ethBuf = s.ethBuf ∧ (s.setInv tile f).pins = s.pins ∧
    (s.setInv tile f).out = s.out ∧ (s.setInv tile f).freeCnt = s.freeCnt := by
  repeat' apply And.intro
  all_goals rfl

/-- What `setV` leaves. -/
@[simp] theorem setV_fields (s : State) (tile n : Nat) (l : List W32) :
    (s.setV tile n l).pending = s.pending ∧ (s.setV tile n l).jg = s.jg ∧ (s.setV tile n l).jq = s.jq ∧
    (s.setV tile n l).ji = s.ji ∧ (s.setV tile n l).jx = s.jx ∧ (s.setV tile n l).jz = s.jz ∧
    (s.setV tile n l).jk = s.jk ∧ (s.setV tile n l).ju = s.ju ∧ (s.setV tile n l).jl = s.jl ∧
    (s.setV tile n l).je = s.je ∧ (s.setV tile n l).jm = s.jm ∧ (s.setV tile n l).jc = s.jc ∧
    (s.setV tile n l).js = s.js ∧ (s.setV tile n l).jp = s.jp ∧ (s.setV tile n l).jt = s.jt ∧
    (s.setV tile n l).nvm = s.nvm ∧ (s.setV tile n l).fuses = s.fuses ∧ (s.setV tile n l).imageHdr = s.imageHdr ∧
    (s.setV tile n l).image = s.image ∧ (s.setV tile n l).live = s.live ∧ (s.setV tile n l).hostMem = s.hostMem ∧
    (s.setV tile n l).stateMem = s.stateMem ∧ (s.setV tile n l).scratch = s.scratch ∧
    (s.setV tile n l).staging = s.staging ∧ (s.setV tile n l).ethBuf = s.ethBuf ∧ (s.setV tile n l).pins = s.pins ∧
    (s.setV tile n l).out = s.out ∧ (s.setV tile n l).freeCnt = s.freeCnt := by
  repeat' apply And.intro
  all_goals rfl

/-- What `setA` leaves. -/
@[simp] theorem setA_fields (s : State) (tile n : Nat) (l : List CState) :
    (s.setA tile n l).pending = s.pending ∧ (s.setA tile n l).jg = s.jg ∧ (s.setA tile n l).jq = s.jq ∧
    (s.setA tile n l).ji = s.ji ∧ (s.setA tile n l).jx = s.jx ∧ (s.setA tile n l).jz = s.jz ∧
    (s.setA tile n l).jk = s.jk ∧ (s.setA tile n l).ju = s.ju ∧ (s.setA tile n l).jl = s.jl ∧
    (s.setA tile n l).je = s.je ∧ (s.setA tile n l).jm = s.jm ∧ (s.setA tile n l).jc = s.jc ∧
    (s.setA tile n l).js = s.js ∧ (s.setA tile n l).jp = s.jp ∧ (s.setA tile n l).jt = s.jt ∧
    (s.setA tile n l).nvm = s.nvm ∧ (s.setA tile n l).fuses = s.fuses ∧ (s.setA tile n l).imageHdr = s.imageHdr ∧
    (s.setA tile n l).image = s.image ∧ (s.setA tile n l).live = s.live ∧ (s.setA tile n l).hostMem = s.hostMem ∧
    (s.setA tile n l).stateMem = s.stateMem ∧ (s.setA tile n l).scratch = s.scratch ∧
    (s.setA tile n l).staging = s.staging ∧ (s.setA tile n l).ethBuf = s.ethBuf ∧ (s.setA tile n l).pins = s.pins ∧
    (s.setA tile n l).out = s.out ∧ (s.setA tile n l).freeCnt = s.freeCnt := by
  repeat' apply And.intro
  all_goals rfl

/-- What `setTwin` leaves and what it writes. -/
@[simp] theorem setTwin_fields (s : State) (f : TwinBlock → TwinBlock) :
    (s.setTwin f).pending = s.pending ∧ (s.setTwin f).jq = s.jq ∧ (s.setTwin f).ji = s.ji ∧ (s.setTwin f).jx = s.jx ∧
    (s.setTwin f).jz = s.jz ∧ (s.setTwin f).jk = s.jk ∧ (s.setTwin f).ju = s.ju ∧ (s.setTwin f).jl = s.jl ∧
    (s.setTwin f).je = s.je ∧ (s.setTwin f).jm = s.jm ∧ (s.setTwin f).jc = s.jc ∧ (s.setTwin f).js = s.js ∧
    (s.setTwin f).jp = s.jp ∧ (s.setTwin f).jt = s.jt ∧ (s.setTwin f).tiles = s.tiles ∧ (s.setTwin f).nvm = s.nvm ∧
    (s.setTwin f).fuses = s.fuses ∧ (s.setTwin f).imageHdr = s.imageHdr ∧ (s.setTwin f).image = s.image ∧
    (s.setTwin f).live = s.live ∧ (s.setTwin f).hostMem = s.hostMem ∧ (s.setTwin f).stateMem = s.stateMem ∧
    (s.setTwin f).scratch = s.scratch ∧ (s.setTwin f).staging = s.staging ∧ (s.setTwin f).ethBuf = s.ethBuf ∧
    (s.setTwin f).pins = s.pins ∧ (s.setTwin f).out = s.out ∧ (s.setTwin f).freeCnt = s.freeCnt ∧
    (s.setTwin f).jg.twin = f s.jg.twin ∧ (s.setTwin f).jg.epoch = s.jg.epoch ∧
    (s.setTwin f).jg.member = s.jg.member ∧ (s.setTwin f).jg.nf = s.jg.nf := by
  repeat' apply And.intro
  all_goals rfl

/-- What `setLock` leaves and what it writes. -/
@[simp] theorem setLock_fields (s : State) (f : LockBlock → LockBlock) :
    (s.setLock f).pending = s.pending ∧ (s.setLock f).jg = s.jg ∧ (s.setLock f).jq = s.jq ∧ (s.setLock f).ji = s.ji ∧
    (s.setLock f).jx = s.jx ∧ (s.setLock f).jz = s.jz ∧ (s.setLock f).jk = s.jk ∧ (s.setLock f).ju = s.ju ∧
    (s.setLock f).jl = s.jl ∧ (s.setLock f).je = s.je ∧ (s.setLock f).jm = s.jm ∧ (s.setLock f).jc = s.jc ∧
    (s.setLock f).jp = s.jp ∧ (s.setLock f).jt = s.jt ∧ (s.setLock f).tiles = s.tiles ∧ (s.setLock f).nvm = s.nvm ∧
    (s.setLock f).fuses = s.fuses ∧ (s.setLock f).imageHdr = s.imageHdr ∧ (s.setLock f).image = s.image ∧
    (s.setLock f).live = s.live ∧ (s.setLock f).hostMem = s.hostMem ∧ (s.setLock f).stateMem = s.stateMem ∧
    (s.setLock f).scratch = s.scratch ∧ (s.setLock f).staging = s.staging ∧ (s.setLock f).ethBuf = s.ethBuf ∧
    (s.setLock f).pins = s.pins ∧ (s.setLock f).out = s.out ∧ (s.setLock f).freeCnt = s.freeCnt ∧
    (s.setLock f).js.lock = f s.js.lock ∧ (s.setLock f).js.cmd = s.js.cmd ∧ (s.setLock f).js.ring = s.js.ring := by
  repeat' apply And.intro
  all_goals rfl

/-- What `setShift` leaves. -/
@[simp] theorem setShift_fields (s : State) (id : Nat) (sh : Shift) :
    (s.setShift id sh).pending = s.pending ∧ (s.setShift id sh).jg = s.jg ∧ (s.setShift id sh).ji = s.ji ∧
    (s.setShift id sh).jx = s.jx ∧ (s.setShift id sh).jz = s.jz ∧ (s.setShift id sh).jk = s.jk ∧
    (s.setShift id sh).ju = s.ju ∧ (s.setShift id sh).jl = s.jl ∧ (s.setShift id sh).je = s.je ∧
    (s.setShift id sh).jm = s.jm ∧ (s.setShift id sh).jc = s.jc ∧ (s.setShift id sh).js = s.js ∧
    (s.setShift id sh).jp = s.jp ∧ (s.setShift id sh).jt = s.jt ∧ (s.setShift id sh).tiles = s.tiles ∧
    (s.setShift id sh).nvm = s.nvm ∧ (s.setShift id sh).fuses = s.fuses ∧ (s.setShift id sh).imageHdr = s.imageHdr ∧
    (s.setShift id sh).image = s.image ∧ (s.setShift id sh).live = s.live ∧ (s.setShift id sh).hostMem = s.hostMem ∧
    (s.setShift id sh).stateMem = s.stateMem ∧ (s.setShift id sh).scratch = s.scratch ∧
    (s.setShift id sh).staging = s.staging ∧ (s.setShift id sh).ethBuf = s.ethBuf ∧
    (s.setShift id sh).pins = s.pins ∧ (s.setShift id sh).out = s.out ∧ (s.setShift id sh).freeCnt = s.freeCnt := by
  repeat' apply And.intro
  all_goals rfl

/-! ### Running a command -/

/-- What `run` answers: always a next state, whose queue is the one it was given. -/
theorem run_next (f : State → State) (s : State) :
    run f s = .next { (f s.begin_).finish with pending := s.pending } := rfl

/-- A meaning whose operand names a unit answers as `run` does where the unit exists. -/
theorem runUnit_next (ok : Bool) (f : State → State) (s : State) (h : ok = true) : runUnit ok f s = run f s := by
  subst h; rfl

/-- A meaning whose operand names a unit stops where the unit does not exist. -/
theorem runUnit_fault (ok : Bool) (f : State → State) (s : State) (h : ok = false) :
    runUnit ok f s = .fault .noSuchUnit := by
  subst h; rfl

/-- Everything a meaning that names a unit can do. -/
theorem runUnit_cases (ok : Bool) (f : State → State) (s : State) :
    (ok = true ∧ runUnit ok f s = run f s) ∨ (ok = false ∧ runUnit ok f s = .fault .noSuchUnit) := by
  cases ok
  · exact .inr ⟨rfl, rfl⟩
  · exact .inl ⟨rfl, rfl⟩

/-- An empty queue: the block idles. -/
theorem step_idle (s : State) (h : s.pending = []) : step s = .next s := by
  unfold step; rw [h]

/-- A command in front: the step is that command on the rest of the queue. -/
theorem step_front (s : State) (c : Instr) (rest : List Instr) (h : s.pending = c :: rest) :
    step s = exec c { s with pending := rest } := by
  unfold step; rw [h]

end Sys2Proof.Machine
end

