-- ==== Sys2Proof/Tests/Slice0.lean ====
section
/-!
SUPPORT. Tests on small states: one ill-formed command for each check of WellFormed, and for each statement of Certificates/Slice0 a
state and operands that meet its hypotheses, clause by clause, with what the command then leaves. The expected values come from the
rules that the statements cite.
-/

namespace Sys2Proof.Tests

set_option Elab.async false

open Sys2Proof.Machine

/-! ### Small states -/

/-- What a command leaves. -/
def after (c : Instr) (s : State) (f : State → Bool) : Bool :=
  match exec c s with
  | .next t => f t
  | _ => false

/-- What a command leaves, where its meaning runs an operation. -/
theorem after_run {c : Instr} {s : State} {P : State → Bool} {f : State → State} (hc : exec c s = run f s)
    (h : P { (f s.begin_).finish with pending := s.pending } = true) : after c s P = true := by
  simp only [after, hc, run, h]

/-- Does a command stop? -/
def stops (c : Instr) (s : State) : Bool :=
  match exec c s with
  | .fault _ => true
  | _ => false

def code (t : State) : Nat := (t.newest.map fun e => e.code.toNat).getD 0

/-- Two members on X; this one is member 0 and owns the chunk. Domain 0 is this member alone, domain 1 both. -/
def dom (num xLen : Nat) (axes : BitVec 3) : DomEntry :=
  { num := num, key := 7, axes := axes, bidir := false, lateDrop := false, xOrg := 0, xLen := xLen, yOrg := 0, yLen := 1,
    zOrg := 0, zLen := 1, ownDl := 4, upDl := 4, reservedBad := false }

def peer0 : PeerDecl :=
  { port := 0, member := 1, coord := ⟨1, 0, 0⟩, farPort := 1, pair := false, degraded := true,
    rxBufs := [4, 4, 4] }

def decl : Decl :=
  { Decl.empty with
    torus := ⟨2, 1, 1⟩, members := [⟨0, ⟨0, 0, 0⟩⟩, ⟨1, ⟨1, 0, 0⟩⟩], peers := [peer0], bank1Off := 0x10000, hbank1Off := 0x20000,
    startStep := 5, boundaryPeriod := 4, satBase := 0x8000, normBase := 0x8100, scaleBase := 0x8200, rootBase := 0x8300, factBase := 0x20000,
    sampleBase := 0x60000, workAreas := [[0x80000, 0xA0000]],
    tempLo := -100, tempHi := 100, voltLo := 1, voltHi := 10, spare := [⟨9, ⟨1, 0, 0⟩, [], 0⟩] }

def cat : CatEntry :=
  { rows := 2, cols := 64, chLen := 64, cls := 1, wire := 0, resFmt := 0, resShift := 0, dcurve := 0, escB := 4, clipOct := 0,
    sideCap := 0, srQ := false, srRes := false, rowGroups := 4, satThresh := 0, resBase := 0x4000, padCols := 0,
    maskBase := 0x5000, chunkMap := 0, chunkCount := 1, blockQ := 0, p4 := false, factMode := 0, subs := 0, sampN := 0,
    dampCurve := 0, fcoef := 0, refreshLog2 := 0, phase0 := 0, aShift := 0, gShift := 0, prog := 0, kset := 0, srM := false,
    srW := false, reservedBad := false }

def chunk0 : ChunkEntry :=
  { group0 := 0, rangeGroups := 4, domain := 0, owner := 0, tile := 0, layer := 0, offset := 0, reservedBad := false }

/-- One pass of one word. -/
def prog0 : ProgEntry :=
  { prog := 0, isBlock := false, usesS := true, passes := [⟨0, 1, 0, 0, false, false, false⟩], reservedBad := false }

def live0 : LiveTables :=
  { LiveTables.empty with
    schedule := [⟨1, 0, 0x2C, 0, 0, 0, 0, 0, 0, 0, false⟩], phases := [⟨0, 8⟩], density := [(0, [⟨0, 0⟩])], progs := [prog0],
    code := [0], portAdmit := 0xFF, tileAdmit := 0xFFFFFFFFFFFF }

def img : RunImage :=
  { RunImage.empty with
    decl := decl, live := live0, catalogue := [cat], chunks := [chunk0], domains := [dom 0 1 1, dom 1 2 1],
    stateDir := [⟨0x100, 0x1000, 0x2000, 0x300, false, 0, 0, 0⟩] }

/-- Boot is over, the schedule runs, nothing is active. -/
def up : State :=
  { State.reset with
    image := some img, live := ⟨live0, live0, none⟩,
    js := { JsBlock.reset with boot := { BootBlock.reset with jporLow := false, state := 5, verified := true } },
    jq := { JqBlock.reset with quiesced := false, running := true }, jp := { JpBlock.reset with inrushDone := true } }

def qj (s : State) (f : JqBlock → JqBlock) : State := { s with jq := f s.jq }
def gj (s : State) (f : JgBlock → JgBlock) : State := { s with jg := f s.jg }
def ij (s : State) (f : JiBlock → JiBlock) : State := { s with ji := f s.ji }
def xj (s : State) (f : JxBlock → JxBlock) : State := { s with jx := f s.jx }
def zj (s : State) (f : JzBlock → JzBlock) : State := { s with jz := f s.jz }
def kj (s : State) (f : JkBlock → JkBlock) : State := { s with jk := f s.jk }
def uj (s : State) (f : JuBlock → JuBlock) : State := { s with ju := f s.ju }
def ej (s : State) (f : JeBlock → JeBlock) : State := { s with je := f s.je }
def mj (s : State) (f : JmBlock → JmBlock) : State := { s with jm := f s.jm }
def cj (s : State) (f : JcBlock → JcBlock) : State := { s with jc := f s.jc }
def sj (s : State) (f : JsBlock → JsBlock) : State := { s with js := f s.js }
def vj (s : State) (f : VerdictBlock → VerdictBlock) : State := qj s fun j => { j with verdict := f j.verdict }
def bj (s : State) (f : BootBlock → BootBlock) : State := sj s fun j => { j with boot := f j.boot }


/-! ### The block as a machine -/

theorem test_step_takes_the_front :
    (match step { up with pending := [.adaptDone 1, .chunkConsumed 3] } with
         | .next t => t.pending == [.chunkConsumed 3]
         | _ => false) = true := by
  decide +kernel

theorem test_empty_queue_idles :
    (match step up with
         | .next t => decide (t = up)
         | _ => false) = true := by
  decide +kernel

theorem test_no_such_tile :
    (stops (.nop 40 0) up && stops (.add 40 0) up && stops (.fold 41 0) up && stops (.chunkPassStart 40) up && stops (.kvBlockEncode 40) up &&
      stops (.tileWatchdog 48) up && !stops (.nop 39 0) up && !stops (.tileWatchdog 47) up) = true := by
  decide +kernel

/-! ### WellFormed refuses what no surroundings can present -/

theorem test_ill_formed_tiles :
    (!(Instr.nop 40 0).wf && !(Instr.chunkPassStart 40).wf && !(Instr.blockSectionStart 40).wf && !(Instr.prePassStart 40).wf &&
      !(Instr.passComplete 40).wf && !(Instr.fold 40 0).wf && !(Instr.kvBlockEncode 40).wf && !(Instr.tileWatchdog 48).wf &&
      !(Instr.tileFailure ⟨48, 0⟩).wf && (Instr.nop 39 0).wf && (Instr.tileWatchdog 47).wf) = true := by
  decide +kernel

theorem test_ill_formed_sequencer :
    (!(Instr.gateTimeout 8 0).wf && (Instr.gateTimeout 7 0).wf && !(Instr.slotCompletionCheck [⟨0, some 1, some 2⟩]).wf &&
      (Instr.slotCompletionCheck [⟨0, some 1, none⟩]).wf) = true := by
  decide +kernel

theorem test_ill_formed_payloads :
    (!(Instr.tileReceive 0 none [] true).wf && !(Instr.tileReceive 0 none [1] true).wf && !(Instr.heldDescriptorRelease 0 [1] true).wf &&
      !(Instr.gazelleCell 0 0 [] 0).wf && !(Instr.chunkReceive 0 3 0 []).wf && (Instr.chunkReceive 0 1 0 []).wf &&
      !(Instr.dataFrame 0 ⟨0, List.replicate 8168 0, 0, false⟩).wf &&
      (Instr.dataFrame 0 ⟨0, List.replicate 8 0, 0, false⟩).wf && !(Instr.codewordDecode 0 false [] []).wf &&
      (Instr.codewordDecode 0 false (List.replicate 4 (List.replicate 340 false)) (List.replicate 4 (List.replicate 340 false))).wf) = true := by
  decide +kernel

theorem test_ill_formed_numbers :
    (!(Instr.maskBuild 262144 0).wf && !(Instr.factorMerge 262144 0).wf && !(Instr.gatherFlagWrite 65536).wf && !(Instr.shiftFlagWrite 65536).wf &&
      !(Instr.fuseAckTimeout 26).wf && (Instr.fuseAckTimeout 25).wf && !(Instr.pfcFrame 0 0 []).wf &&
      !(Instr.readResponse ⟨0, ⟨0, true, true, true, 0, true, false, false, 0, 0⟩⟩ 0 0 (List.replicate 4097 0) true).wf &&
      !(Instr.pfcXoffRepeat ⟨0, []⟩).wf && !(Instr.expanderSlot ⟨0, true⟩ 0 0 [1]).wf && !(Instr.expanderFetchResponse ⟨0, true⟩ [] [] 0).wf) = true := by
  decide +kernel

theorem test_ill_formed_records :
    (!(Instr.bootVerifyComplete ⟨0, false, true, [], 48, false, 0, 0, 0, 0⟩).wf &&
      !(Instr.bootVerifyComplete ⟨0, false, true, List.replicate 26 0, 47, false, 0, 0, 0, 0⟩).wf &&
      (Instr.bootVerifyComplete ⟨0, false, true, List.replicate 26 0, 48, false, 0, 0, 0, 0⟩).wf &&
      !(RocePacket.wf ⟨⟨0, true, true, true, 0, true, false, false, 0, 0⟩, 0, .writeOnly, 0, true, 0, 0, List.replicate 4097 0, 0, 0⟩) &&
      !(Instr.memResponse ⟨.hm 0, 7, 3, 0, 0, 0x1000, true⟩ 0 false false).wf) = true := by
  decide +kernel

/-! ### Invariants and events -/

theorem test_reset_meets_the_invariants :
    (State.reset.epochOk && State.reset.memOk && State.reset.eventsIn && State.reset.queueOk) = true := by
  decide +kernel

theorem test_invariants_hold_in_a_step :
    (up.epochOk && up.memOk && up.eventsIn && after (.slotStart ⟨true, true⟩) up fun t => t.epochOk && t.memOk && t.eventsIn) = true := by
  decide +kernel

theorem test_an_event_enters :
    (up.eventsIn && (let t := (up.event 1 2 1 []).finish
          code t == 2 && t.js.ring.head == 1 && t.js.ring.irqErr && t.jirq2 && !t.jirq3)) = true := by
  decide +kernel

theorem test_a_full_ring_loses_its_oldest :
    (let s := sj up fun j => { j with ring := { j.ring with head := 4, tail := 5 } }
     let t := (s.event 1 2 2 []).finish
     s.eventsIn && t.js.ring.head == 5 && t.js.ring.tail == 6 && t.js.ring.lost == 1 && t.jirq3) = true := by
  decide +kernel

/-! ### The slot sequencer -/

theorem test_slot_start :
    (after (.slotStart ⟨true, true⟩) up fun t => t.jq.slot == 1 && t.jq.step == 0) = true := by
  decide +kernel

theorem test_slot_start_of_a_begun_slot :
    (after (.slotStart ⟨true, true⟩) (qj up fun j => { j with slot := 3, begun := true }) fun t => t.jq.slot == 3 && !t.jq.begun) = true := by
  decide +kernel

theorem test_slot_start_at_rest :
    (after (.slotStart ⟨true, true⟩) (qj up fun j => { j with running := false, acts := [⟨1, 0, 0, []⟩] }) fun t =>
      t.jq.slot == 1 && t.jq.acts.length == 1) = true := by
  decide +kernel

def streamOf (offset : Nat) (gate gateArg : Nat) (db : Mem) : State :=
  let e : SchedEntry := ⟨1, 0, 0x2C, 0, gate, gateArg, 2, 2, 0, 0, false⟩
  let s := qj up fun j => { j with acts := [⟨7, 0, offset, []⟩], db := db, phases := 1 }
  { s with live := { s.live with cur := { s.live.cur with schedule := [e] } } }

theorem test_stream_not_due :
    (let s := streamOf 0 0 0 []
     decide (s.sched.length = 1) && !s.frozen ⟨7, 0, 0, []⟩ && decide (s.takeDue.2 = [])) = true := by
  decide +kernel

theorem test_stream_due :
    (decide ((streamOf 1 0 0 []).takeDue.2 = [⟨false, 7, 0x2C, 0, 0⟩])) = true := by
  decide +kernel

theorem test_stream_due_with_doorbell :
    (decide ((streamOf 1 1 9 [(9, 2)]).takeDue.2 = [⟨false, 7, 0x2C, 0, 0⟩])) = true := by
  decide +kernel

theorem test_stream_waits_at_its_doorbell :
    (let r := (streamOf 1 1 9 []).takeDue
     decide (r.2 = [] ∧ r.1.jq.held = [⟨7, 0, 0, false, false, false⟩])) = true := by
  decide +kernel

theorem test_completion_clean :
    (let s := qj up fun j => { j with run := some ⟨3, 1, 2, false⟩ }
     s.jp.holding.isEmpty && s.jg.tiles.remap.isEmpty && after (.slotCompletionCheck []) s fun t =>
      t.jq.run.isNone && t.jq.slipEnd == some ⟨3, 1, 2, false⟩ && !t.jq.forceSlip) = true := by
  decide +kernel

theorem test_completion_slips_by_fault :
    (after (.slotCompletionCheck [⟨0x31, none, none⟩]) up fun t =>
      t.jq.forceSlip && t.jq.verdict.fault && t.jq.run == some ⟨3, 1, 1, false⟩) = true := by
  decide +kernel

theorem test_completion_slips_by_retry :
    (let s := up.setPort 0 fun p => { p with rx := { p.rx with retryOut := true } }
     after (.slotCompletionCheck [⟨0x2C, some 0, none⟩]) s fun t => t.jq.forceSlip && !t.jq.verdict.fault &&
      (t.jq.run.map SlipRun.cause) == some 1) = true := by
  decide +kernel

theorem test_completion_slips_by_refresh :
    (let s := qj (mj up fun j => { j with lateRef := [3] }) fun j => { j with run := some ⟨2, 9, 4, false⟩ }
     after (.slotCompletionCheck [⟨0x2C, none, some 3⟩]) s fun t => t.jq.run == some ⟨2, 9, 5, false⟩ && t.jm.lateRef.isEmpty) = true := by
  decide +kernel

theorem test_slip_limit_stalls :
    (let s := qj up fun j => { j with slipping := true, slipCount := 0xFF }
     s.eventsIn && after (.slotCompletionCheck [⟨0x31, none, none⟩]) s fun t =>
      t.jq.verdict.fault && t.jq.slipCount == 256 && code t == 0x0105 && t.js.ring.irqErr) = true := by
  decide +kernel

/-- The deadline of the slip test's retry is over before the check, but it was outstanding in the slot (R31). -/
theorem test_completion_slips_by_an_earlier_retry :
    (let s := (qj up fun j => { j with slot := 9 }).setPort 0 fun p => { p with rx := { p.rx with retryOut := false, retryAt := some 9 } }
     after (.slotCompletionCheck [⟨0x2C, some 0, none⟩]) s fun t => t.jq.forceSlip && !t.jq.verdict.fault &&
      (t.jq.run.map SlipRun.cause) == some 1) = true := by
  decide +kernel

def gated (act : Nat) : State :=
  let s := streamOf 1 1 9 []
  let s := { s with live := { s.live with cur := { s.live.cur with schedule := [⟨1, 0, 0x2C, 0, 1, 9, 2, act, 0, 0, false⟩] } } }
  qj s fun j => { j with begun := true, slot := 5, held := [⟨7, 0, 3, false, false, false⟩] }

theorem test_gate_timeout_incomplete :
    (let s := gated 2
     (s.waiting 0 0x2C).isSome && !s.gateOpen ⟨1, 0, 0x2C, 0, 1, 9, 2, 2, 0, 0, false⟩ && after (.gateTimeout 0 0x2C) s fun t =>
      t.jq.verdict.incomplete && !t.jq.verdict.fault && (t.jq.held.map Held.expired) == [true] && code t == 0x0101) = true := by
  decide +kernel

theorem test_gate_timeout_fault :
    (after (.gateTimeout 0 0x2C) (gated 3) fun t => t.jq.verdict.fault && (t.jq.held.map Held.expired) == [true]) = true := by
  decide +kernel

theorem test_gate_timeout_reports_only :
    (after (.gateTimeout 0 0x2C) (gated 0) fun t => !t.jq.verdict.fault && (t.jq.held.map Held.expired) == [false] &&
      (t.jq.held.map Held.reported) == [true]) = true := by
  decide +kernel

theorem test_gate_timeout_owed_from_a_slip :
    (let s := qj (gated 2) fun j => { j with db := [(9, 1)], held := [⟨7, 0, 3, false, false, true⟩] }
     s.gateOpen ⟨1, 0, 0x2C, 0, 1, 9, 2, 2, 0, 0, false⟩ && after (.gateTimeout 0 0x2C) s fun t =>
      t.jq.verdict.incomplete && code t == 0x0101) = true := by
  decide +kernel

theorem test_doorbell_rings :
    (up.listening && after (.doorbellRing .mw 5) up fun t => memGet t.jq.db 5 == 1 && t.js.mw == ⟨0, 0⟩) = true := by
  decide +kernel

theorem test_doorbell_full :
    (let s := qj up fun j => { j with db := [(5, 255)] }
     s.eventsIn && after (.doorbellRing .sm 5) s fun t => memGet t.jq.db 5 == 255 && code t == 0x0102 && t.js.sm == ⟨0, 0⟩) = true := by
  decide +kernel

theorem test_doorbell_zero_is_rejected :
    (after (.doorbellRing .mw 0) up fun t => t.js.mw == ⟨4, 0⟩ && t.jq.db == [] && t.js.rejOffset == 0x010040) = true := by
  decide +kernel

theorem test_doorbell_of_the_offload :
    (after (.doorbellRing .mw 4080) up fun t => memGet t.jq.db 4080 == 1) = true := by
  decide +kernel

theorem test_mode_request :
    (after (.modeReqWrite .mw 1) up fun t => t.jq.variantReq && memGet t.jq.db 0 == 1) = true := by
  decide +kernel

def serving : State := qj up fun j => { j with phases := 0x40, gen := true, serveSlots := 4 }

theorem test_boundary_vote :
    (serving.decl.boundaryPeriod == 4 && serving.jz.held.isEmpty && ((serving.dom 0).map fun d => d.contains ⟨0, 0, 0⟩) == some true &&
      after .boundaryPeriod serving fun t => t.jq.boundarySent && t.jq.serveSlots == 0 && (t.gzRun 2).run == 1 && t.jq.gen) = true := by
  decide +kernel

theorem test_boundary_to_learn :
    (after .boundarySwitch (qj serving fun j => { j with boundaryResult := some 0 }) fun t =>
      !t.jq.gen && t.phase 0 && t.phase 5 && !t.phase 6 && t.jq.boundaryResult.isNone) = true := by
  decide +kernel

theorem test_boundary_stays :
    (after .boundarySwitch (qj serving fun j => { j with boundaryResult := some 4 }) fun t => t.jq.gen && t.phase 6 && t.jq.boundaryResult.isNone) = true := by
  decide +kernel

theorem test_quiesced_set :
    (let s := sj (qj up fun j => { j with draining := true, slot := 9 }) fun j => { j with cmd := { j.cmd with busy := true, code := 2 } }
     s.noTraffic && after .quiescedSet s fun t => t.jq.quiesced && !t.jq.running && t.js.cmd.outcome == some 0 && t.jq.slot == 9) = true := by
  decide +kernel

/-! ### The verdict and the commit -/

def voting : State := vj (qj up fun j => { j with phases := 4 }) fun v => { v with sendIssued := true }

theorem test_verdict_entry_sends :
    (let s := gj voting fun j => { j with nf := ⟨2, 1⟩ }
     s.jz.held.isEmpty && after .verdictEntry s fun t => t.jq.verdict.sent && t.jq.verdict.orSent == 1 && t.jg.nf == ⟨0, 3⟩) = true := by
  decide +kernel

theorem test_verdict_entry_waits_at_the_gate :
    (let s := uj (qj voting fun j => { j with step := 0x1000001 }) fun j => { j with gateEn := true }
     after .verdictEntry s fun t => t.jq.verdict.pending && !t.jq.verdict.sent && t.jq.verdict.gateStep == 1) = true := by
  decide +kernel

def pending : State := uj (vj voting fun v => { v with pending := true, formed := true, incomplete := true }) fun j => { j with gateEn := true }

theorem test_commit_approve :
    (pending.listening && after (.commitApprove .mw 3) pending fun t =>
      t.jq.verdict.sent && !t.jq.verdict.pending && t.jq.verdict.orSent == 2 && t.js.mw == ⟨0, 0⟩) = true := by
  decide +kernel

theorem test_commit_veto :
    (after (.commitVeto .sm 5) pending fun t => t.jq.verdict.sent && t.jq.verdict.veto && t.jq.verdict.orSent == 10) = true := by
  decide +kernel

theorem test_commit_gate_rejects :
    (after (.commitApprove .mw 2) up (fun t => t.js.mw == ⟨4, 0⟩ && !t.jq.verdict.sent) &&
      after (.commitVeto .mw 4) up fun t => t.js.mw == ⟨4, 0⟩ && !t.jq.verdict.sent) = true := by
  decide +kernel

def rootWaits : State :=
  let s := vj (qj up fun j => { j with phases := 4, slot := 0x900 }) fun v => { v with formed := true, enteredAt := 0x100 }
  zj s fun j => { j with
    reds := [⟨0, 0, 1, 0, some [⟨0, 0⟩], 0, [], false, false, false⟩, ⟨1, 0, 1, 0, some [⟨3, 0⟩], 0, [], false, false, false⟩],
    runs := [⟨0, 1, false, false, [], 0, []⟩, ⟨1, 1, false, false, [], 0, []⟩] }

theorem test_verdict_timeout_decides :
    (rootWaits.decl.verdictRoot == rootWaits.me && (rootWaits.gzRed 0 0).isSome && (rootWaits.gzRed 1 0).isSome &&
      ((rootWaits.dom 0).map DomEntry.gzAxes) == some [] && after .verdictTimeout rootWaits fun t =>
        t.jq.verdict.decision == some ⟨true, 0, 3⟩ && !t.phase 2) = true := by
  decide +kernel

theorem test_verdict_lost :
    (let s := vj (qj up fun j => { j with slot := 0x1000 }) fun v => { v with sent := true }
     after .verdictLostTimeout s fun t => t.jg.member.state == 1 && t.jg.member.cause == 8 && code t == 0x0103 && t.js.ring.irqFatal) = true := by
  decide +kernel

theorem test_commit_pulse :
    (let s := vj up fun v => { v with decision := some ⟨true, 0, 0⟩ }
     after .commitPulse s fun t => t.jq.step == 1 && t.commitParity && t.pins.stepDone && t.jg.epoch.current == 0 && t.jq.slot == 1) = true := by
  decide +kernel

theorem test_commit_pulse_advances_the_epoch :
    (let s := vj { up with live := { up.live with staged := some live0 } } fun v => { v with decision := some ⟨true, 0, 3⟩ }
     after .commitPulse s fun t => t.jq.step == 1 && t.jg.epoch.current == 1 && t.epochOk) = true := by
  decide +kernel

theorem test_skip :
    (let s := vj up fun v => { v with decision := some ⟨false, 1, 0⟩ }
     after .skipDecision s fun t => t.jq.step == 0 && t.pins.stepDone && t.phase 0 && t.phase 3 && !t.commitParity) = true := by
  decide +kernel

theorem test_skip_into_a_drain :
    (let s := qj (vj up fun v => { v with decision := some ⟨false, 1, 0⟩ }) fun j => { j with quiesceReq := true }
     after .skipDecision s fun t => t.jq.step == 0 && t.jq.draining && t.jq.phases == 0) = true := by
  decide +kernel

/-! ### Power -/

theorem test_ramp_within_its_budget :
    (let new := rampPass true 2 1500000 (16 * 8 * 1536000) [(1, 0, 16), (2, 0, 16)]
     new.length == 2 && new.all fun x => decide (x ≤ 16)) = true := by
  decide +kernel

theorem test_inrush_ends :
    (let s := { up with jp := JpBlock.reset }
     after .inrushDone s (fun t => t.jp.inrushDone && t.js.boot.state == 1) &&
      after .inrushDone (bj s fun b => { b with jwrstLow := true }) fun t => t.jp.inrushDone && t.js.boot.state == 5) = true := by
  decide +kernel

/-! ### Intake and the tile queues -/

/-- LEARN with INTAKE active. -/
def intake : State := qj up fun j => { j with phases := 1 }

/-- A descriptor of the whole 2 × 64 tensor in FP32. -/
def desc (kind step rows : Nat) : BitVec 512 :=
  BitVec.ofNat 512 (kind + step * 2 ^ 32 + (rows - 1) * 2 ^ 128 + 63 * 2 ^ 144 + (rows * 64 * 4) * 2 ^ 160)

def payload : List Byte := (List.range 128).flatMap fun _ => [0, 0, 0x80, 0x3F]

theorem test_tile_of_the_wrong_step :
    (intake.tqReady 0 && after (.tileReceive 0 (some (desc 0 2 2)) payload true) intake fun t =>
      t.ji.discTag == 1 && code t == 0x0201 && t.ji.grads.isEmpty && decide ((t.tq 0).st = .idle)) = true := by
  decide +kernel

theorem test_tile_of_a_bad_kind :
    (after (.tileReceive 1 (some (desc 0 0 3)) payload false) intake fun t =>
      t.ji.discKind == 1 && decide ((t.tq 1).st = .discard) && t.ji.grads.isEmpty) = true := by
  decide +kernel

theorem test_tile_received :
    (let c := Instr.tileReceive 0 (some (desc 0 0 2)) payload true
     c.wf && intake.kindOk (descHdr (desc 0 0 2)) && !intake.isDup 0 (descHdr (desc 0 0 2)) && after c intake fun t =>
      decide ((descHdr (desc 0 0 2)).groups cat = [0, 1, 2, 3]) && [0, 1, 2, 3].all (fun g => (t.gPrime 0 g).isSome) &&
        t.ji.lastDesc == (desc 0 0 2).extractLsb' 0 256 && decide ((t.tq 0).st = .idle)) = true := by
  decide +kernel

theorem test_tile_received_twice :
    (let s := ij intake fun j => { j with grads := [⟨0, 3, []⟩], dupFault := true }
     s.isDup 0 (descHdr (desc 0 0 2)) && after (.tileReceive 0 (some (desc 0 0 2)) payload true) s fun t =>
      t.ji.discDup == 1 && t.jq.verdict.fault && t.ji.grads.length == 1) = true := by
  decide +kernel

theorem test_tile_held_for_its_step :
    (after (.tileReceive 2 (some (desc 0 1 2)) payload true) intake fun t => decide ((t.tq 2).st = .held (desc 0 1 2))) = true := by
  decide +kernel

theorem test_held_descriptor_released :
    (let s := ij intake fun j => { j with tqs := j.tqs.set 3 ⟨true, .held (desc 0 0 2)⟩ }
     after (.heldDescriptorRelease 3 payload true) s fun t => (t.gPrime 0 3).isSome && decide ((t.tq 3).st = .idle)) = true := by
  decide +kernel

theorem test_producer_reset_cuts_a_tile :
    (let s := ij intake fun j => { j with tqs := j.tqs.set 0 ⟨true, .isOpen (desc 0 0 2) []⟩ }
     after (.producerReset 0) s (fun t => t.ji.discPartial == 1 && !t.tqReady 0) &&
      after (.producerReset 1) (ij intake fun j => { j with tqs := j.tqs.set 1 ⟨true, .held 5⟩ }) fun t => t.ji.discPartial == 0) = true := by
  decide +kernel

theorem test_producer_up :
    (after (.producerUp 0) (ij up fun j => { j with tqs := j.tqs.set 0 ⟨false, .idle⟩ }) fun t => t.tqReady 0) = true := by
  decide +kernel

def sketching : State :=
  let curve := [(0, [DensBp.mk 0 1])]
  let s := qj up fun j => { j with step := 10, restart := 0 }
  ij { s with live := { s.live with cur := { s.live.cur with density := curve } } } fun j =>
    { j with dens := List.replicate 4 curve, sketches := [(0, [3, 9, 9, 1])] }

theorem test_mask_build :
    (decide (sketching.rowChunks cat 0 = [0]) && sketching.buildsMask cat && after (.maskBuild 0 0) sketching fun t =>
      t.ji.built == [⟨0, 0, 12, [false, true, true, false]⟩]) = true := by
  decide +kernel

theorem test_mask_takes_the_highest :
    (decide (buildMask [3, 9, 9, 1] 2 = [false, true, true, false]) && decide (buildMask [3, 9, 9, 1] 1 = [false, true, false, false]) &&
      decide (buildMask [5, 5] 0 = [false, false])) = true := by
  decide +kernel

/-! ### The ring -/

/-- The chunk is exchanged in domain 1. -/
def ringed : State := { up with image := some { img with chunks := [{ chunk0 with domain := 1 }] } }

def hdr1 : ChunkHdr :=
  { version := 2, op := 0, axis := 0, tepoch := 0, mepoch := 0, wire := 0, bypass := false, dense := true, sketch := false,
    mask := false, poison := false, fwd := false, minus := false, last := false, domain := 1, hop := 0, bypassN := 0, key := 7,
    step := 0, tensor := 0, src := 1, dst := 0, owner := 0, chunk := 0, nGroups := 4, nScales := 2, nSide := 0, len := 132,
    seq := 0, aux := 0, group0 := 0, rangeGroups := 4, crc := 0 }

def codes : List Byte := List.replicate 132 1

theorem test_chunk_of_another_key :
    (let raw := { hdr1 with key := 8 }.pack codes
     ringed.eventsIn && after (.chunkReceive 1 1 raw codes) ringed fun t =>
      t.jx.discKey == 1 && t.jx.rx.isEmpty && !t.jq.verdict.fault && code t == 0x0301 && t.jx.lastHdr == raw) = true := by
  decide +kernel

theorem test_chunk_out_of_sequence :
    (let raw := { hdr1 with seq := 1 }.pack codes
     after (.chunkReceive 1 1 raw codes) ringed fun t => t.jx.discSeq == 1 && t.jx.rx.isEmpty && t.jq.verdict.fault && code t == 0x0302) = true := by
  decide +kernel

theorem test_chunk_waits_for_its_entry :
    (let raw := hdr1.pack codes
     decide (chunkHdr raw = { hdr1 with crc := chunkCrc hdr1.low codes }) && chunkCrcOk raw codes && ringed.chunkForm raw codes &&
      ringed.mapAgrees (chunkHdr raw) { chunk0 with domain := 1 } && ringed.lap1Mine 1 (chunkHdr raw) { chunk0 with domain := 1 } (dom 1 2 1) &&
      after (.chunkReceive 1 2 raw codes) ringed fun t => t.jx.rx == [⟨1, 2, raw, codes, false⟩] && seqNext t.jx.seqRx 1 2 == 1) = true := by
  decide +kernel

def gathering : State :=
  let s := { up with image := some { img with gathers := [⟨5, 2, false, 0x6000, 0x100, 0x7000, false⟩] } }
  xj s fun j => { j with gathers := [⟨0, 3, 0, true, [0], [], false, false⟩] }

theorem test_gather_flag :
    ((match gathering.findRun 0 fun r => !r.flagged with
      | some r => gathering.runFull r
      | none => false) && after (.gatherFlagWrite 0) gathering fun t =>
      memRead t.hostMem 0x7010 16 == [0, 0, 0, 0, 0, 0, 0, 1, 3, 0, 0, 0, 0, 0, 0, 0] && (t.jx.gathers.map GatherRun.flagged) == [true]) = true := by
  decide +kernel

theorem test_shift_flag :
    (let x : XferEntry := ⟨false, 0, 1, 0, true, true, 0, 0x6000, 64, 0x7100, 1, 0, false⟩
     let s := xj { up with image := some { img with xfers := [x] } } fun j => { j with xfers := [⟨0, 2, [0], some 1, true, false⟩] }
     x.chunks == 1 && after (.shiftFlagWrite 0) (qj s fun j => { j with step := 1 }) fun t =>
      memRead t.hostMem 0x7100 16 == [0, 0, 0, 0, 0, 0, 0, 2, 2, 0, 0, 0, 0, 0, 0, 0]) = true := by
  decide +kernel

/-! ### The Gazelle path -/

/-- The commit domain spans both members. -/
def paired : State :=
  let s := { up with image := some { img with decl := { decl with commitDomain := 1, verdictRoot := 1 } } }
  zj (qj s fun j => { j with phases := 4 }) fun j => { j with
    runs := [⟨0, 1, false, false, [], 0, []⟩, ⟨1, 1, false, false, [], 0, []⟩],
    reds := [⟨0, 0, 1, 0, none, 0, [], false, false, false⟩, ⟨1, 0, 1, 0, none, 0, [], false, false, false⟩] }

def cellH (rid : Nat) (result minus : Bool) : CellHdr :=
  { op := if rid = 0 then 1 else 0, typ := 2, result := result, axis := 0, minus := minus, tepoch := 0, cell := 0, ncells := 1, rid := rid, src := 1,
    root := 1, domain := 1, seq := 0, run := 1, reservedOk := true }

def cellT (dec : Nat) : CellTrl := ⟨0, 7, 1, false, false, dec, false, 0, true⟩
def word : List Byte := List.replicate 64 0
def cellOf (rid : Nat) (result minus : Bool) (dec : Nat) : Instr :=
  let h := (cellH rid result minus).pack
  .gazelleCell 1 h word ((cellT dec).pack (cellCrc h word))

theorem test_broken_cell :
    (let h := { cellH 0 false true with domain := 5 }.pack
     let trl := { cellT 0 with key := 8 }.pack 5
     (paired.dom (cellHdr h).domain).isNone && word.length == 64 && cellCrc h word != 5 && after (.gazelleCell 1 h word trl) paired fun t =>
      t.jz.discCrc == 1 && t.jq.verdict.fault && t.jz.lastHdr == h && t.jz.lastTrl == trl) = true := by
  decide +kernel

theorem test_result_cell_decides :
    (let h := (cellH 0 true false).pack
     (paired.gzSpec paired.live.cur 0).any (fun g => paired.cellPlace 1 (cellHdr h) g (dom 1 2 1) && cellFields (cellHdr h) (cellTrl ((cellT 1).pack (cellCrc h word))) g) &&
      after (cellOf 0 true false 1) paired fun t => t.jq.verdict.decision == some ⟨true, 0, 0⟩ && !t.phase 2) = true := by
  decide +kernel

theorem test_cap_window :
    (let s := zj (qj up fun j => { j with slot := 63 }) fun j => { j with used := List.replicate 8 9 }
     s.jz.capQueue.isEmpty && after .gazelleCapWindow s fun t => t.jz.winAt == 32 && t.jz.used == List.replicate 8 0) = true := by
  decide +kernel

theorem test_reduce_cell_is_kept :
    (let s := { paired with image := some { img with decl := { decl with commitDomain := 1, verdictRoot := 0 } } }
     let h := { cellH 2 false true with root := 0 }.pack
     let s := zj s fun j => { j with runs := [⟨2, 1, false, false, [], 0, []⟩], reds := [⟨2, 0, 1, 0, none, 0, [], false, false, false⟩] }
     ((s.gzRed 2 0).map fun r => r.own.isNone && !r.done && r.halves.isEmpty) == some true &&
      [0, 1].any fun p => after (.gazelleCell p h word ((cellT 0).pack (cellCrc h word))) s fun t =>
        ((t.gzRed 2 0).map fun r => r.halves.length) == some 1 && decide (t.jq.verdict = s.jq.verdict)) = true := by
  decide +kernel

/-! ### Curvature -/

/-- A set whose cells have the accumulators given, with no INT8 correction. -/
def accs (l : List (List W32)) (d : Option Taker) : AccSet := ⟨false, l.map fun x => (x, 0), d⟩

theorem test_a_full_set_drains :
    (let a := accs [[0x3F800000, 0x3F800000], [0x40000000, 0]] (some (.statePort 0x40))
     let s := kj up fun j => { j with arrays := j.arrays.set 1 ⟨AccSet.empty, a, 0, []⟩ }
     s.jk.arrays.length == 2 && after (.arrayTileDrain 1 1) s fun t =>
      memRead t.stateMem 0x40 8 == [0, 0, 0, 0x40, 0, 0, 0, 0x40] && decide ((t.array 1).acc1 = AccSet.empty) && t.jg.nf.now == 0) = true := by
  decide +kernel

theorem test_an_int8_set_drains :
    (let a : AccSet := ⟨true, [([5, 2], 0xFFFFFFFF)], some (.statePort 0x40)⟩
     after (.arrayTileDrain 0 0) (kj up fun j => { j with arrays := j.arrays.set 0 ⟨a, AccSet.empty, 0, []⟩ }) fun t =>
      (t.array 0).queue == [] && memRead t.stateMem 0x40 4 == [0, 0, 0xC0, 0x40]) = true := by
  decide +kernel

theorem test_a_non_finite_tile_sets_the_sticky_bit :
    (let a := accs [[0x7F800000]] (some (.statePort 0x40))
     after (.arrayTileDrain 0 0) (kj up fun j => { j with arrays := j.arrays.set 0 ⟨a, AccSet.empty, 0, []⟩ }) fun t => t.jg.nf.now == 4) = true := by
  decide +kernel

/-- A curvature tensor of one 128 × 128 block. -/
def catK : CatEntry :=
  { cat with rows := 128, cols := 128, cls := 0, chLen := 128, rowGroups := 512, factMode := 1, sampN := 32, subs := 4 }

def curved : State :=
  { up with image := some { img with catalogue := [catK], chunks := [{ chunk0 with rangeGroups := 512 }] },
            jq := { up.jq with phases := 0x20 } }

theorem test_a_merge_is_due :
    (let s := kj curved fun j => { j with merges := [⟨0, 0, 3, 0x3F000000, 0x3F800000, 0x3F800000, 0, 0⟩] }
     (s.mergeDue 0 0 catK .L).isSome && (s.mergeDue 0 0 catK .R).isSome && (s.cat 0).isSome && catK.factTiles.contains (0, 0)) = true := by
  decide +kernel

theorem test_a_refresh_may_start :
    (let s := kj curved fun j => { j with queue := [⟨3, 0, 0, .R, 0, 0⟩] }
     s.jk.current.isNone && s.markhorOn && s.jk.merges.isEmpty && s.eventsIn && (s.cat 0).isSome) = true := by
  decide +kernel

theorem test_an_iteration_may_complete :
    (let s := kj curved fun j => { j with current := some ⟨⟨3, 0, 0, .R, 0, 0⟩, 0, 23, [], [], true⟩ }
     s.jk.current.isSome && s.markhorOn && !s.jk.hold && (s.cat 0).isSome) = true := by
  decide +kernel

theorem test_an_iteration_that_converges :
    (let s := kj curved fun j => { j with current := some ⟨⟨3, 0, 0, .R, 0, 0⟩, 0, 0, [], [], true⟩ }
     let one := newtonStep false 1 [0x3F800000] [0x3F800000]
     !s.jk.hold && f32Le (newtonResid 1 one.2) s.jk.tol && one.1 == [0x3F800000]) = true := by
  decide +kernel

theorem test_markhor_hold :
    (after (.markhorHold .mw 0x104) up (fun t => t.jk.hold && t.js.mw == ⟨0, 0⟩) &&
      after (.markhorHold .mw 0x105) up fun t => !t.jk.hold && t.js.mw == ⟨3, 0⟩) = true := by
  decide +kernel

theorem test_install_lag_needs_lock_and_rest :
    (let held := sj up fun j => { j with lock := { j.lock with held := true } }
     after (.markhorHold .mw 5) held (fun t => t.js.mw == ⟨4, 0⟩) &&
      after (.markhorHold .mw 0) (qj held fun j => { j with quiesced := true }) (fun t => t.js.mw == ⟨4, 0⟩ && t.jk.installLag == 4) &&
      after (.markhorHold .mw 5) (qj held fun j => { j with quiesced := true }) fun t => t.js.mw == ⟨0, 0⟩ && t.jk.installLag == 5) = true := by
  decide +kernel

/-! ### Update programs -/

def body1 : PassDir := ⟨0, 0, 1, 0, false, false, false⟩

/-- Tile 0 runs the chunk's element program, whose next word is w; v0 holds 1.0 and v1 2.0. -/
def tiled (w : W32) : State :=
  let live := { live0 with progs := [{ prog0 with passes := [body1] }], code := [w] }
  let s := { up with live := ⟨live, live, none⟩ }
  let regs : TileRegs := ⟨(TileRegs.zero.v.set 0 (List.replicate 64 0x3F800000)).set 1 (List.replicate 64 0x40000000), TileRegs.zero.a⟩
  s.setTile 0 fun t => { t with regs := regs, inv := some (newInv 1 0 0 0 0 body1) }

/-- The hypotheses of `State.atWord`. -/
def issues (w : W32) : Bool :=
  let s := tiled w
  match s.tileCtx 0 with
  | some x => !s.jq.gen && !s.inReset && !x.inv.finished && !x.inv.preDue && (s.tables x.inv.epoch).code[x.pc]? == some w
  | none => false

/-- The R form: vD ← vA op vB, with vC. -/
def r (op d a b c : Nat) : W32 := BitVec.ofNat 32 (op * 2 ^ 26 + d * 2 ^ 22 + a * 2 ^ 18 + b * 2 ^ 12 + c * 2 ^ 8)

/-- What an instruction leaves in lanes 0 and 63 of v2. -/
def lanes (c : Nat → W32 → Instr) (w : W32) (v : W32) : Bool :=
  issues w && after (c 0 w) (tiled w) fun t =>
    (t.vreg 0 2).getD 0 7 == v && (t.vreg 0 2).getD 63 7 == v && ((t.tile 0).inv.map Inv.finished) == some false &&
      ((t.tile 0).inv.map Inv.iter) == some 1

theorem test_nop_goes_on :
    (issues 0 && after (.nop 0 0) (tiled 0) fun t => ((t.tile 0).inv.map Inv.iter) == some 1 && decide ((t.tile 0).regs = ((tiled 0).tile 0).regs)) = true := by
  decide +kernel

theorem test_mov_add_sub :
    (lanes .mov (r 1 2 0 1 2) 0x40000000 && lanes .add (r 2 2 0 1 2) 0x40400000 && lanes .sub (r 3 2 0 1 2) 0xBF800000) = true := by
  decide +kernel

theorem test_mul_div :
    (lanes .mul (r 4 2 0 1 2) 0x40000000 && lanes .div (r 5 2 0 1 2) 0x3F000000) = true := by
  decide +kernel

theorem test_min_max :
    (lanes .min (r 6 2 0 1 2) 0x3F800000 && lanes .max (r 7 2 0 1 2) 0x40000000) = true := by
  decide +kernel

theorem test_fma_fnma :
    (lanes .fma (r 8 2 0 1 1) 0x40800000 && lanes .fnma (r 9 2 0 1 2) 0xC0000000) = true := by
  decide +kernel

theorem test_sqrt_abs_neg :
    (lanes .sqrt (r 10 2 0 1 2) 0x3F800000 && lanes .abs (r 11 2 0 1 2) 0x3F800000 && lanes .neg (r 12 2 0 1 2) 0xBF800000) = true := by
  decide +kernel

theorem test_clt_sel :
    (lanes .clt (r 13 2 0 1 2) 0x3F800000 && lanes .clt (r 13 2 1 0 2) 0 && lanes .sel (r 14 2 0 1 2) 0x40000000 &&
      lanes .sel (r 14 2 0 1 1) 0x3F800000) = true := by
  decide +kernel

theorem test_the_immediate_form :
    (lanes .add (BitVec.ofNat 32 (2 * 2 ^ 26 + 2 * 2 ^ 22 + 2 * 2 ^ 16 + 0x4000)) 0x40400000) = true := by
  decide +kernel

theorem test_acc_accsq_fold :
    ((let w := r 20 3 1 0 0
      issues w && after (.acc 0 w) (tiled w) fun t => ((t.areg 0 3).getD 63 CState.zero).s == 0x40000000) &&
      (let w := r 21 3 1 0 0
       issues w && after (.accsq 0 w) (tiled w) fun t => ((t.areg 0 3).getD 0 CState.zero).s == 0x40800000) &&
      (let w := r 22 2 3 0 0
       issues w && after (.fold 0 w) ((tiled w).setA 0 3 (List.replicate 64 ⟨0x3F800000, 0⟩)) fun t =>
        (t.vreg 0 2).getD 5 0 == 0x42800000)) = true := by
  decide +kernel

theorem test_ld_reads_the_active_bank :
    (let w := r 16 2 3 0 0
     issues w && after (.ld 0 w) { tiled w with stateMem := memWrite [] 0x104 [0, 0, 0x80, 0x3F] } fun t =>
      (t.vreg 0 2).getD 1 0 == 0x3F800000 && (t.vreg 0 2).getD 0 7 == 0) = true := by
  decide +kernel

theorem test_st_writes_the_inactive_bank :
    (let w := r 17 8 1 0 0
     issues w && ((tiled w).vreg 0 1).length == 64 && after (.st 0 w) (tiled w) fun t =>
      memRead t.stateMem 0x10100 4 == [0, 0, 0, 0x40] && memRead t.stateMem 0x101FC 8 == [0, 0, 0, 0x40, 0, 0, 0, 0]) = true := by
  decide +kernel

theorem test_st_of_the_working_copy :
    (let w := r 17 11 1 0 0
     issues w && after (.st 0 w) (tiled w) fun t => t.stateMem == [] && memRead t.hostMem 0x20300 2 == [0x40, 0x40] &&
      memRead t.hostMem 0x2033F 2 == [0x40, 0]) = true := by
  decide +kernel

theorem test_ldx_stx :
    ((let w := BitVec.ofNat 32 (18 * 2 ^ 26 + 2 * 2 ^ 22 + 0x4400)
      issues w && after (.ldx 0 w) ((tiled w).setTile 0 fun t => { t with regS := memWrite [] 0 [0, 0, 0x80, 0x3F] }) fun t =>
        (t.vreg 0 2).getD 0 0 == 0x3F800000) &&
      (let w := BitVec.ofNat 32 (19 * 2 ^ 26 + 1 * 2 ^ 22 + 0x44FF)
       issues w && after (.stx 0 w) (tiled w) fun t => memRead (t.tile 0).regS 0xFFFC 4 == [0, 0, 0, 0x40])) = true := by
  decide +kernel

theorem test_scratch_accesses_outside_fault :
    ((let w := BitVec.ofNat 32 (18 * 2 ^ 26 + 2 * 2 ^ 22 + 0x4500)
      issues w && (tiled w).eventsIn && after (.ldx 0 w) (tiled w) fun t => t.jq.verdict.fault && code t == 0x0601 &&
        t.ju.progFault.cause == 3 && t.jx.consumed.contains 0) &&
      (let w := BitVec.ofNat 32 (19 * 2 ^ 26 + 1 * 2 ^ 22 + 0x4000)
       issues w && after (.stx 0 w) (tiled w) fun t => t.ju.progFault.cause == 1 && t.stateMem == []) &&
      (let w := BitVec.ofNat 32 (19 * 2 ^ 26 + 1 * 2 ^ 22 + 0x5000)
       issues w && after (.stx 0 w) (tiled w) fun t => t.ju.progFault.cause == 2)) = true := by
  decide +kernel

def owned (chunk : Nat) : Folded := ⟨chunk, 0, [], [], false, 0, false, 0, none⟩

theorem test_a_chunk_pass_starts :
    (let s := uj (xj up fun j => { j with hold := [owned 0] }) fun j => { j with ready := [0] }
     s.nextReady 0 == some 0 && after (.chunkPassStart 0) s fun t => ((t.tile 0).inv.map Inv.kind) == some 1 && t.ju.ready == [] &&
      (t.jt.wins.getD 0 ⟨false, 0, 0, 0⟩).busy) = true := by
  decide +kernel

/-- A block program of two passes on the curvature tensor. -/
def blocked : State :=
  let g : ProgEntry := ⟨0, true, true, [body1, ⟨0, 0, 1, 0, true, true, false⟩], false⟩
  let live := { live0 with progs := [g], code := [0] }
  let s := { curved with live := ⟨live, live, none⟩ }
  uj (xj s fun j => { j with hold := [owned 0] }) fun j => { j with passed := [(0, 0)] }

theorem test_a_block_section_starts :
    (blocked.readyBlocks 0 == [(0, 0)] && after (.blockSectionStart 0) blocked fun t =>
      ((t.tile 0).inv.map fun i => (i.kind, i.pass, i.preDue)) == some (3, 1, true)) = true := by
  decide +kernel

theorem test_a_pre_pass_may_start :
    (let s := blocked.setTile 0 fun t => { t with inv := some (newInv 3 0 0 0 1 ⟨0, 0, 1, 0, true, true, false⟩) }
     ((s.tileCtx 0).map fun x => x.inv.preDue) == some true && !s.jq.gen && !s.inReset) = true := by
  decide +kernel

theorem test_a_chunk_pass_completes :
    (let s := (tiled 0).setTile 0 fun t => { t with inv := t.inv.map fun i => { i with finished := true, crcs := [⟨8, 5⟩] } }
     ((s.tileCtx 0).map fun x => x.inv.finished) == some true && after (.passComplete 0) s fun t =>
      (t.tile 0).inv.isNone && t.ju.passed == [(0, 0)] && t.ju.updChunks == 1 && t.ju.acc.w == 5) = true := by
  decide +kernel

theorem test_a_section_goes_to_its_next_pass_and_ends :
    (let p : PassDir := ⟨0, 0, 1, 0, true, false, false⟩
     let g : ProgEntry := ⟨0, true, true, [body1, p, p], false⟩
     let live := { live0 with progs := [g], code := [0] }
     let s := fun n => { blocked with live := ⟨live, live, none⟩ }.setTile 0 fun t =>
       { t with inv := some { newInv 3 0 0 0 n p with finished := true } }
     after (.passComplete 0) (s 1) (fun t => ((t.tile 0).inv.map fun i => (i.pass, i.finished)) == some (2, false)) &&
      after (.passComplete 0) (s 2) fun t => (t.tile 0).inv.isNone && t.ju.sections == [(0, 0)] && t.ju.updBlocks == 1) = true := by
  decide +kernel

theorem test_a_chunk_is_consumed :
    (let s := uj (xj up fun j => { j with hold := [owned 0] }) fun j => { j with passed := [(0, 0)] }
     s.chunkDone 0 && !up.chunkDone 0 && after (.chunkConsumed 0) s fun t => t.jx.consumed == [0] && t.jx.hold.isEmpty) = true := by
  decide +kernel

/-! ### Peer links -/

/-- A frame whose checks hold. -/
def frm (typ vc : Nat) (first last ackv : Bool) (fseq ack : W16) (payload : List Byte) : Frame :=
  let h := makeHdr typ vc first last ackv (24 + payload.length) fseq ack
  ⟨h, payload, makeTrailer h payload 0xFD, false⟩

def ctl (typ : Nat) (ackv : Bool) (ack : W16) (n : Nat) : Frame := frm typ 0 false false ackv 0 ack (bytesLE 8 n)

def words (f : Frame) : List (List Byte) := frameWords f.hdr f.payload f.trailer

/-- Port 0 in a state with eight locked lanes. -/
def linked (state : BitVec 3) : State :=
  let lanes : List Lane := (List.range 8).map fun i => { Lane.reset with locked := true, inSkew := true, id := BitVec.ofNat 3 i }
  up.setPort 0 fun q => { q with state := state, lanes := lanes }

theorem test_header_crc_failure :
    (let f : Frame := { ctl 1 true 0 0 with hdr := (ctl 1 true 0 0).hdr ^^^ 0x10000000 }
     let s := (linked 4).setPort 0 fun q => { q with rx := { q.rx with retryOut := true } }
     (s.port 0).hears && (frameHdr f.hdr).sof == 0xD5 && headerCrc f.hdr.toNat != (frameHdr f.hdr).hcrc &&
      after (.ackFrame 0 f) s (fun t => (t.port 0).cntHcrc == 1 && (t.port 0).rx.resync) &&
      after (.dataFrame 0 f) s fun t => (t.port 0).cntHcrc == 1) = true := by
  decide +kernel

theorem test_size_failure :
    (let f : Frame := { ctl 1 true 0 0 with payload := List.replicate 9 0 }
     let s := (linked 4).setPort 0 fun q => { q with rx := { q.rx with retryOut := true } }
     !frameSizeOk (frameHdr f.hdr) f && after (.ackFrame 0 f) s fun t => (t.port 0).cntSize == 1 && (t.port 0).rx.resync) = true := by
  decide +kernel

theorem test_frame_crc_failure :
    (let f : Frame := { ctl 3 false 0 0 with payload := bytesLE 8 1 }
     let s := (linked 4).setPort 0 fun q => { q with rx := { q.rx with retryOut := true } }
     frameSizeOk (frameHdr f.hdr) f && !s.inResync 0 f && after (.creditFrame 0 f) s fun t =>
      (t.port 0).cntFcrc == 1 && !(t.port 0).rx.resync) = true := by
  decide +kernel

theorem test_errored_bytes_fail_a_frame :
    (let f := ctl 3 false 0 1
     let s := (linked 4).setPort 0 fun q => { q with rx := { q.rx with retryOut := true, cut := [⟨f, true⟩] } }
     (s.cutOf 0 f).any CutFrame.errored && after (.creditFrame 0 f) s fun t => (t.port 0).cntFcrc == 1 && (t.port 0).rx.cut.isEmpty) = true := by
  decide +kernel

theorem test_resync_discards :
    (let f := ctl 3 false 0 1
     let s := (linked 4).setPort 0 fun q => { q with rx := { q.rx with resync := true } }
     s.inResync 0 f && !s.inResync 0 { f with atBlock := true } && after (.creditFrame 0 f) s (fun t => decide (t = s)) &&
      after (.creditFrame 0 { f with atBlock := true }) s fun t => !(t.port 0).rx.resync) = true := by
  decide +kernel

theorem test_data_frame_in_order :
    (let f := frm 0 1 true true false 0 0 (List.replicate 64 0)
     (linked 4).hearsGood 0 0 f && (linked 4).admits 0 (itemEpoch 0 1 f.payload) && after (.dataFrame 0 f) (linked 4) fun t =>
      (t.port 0).rx.expect == 1 && (t.port 0).rx.items == [(1, f.payload)] && (t.port 0).rx.ackDue) = true := by
  decide +kernel

theorem test_data_frame_not_admitted :
    (let f := frm 0 1 true true false 0 0 (List.replicate 64 0)
     let lt := { live0 with portAdmit := 0 }
     let s := { linked 4 with live := ⟨lt, lt, none⟩ }
     !s.admits 0 (itemEpoch 0 1 f.payload) && after (.dataFrame 0 f) s fun t => (t.port 0).rx.expect == 1 && (t.port 0).rx.items.isEmpty &&
      (t.port 0).noAdmit == 1 && (t.port 0).rx.granted.getD 1 0 == (s.port 0).rx.granted.getD 1 0 + 1) = true := by
  decide +kernel

theorem test_data_frame_ahead_and_again :
    (let s := (linked 5).setPort 0 fun q => { q with rx := { q.rx with retryOut := true } }
     let f := fun (n : W16) => frm 0 1 true true false n 0 (List.replicate 64 0)
     s.hearsGood 0 0 (f 1) && after (.dataFrame 0 (f 1)) s (fun t => (t.port 0).cntSeq == 1 && (t.port 0).rx.items.isEmpty) &&
      after (.dataFrame 0 (f 32767)) s (fun t => (t.port 0).cntSeq == 1) &&
      after (.dataFrame 0 (f 32768)) s fun t => (t.port 0).cntSeq == 0 && (t.port 0).rx.expect == 0 && (t.port 0).rx.items.isEmpty) = true := by
  decide +kernel

def replaying : State :=
  (linked 4).setPort 0 fun q => { q with tx := { q.tx with next := 3, replay :=
    [⟨0, ⟨1, true, true, [1], 0, false⟩⟩, ⟨1, ⟨1, true, true, [2], 0, false⟩⟩, ⟨2, ⟨1, true, true, [3], 0, false⟩⟩] } }

theorem test_ack_frame :
    (replaying.hearsGood 0 1 (ctl 1 true 1 0) && replaying.queuesEmpty 0 && after (.ackFrame 0 (ctl 1 true 1 0)) replaying fun t =>
      ((t.port 0).tx.replay.map SentFrag.fseq) == [2] && t.out.isEmpty) = true := by
  decide +kernel

theorem test_credit_frame :
    ((linked 4).hearsGood 0 3 (ctl 3 false 0 0x0004000300020001) && after (.creditFrame 0 (ctl 3 false 0 0x0004000300020001)) (linked 4) fun t =>
      (t.port 0).tx.recv == [1, 2, 3, 4]) = true := by
  decide +kernel

theorem test_not_ready_frame :
    (let s := (linked 3).setPort 0 fun q => { q with attempt := 2 }
     s.hearsGood 0 5 (ctl 5 false 0 1) && after (.notReadyFrame 0 (ctl 5 false 0 1)) s fun t =>
      (t.port 0).attempt == 0 && (t.port 0).failed == 1 && (t.port 0).lastFail == 3) = true := by
  decide +kernel

theorem test_retry_frame_resends :
    (replaying.hearsGood 0 2 (ctl 2 false 0 1) && after (.retryFrame 0 (ctl 2 false 0 1)) replaying fun t =>
      t.out.length == 2 && (t.port 0).replayed == 1 && (t.port 0).tx.replay.length == 3 && (t.port 0).tx.reqCount == 1) = true := by
  decide +kernel

theorem test_retry_frame_with_nothing_to_resend :
    (after (.retryFrame 0 (ctl 2 false 0 3)) replaying fun t => t.out.isEmpty && (t.port 0).tx.reqCount == 1 && (t.port 0).state == 4) = true := by
  decide +kernel

theorem test_retry_frame_fails_the_port :
    (after (.retryFrame 0 (ctl 2 false 0 9)) replaying (fun t => (t.port 0).state == 7 && (t.port 0).cause == 4) &&
      after (.retryFrame 0 (ctl 2 false 0 1)) (replaying.setPort 0 fun q => { q with tx := { q.tx with reqSeq := 1, reqCount := 7 } })
        fun t => (t.port 0).state == 7 && (t.port 0).cause == 3) = true := by
  decide +kernel

def ident (id : Nat) : Frame := frm 4 0 false false false 0 0 (bytesLE 2 id ++ [1, 0, 0, 1, 0, 0] ++ List.replicate 32 0)

theorem test_ident_brings_the_port_up :
    (let s := linked 3
     s.hearsGood 0 4 (ident 1) && s.verified && s.identPasses peer0 (identIn (ident 1).payload) && (s.dupPort 0 1).isNone &&
      after (.identFrame 0 (ident 1)) s fun t => (t.port 0).state == 4 && (t.port 0).partner == 1 && (t.port 0).partnerValid) = true := by
  decide +kernel

theorem test_ident_fences_a_stranger :
    (!(linked 3).identPasses peer0 (identIn (ident 2).payload) && after (.identFrame 0 (ident 2)) (linked 3) fun t =>
      (t.port 0).state == 6 && (t.port 0).cause == 1) = true := by
  decide +kernel

theorem test_degrade_frame :
    (let s := (linked 4).setPort 0 fun q => { q with rx := { q.rx with retryOut := true } }
     s.hearsGood 0 6 (ctl 6 false 0 1) && after (.degradeFrame 0 (ctl 6 false 0 1)) s fun t =>
      (t.port 0).state == 5 && (t.port 0).half && (t.port 0).realign) = true := by
  decide +kernel

/-- A lane's good marker after 16 bits whose parity is 0x0F. -/
def mark (id : Nat) : Marker := ⟨markerBits id 0x0F, true, natBits 16 0x0906, true⟩

theorem test_the_third_marker_locks :
    (let s := up.setPort 0 fun q => { q with lanes := q.lanes.set 2 { Lane.reset with good := 2, id := 5 } }
     bipOf (mark 5).interval == 0x0F && after (.markerReceive 0 2 (mark 5)) s fun t =>
      ((t.port 0).lanes.getD 2 Lane.reset).locked && (t.port 0).rx.scr == BitVec.allOnes 58) = true := by
  decide +kernel

theorem test_the_third_bad_marker_unlocks :
    (let s := fun n => (linked 4).setPort 0 fun q => { q with lanes := q.lanes.set 2 { Lane.reset with locked := true, miss := n, bipRun := 3 } }
     after (.markerReceive 0 2 ⟨0, true, [], true⟩) (s 2) (fun t =>
      !((t.port 0).lanes.getD 2 Lane.reset).locked && ((t.port 0).lanes.getD 2 Lane.reset).bad) &&
      after (.markerReceive 0 2 ⟨0, true, [], true⟩) (s 1) fun t =>
        decide ((t.port 0).lanes.getD 2 Lane.reset = { Lane.reset with locked := true, miss := 2, inSkew := true })) = true := by
  decide +kernel

theorem test_a_parity_mismatch_keeps_the_lock :
    (let l : Lane := { Lane.reset with locked := true, id := 5, miss := 2 }
     let s := fun n l => (linked n).setPort 0 fun q => { q with lanes := q.lanes.set 2 l }
     let odd : Marker := { mark 5 with interval := natBits 16 0 }
     after (.markerReceive 0 2 odd) (s 4 l) (fun t =>
      decide ((t.port 0).lanes.getD 2 Lane.reset = { l with miss := 0, bip := 1, bipRun := 1, inSkew := true })) &&
      after (.markerReceive 0 2 (mark 5)) (s 4 { l with bipRun := 15 }) (fun t =>
        decide ((t.port 0).lanes.getD 2 Lane.reset = { l with miss := 0, inSkew := true })) &&
      after (.markerReceive 0 2 odd) (s 1 { l with bipRun := 15 }) fun t =>
        ((t.port 0).lanes.getD 2 Lane.reset).bad && ((t.port 0).lanes.getD 2 Lane.reset).locked) = true := by
  decide +kernel

theorem test_sixteen_parity_mismatches_degrade :
    (let s := (linked 4).setPort 0 fun q => { q with lanes := q.lanes.set 2 { Lane.reset with locked := true, id := 2, bipRun := 15 } }
     after (.markerReceive 0 2 { mark 2 with interval := [] }) s fun t => (t.port 0).state == 5 && (t.port 0).half &&
      ((t.port 0).lanes.getD 2 Lane.reset).bad && ((t.port 0).lanes.getD 2 Lane.reset).bip == 1 && code t == 0x0704) = true := by
  decide +kernel

theorem test_lane_los :
    (let l := fun (t : State) => (t.port 0).lanes.getD 7 Lane.reset
     after (.laneLos 0 7) (linked 4) (fun t => !(l t).locked && (l t).los && (l t).bad) &&
      after (.laneLos 0 7) (linked 2) fun t => !(l t).locked && (l t).bad && (t.port 0).state == 1) = true := by
  decide +kernel

/-- One block slot and its marker; MARKER_TRANSMIT sends 8,192 of them. -/
theorem test_a_block_and_its_marker :
    (let w := words (ctl 1 true 0 0)
     let s := (linked 4).setPort 0 fun q => { q with tx := { q.tx with wire := [⟨w, false, false⟩] } }
     let t := s.sendBlocks 0 1 [2]
     w.length == 4 && t.out.length == 8 && (t.port 0).tx.wire.isEmpty && (t.port 0).tx.rest.map List.length == List.replicate 8 40) = true := by
  decide +kernel

/-- The lanes' bits of one block of zeros but for the bit given of lane 0, received with nothing to unscramble. -/
def rxBits (one : Nat) : List (List Bool) :=
  ((List.replicate 340 false).set one true) :: List.replicate 7 (List.replicate 340 false)

theorem test_codeword_clean :
    (let b := List.replicate 4 (List.replicate 340 false)
     decide (rsDecode (laneSymbols (b ++ b) false) = .clean) && after (.codewordDecode 0 false b b) (linked 4) fun t =>
      (t.port 0).fecCorr == 0 && (t.port 0).fecUncorr == 0 && !(t.port 0).rx.decodedBad && (t.port 0).rx.decoded.length == 160) = true := by
  decide +kernel

theorem test_codeword_corrected :
    (let b := rxBits 3
     after (.codewordDecode 0 false (b.take 4) (b.drop 4)) (linked 4) fun t =>
      (t.port 0).fecCorr == 1 && (t.port 0).fecUncorr == 0 && !(t.port 0).rx.decodedBad) = true := by
  decide +kernel

theorem test_codeword_uncorrectable :
    (let b := (List.range 8).map fun l => natBits 340 ((l * l + 3 * l + 7) * 0x123456789ABCDEF0123456789ABCDEF)
     after (.codewordDecode 0 true (b.take 4) (b.drop 4)) (linked 4) fun t =>
      (t.port 0).fecUncorr == 1 && (t.port 0).rx.decoded.isEmpty) = true := by
  decide +kernel

/-- A frame cut out of the words of a block. -/
theorem test_a_frame_is_cut :
    (let f := { ctl 1 true 0 0 with atBlock := true }
     let c := Cutter.block ⟨false, [], false, false⟩ ((words f).flatten ++ List.replicate (320 - 32) 0) false false
     c.2 == [⟨f, false⟩] && c.1 == ⟨false, [], false, false⟩) = true := by
  decide +kernel

theorem test_retry_timeout :
    (let s := fun n => (linked 4).setPort 0 fun q => { q with rx := { q.rx with retryOut := true, retryCount := n } }
     after (.retryTimeout 0) (s 6) (fun t => t.out.length == 1 && (t.port 0).rx.retryCount == 7 && (t.port 0).state == 4) &&
      after (.retryTimeout 0) (s 7) fun t => (t.port 0).state == 7 && (t.port 0).cause == 3) = true := by
  decide +kernel

theorem test_ack_and_credit_timers :
    (let s := (linked 4).setPort 0 fun q => { q with rx := { q.rx with ackDue := true } }
     after (.ackTimer 0) s (fun t => t.out.length == 1 && !(t.port 0).rx.ackDue) &&
      after (.creditTimer 0) (linked 5) fun t => t.out.length == 1) = true := by
  decide +kernel

theorem test_degrade_timers :
    (let s := (linked 5).setPort 0 fun q => { q with realign := true, lanes := q.lanes.set 0 { Lane.reset with bad := true } }
     after (.degradeRepeat 0) s (fun t => t.out.length == 1) &&
      after (.degradeRealignTimeout 0) s fun t => (t.port 0).state == 7 && (t.port 0).cause == 6 && !(t.port 0).realign) = true := by
  decide +kernel

theorem test_a_widening_that_fails_goes_back :
    (let s := (linked 5).setPort 0 fun q => { q with widen := true }
     after (.degradeRealignTimeout 0) s fun t => (t.port 0).state == 5 && (t.port 0).realign && !(t.port 0).widen) = true := by
  decide +kernel

theorem test_training_attempts :
    (up.verified && (up.peer 0).isSome && after (.trainingAttempt 0) up (fun t => (t.port 0).state == 1 && (t.port 0).attempt == 1 && t.pins.adaptReq == 1) &&
      ((linked 2).port 0).aligned && after (.trainingAttempt 0) (linked 2) fun t => (t.port 0).state == 3 && (t.port 0).attempt == 2 && t.out.length == 1) = true := by
  decide +kernel

theorem test_training_timeouts :
    (let s := fun (n : Nat) => up.setPort 0 fun q => { q with attempt := n }
     after (.trainingAlignTimeout 0) (s 1) (fun t => (t.port 0).attempt == 0 && (t.port 0).failed == 1 && (t.port 0).lastFail == 1) &&
      after (.trainingIdentTimeout 0) (s 2) fun t => (t.port 0).attempt == 0 && (t.port 0).lastFail == 2) = true := by
  decide +kernel

theorem test_adapt_done :
    (after (.adaptDone 3) { up with pins := { up.pins with adaptReq := 0xFF } } fun t => t.pins.adaptReq == 0xF7) = true := by
  decide +kernel

/-! ### Scale-out RDMA -/

/-- Both Ethernet ports UP with their configuration; queue 3 in RTS on port 0. -/
def qp (f : Queue → Queue) : State :=
  let port : EthPort := { EthPort.reset with state := 2, locked := true }
  let rdma : RdmaDecl := ⟨[⟨0xAA, 0, 0⟩, ⟨0xBB, 0, 0⟩], 0x9000⟩
  let s := { up with image := some { img with rdma := rdma } }
  ej s fun j => { j with loaded := true, ports := [port, port], queues := [f (freshQueue 3 1 QpCtx.zero 16 0)] }

def queued : State := qp id

def ctxBytes (state : Nat) : List Byte :=
  bytesLE 1 state ++ List.replicate 7 0 ++ bytesLE 3 5 ++ [0] ++ bytesLE 3 9 ++ List.replicate 26 0 ++ [0, 1, 1, 0, 0, 0, 0] ++
    List.replicate 6 0 ++ [4, 0] ++ List.replicate 6 0 ++ [4, 0] ++ List.replicate 6 0 ++ [4, 0] ++ bytesLE 4 4096 ++ List.replicate 52 0

theorem test_qp_context_load :
    (let s := { queued with hostMem := memWrite [] (0x9000 + 128 * 4) (ctxBytes 1) }
     (parseCtx (ctxBytes 1)).isSome && after (.qpContextLoad .mw 0x10004) s fun t =>
      ((t.queue 4).map fun q => (q.state, q.nextPsn, q.expPsn)) == some (1, 5, 9) && t.js.mw == ⟨0, 0⟩) = true := by
  decide +kernel

theorem test_qp_context_load_in_rts :
    (let s := { queued with hostMem := memWrite [] (0x9000 + 128 * 3) (ctxBytes 1) }
     after (.qpContextLoad .mw 0x10003) s (fun t => t.js.mw == ⟨4, 0⟩ && t.js.rejCount == 1) &&
      after (.qpContextLoad .mw 0x10003) { queued with hostMem := memWrite [] (0x9000 + 128 * 3) (ctxBytes 0) } fun t =>
        ((t.queue 3).map Queue.state) == some 0) = true := by
  decide +kernel

theorem test_doorbells_post :
    (let s := ej queued fun j => { j with pi := 1 }
     after (.sqDoorbell .mw 3) s (fun t => ((t.queue 3).map Queue.sqPi) == some 1 && t.js.mw == ⟨0, 0⟩) &&
      after (.rqDoorbell .sm 0x20003) s fun t => ((t.queue 3).map Queue.rqPi) == some 1 && t.js.sm == ⟨0, 0⟩) = true := by
  decide +kernel

def write1 : SqOp :=
  ⟨{ opcode := 2, signal := true, isFinal := false, wait := false, lspace := 0, length := 64, laddr := 0, raddr := 0, rkey := 0, imm := 0,
     waitQ := 0, waitCount := 0, wrId := 77, inline := none, exportLast := false }, 8, 1, true, 1, 0, 0⟩

/-- A frame of port 0 that passes every check of the MAC. -/
def rx0 : EthRx := ⟨0, ⟨200, true, true, true, 0xAA, true, false, true, 0, 0⟩⟩

def sending (f : Queue → Queue) : State := qp fun q => f { q with ops := [write1], nextPsn := 9 }

theorem test_roce_ack :
    ((sending id).roceGood 0 rx0.mac && (sending id).connected 0 0x100003 != none && after (.roceAck rx0 0x100003 8) (sending id) fun t =>
      ((t.queue 3).map fun q => (q.ops.length, q.completions, q.cqCount)) == some (0, 1, 1) && memNat t.hostMem 0 8 == 77 &&
        memGet t.hostMem 31 == 1) = true := by
  decide +kernel

theorem test_roce_nak_access :
    (after (.roceNak rx0 0x100003 8 .remoteAccess) (sending id) fun t =>
      ((t.queue 3).map fun q => (q.state, q.ops.length)) == some (2, 0) && t.je.errValid) = true := by
  decide +kernel

theorem test_roce_nak_past_the_limit :
    (let s := sending fun q => { q with tries := 1 }
     ((s.queue 3).map fun q => (q.ackOps 7 q.ops).1) == some 0 && after (.roceNak rx0 0x100003 8 .psnSequence) s fun t =>
      ((t.queue 3).map Queue.state) == some 2) = true := by
  decide +kernel

theorem test_roce_nak_resends :
    (let s := sending fun q => { q with ctx := { q.ctx with retry := 2 }, tries := 1 }
     after (.roceNak rx0 0x100003 8 .psnSequence) s fun t =>
      ((t.queue 3).map fun q => (q.state, q.tries, q.ops.map SqOp.sent)) == some (1, 2, [1])) = true := by
  decide +kernel

theorem test_rnr_nak_past_the_limit :
    (after (.rnrNak rx0 0x100003 8 4) (sending fun q => { q with ctx := { q.ctx with rnrRetry := 2 }, rnrTries := 2 }) fun t =>
      ((t.queue 3).map Queue.state) == some 2) = true := by
  decide +kernel

theorem test_rnr_nak :
    (after (.rnrNak rx0 0x100003 8 4) (sending fun q => { q with ctx := { q.ctx with rnrRetry := 7 } }) fun t =>
      ((t.queue 3).map fun q => (q.rnrWait, q.state)) == some (true, 1)) = true := by
  decide +kernel

theorem test_cnp_halves_once :
    (let s := fun h => qp fun q => { q with ctx := { q.ctx with ccEn := true }, window := 4096, halvedAt := h }
     after (.cnp rx0 0x100003) (s none) (fun t => ((t.queue 3).map fun q => (q.window, q.halvedAt)) == some (2048, some 0)) &&
      after (.cnp rx0 0x100003) (s (some 5)) fun t => ((t.queue 3).map Queue.window) == some 4096) = true := by
  decide +kernel

theorem test_an_unsignalled_entry :
    (let q := { freshQueue 3 1 QpCtx.zero 16 0 with ops := [{ write1 with entry := { write1.entry with signal := false } }] }
     let r := up.ackUpTo q 8
     0 < q.packetLen write1.entry 0 && r.2.ops.isEmpty && r.2.completions == 1 && decide (r.1 = up)) = true := by
  decide +kernel

def reading (got : Nat) : State :=
  qp fun q => { q with ops := [⟨{ write1.entry with opcode := 4, lspace := 1, length := 1088, laddr := 0x40 }, 8, 1, true, 1, 0, got⟩], nextPsn := 10 }

theorem test_read_response_middle :
    (after (.readResponse rx0 0x100003 8 (List.replicate 1024 7) false) (reading 0) fun t =>
      ((t.queue 3).bind fun q => q.ops.head?.map SqOp.got) == some 1024) = true := by
  decide +kernel

theorem test_read_response_last :
    (after (.readResponse rx0 0x100003 9 (List.replicate 64 7) true) (reading 1024) fun t =>
      memGet t.stateMem 0x440 == 7 && ((t.queue 3).map fun q => (q.ops.length, q.completions)) == some (0, 1)) = true := by
  decide +kernel

def pktOf (psn : BitVec 24) : RocePacket :=
  ⟨⟨200, true, true, true, 0xAA, true, false, true, 0, 0⟩, 0x100003, .writeOnly, psn, true, 4, 0, [1, 2, 3, 4], 0x40_1FFFFE, 0x77⟩

/-- The packet's region: two pages at 0x500 and 0x600000, the second perhaps not present. -/
def regioned (second : Bool) (s : State) : State :=
  ej s fun j => { j with regions := [⟨1, 0x77, 0x40_000000, 0x400000, true, true, [(true, 0x1000000), (second, 0x600000)]⟩] }

theorem test_roce_write_is_placed :
    (let s := regioned true queued
     s.roceGood 0 (pktOf 0).eth && s.sendsIdle &&
      (match s.lookup 0x77 0x40_1FFFFE 4 true none with
        | .good l => l == [(0x11FFFFE, 2), (0x600000, 2)]
        | _ => false) && after (.roceRequestPacket 0 (pktOf 0)) s fun t =>
      memRead t.hostMem 0x11FFFFE 2 == [1, 2] && memRead t.hostMem 0x600000 2 == [3, 4] && ((t.queue 3).map Queue.expPsn) == some 1 &&
        t.out.contains (.roce 0 3 (.ack 0))) = true := by
  decide +kernel

theorem test_roce_write_ahead :
    (after (.roceRequestPacket 0 (pktOf 1)) queued (fun t => t.hostMem == [] && ((t.queue 3).map fun q => (q.expPsn, q.nakFor)) == some (0, some 0) &&
        t.out == [.roce 0 3 (.nak 0 .psnSequence)]) &&
      after (.roceRequestPacket 0 (pktOf 0x7FFFFF)) queued fun t => t.out == [.roce 0 3 (.nak 0 .psnSequence)]) = true := by
  decide +kernel

theorem test_roce_mac_drops :
    (let e := fun (f : EthIn → EthIn) => { pktOf 0 with eth := f (pktOf 0).eth }
     after (.roceRequestPacket 0 (e fun x => { x with len := 63, parses := false })) queued (fun t => (t.eth 0).cntSize == 1 && t.hostMem == []) &&
      after (.roceRequestPacket 0 (e fun x => { x with len := 9217, parses := false })) queued (fun t => (t.eth 0).cntSize == 1) &&
      after (.roceRequestPacket 0 (e fun x => { x with fcsOk := false })) queued (fun t => (t.eth 0).cntFcs == 1 && t.hostMem == []) &&
      after (.roceRequestPacket 0 (pktOf 0)) (ej queued fun j => { j with loaded := false }) fun t => (t.eth 0).cntEarly == 1) = true := by
  decide +kernel

theorem test_pfc_frame :
    (queued.je.ports.length == 2 && after (.pfcFrame 0 0x03 [5, 0, 0, 0, 0, 0, 0, 0])
        (queued.setEth 0 fun p => { p with paused := 0x0A }) fun t => (t.eth 0).paused == 0x09) = true := by
  decide +kernel

theorem test_pfc_timers :
    (let s := queued.setEth 1 fun p => { p with paused := 0x04, xoffSent := 0x81 }
     after (.pfcPauseExpiry 1 2) s (fun t => (t.eth 1).paused == 0) &&
      after (.pfcXoffRepeat ⟨1, []⟩) s (fun t => t.out == [.pfc 1 0 true, .pfc 1 7 true]) &&
      after (.pfcXoffRepeat ⟨1, [5]⟩) (s.setEth 1 fun p => { p with xoff := 70 }) (fun t => t.out == [.pfc 1 0 false, .pfc 1 7 true]) &&
      s.eventsIn && after (.pfcHoldTimeout 1 2) s fun t => code t == 0x0804) = true := by
  decide +kernel

theorem test_queue_timers :
    (let s := fun n => sending fun q => { q with tries := n }
     after (.roceAckTimeout 3) (s 0) (fun t => ((t.queue 3).map fun q => (q.state, q.tries)) == some (1, 1)) &&
      after (.roceAckTimeout 3) (s 1) (fun t => ((t.queue 3).map Queue.state) == some 2 && t.je.errValid) &&
      after (.rnrTimerExpiry 3) (sending fun q => { q with rnrWait := true }) fun t => ((t.queue 3).map Queue.rnrWait) == some false) = true := by
  decide +kernel

theorem test_page_done :
    (let s := regioned false <| ej (qp fun q => { q with stalled := true }) fun j => { j with parked := [⟨0, 3, 1, 1, pktOf 0⟩] }
     s.listening && s.sendsIdle && after (.pageDone .mw 0x40000000) s fun t =>
      t.je.parked.isEmpty && ((t.queue 3).map fun q => (q.stalled, q.expPsn)) == some (false, 1) && t.js.mw == ⟨0, 0⟩ &&
        memRead t.hostMem 0x600000 2 == [3, 4]) = true := by
  decide +kernel

theorem test_eth_link_change :
    (after (.ethLinkChange 1 false) queued (fun t => (t.eth 1).state == 0 && code t == 0x0803) &&
      after (.ethLinkChange 0 true) { up with je := JeBlock.reset } fun t => (t.eth 0).state == 1 && (t.eth 0).locked) = true := by
  decide +kernel

theorem test_eth_config_load :
    (let s := { up with je := { JeBlock.reset with ports := [{ EthPort.reset with locked := true, state := 1, xoffSent := 0xFF }, EthPort.reset] } }
     s.js.boot.verified && after .ethConfigLoad s fun t => t.je.loaded && (t.eth 0).state == 2 && (t.eth 0).xoffSent == 0 && (t.eth 1).state == 0) = true := by
  decide +kernel

/-! ### The Mover and the memory ports -/

/-- Channel n in a state whose host memory holds bytes 1 to 8 at 0x100. -/
def chan (n : Nat) (f : Chan → Chan) : State :=
  { up with hostMem := memWrite [] 0x100 [1, 2, 3, 4, 5, 6, 7, 8] }.setChan n f

def set1 (c : Chan) : Chan := { c with src := 0x100, dst := 0x200, cnt := 8 }

theorem test_service_channel_closed :
    (let s := chan 5 set1
     s.listening && s.chanClosed 5 && after (.moverStart .mw 5 1) s (fun t => t.js.mw == ⟨4, 0⟩ && t.js.rejOffset == 0x090140 && !(t.chan 5).busy) &&
      after (.moverPause .mw 5 2) s (fun t => t.js.mw == ⟨4, 0⟩) && after (.moverStop .sm 5 4) s fun t => t.js.sm == ⟨4, 0⟩) = true := by
  decide +kernel

theorem test_mover_start :
    (let s := chan 50 set1
     !s.chanClosed 50 && s.startErr true (s.chan 50) == 0 && after (.moverStart .mw 50 1) s fun t =>
      (t.chan 50).busy && (t.chan 50).srcAt == 0x100 && (t.chan 50).cntAt == 8 && t.js.mw == ⟨0, 0⟩) = true := by
  decide +kernel

theorem test_mover_start_errors :
    (let s := chan 50 set1
     -- 7 bytes in 2-byte swap units; the tile scratchpads while running; watermarks the wrong way round
     after (.moverStart .mw 50 0x801) (s.setChan 50 fun c => { c with cnt := 7 }) (fun t => (t.chan 50).err == 1 && !(t.chan 50).busy) &&
      after (.moverStart .mw 50 0x201) s (fun t => (t.chan 50).err == 2 && !(t.chan 50).busy) &&
      after (.moverStart .mw 50 0x4001) (s.setChan 50 fun c => { c with pace := 0x00500500 }) fun t => (t.chan 50).err == 3) = true := by
  decide +kernel

theorem test_mover_pause_unpause_stop :
    (let s := chan 50 fun c => { set1 c with busy := true }
     after (.moverPause .mw 50 2) s (fun t => (t.chan 50).pause && !(t.chan 50).paused && t.js.mw == ⟨0, 0⟩) &&
      after (.moverPause .mw 50 2) (s.setChan 50 fun c => { c with paced := true }) (fun t => (t.chan 50).paused) &&
      after (.moverUnpause .mw 50 0) (s.setChan 50 fun c => { c with pause := true, paused := true })
        (fun t => !(t.chan 50).pause && !(t.chan 50).paused && (t.chan 50).busy) &&
      after (.moverUnpause .mw 50 0x200) (s.setChan 50 fun c => { c with pause := true, paused := true, ctl := 0x200 })
        (fun t => !(t.chan 50).pause && (t.chan 50).paused && (t.chan 50).err == 2) &&
      after (.moverUnpause .mw 50 0) (s.setChan 50 fun c => { c with pause := true })
        (fun t => !(t.chan 50).pause && (t.chan 50).fetch == 8 && t.jm.asked.length == 1) &&
      after (.moverStop .mw 50 4) s (fun t => (t.chan 50).stopping && (t.chan 50).busy) &&
      after (.moverStop .mw 50 4) (s.setChan 50 fun c => { c with paced := true }) fun t => !(t.chan 50).busy) = true := by
  decide +kernel

theorem test_mover_complete :
    (let s := chan 50 fun c => { set1 c with busy := true, ctl := 0x1000, cnt := 4 }
     after (.moverComplete 50) s fun t => memRead t.hostMem 0x200 5 == [3, 4, 1, 2, 0] && t.jm.done == BitVec.ofNat 64 (2 ^ 50) &&
      (t.chan 50).cnt == 0 && !(t.chan 50).busy && (t.chan 50).completions == 1) = true := by
  decide +kernel

theorem test_mover_swap_reverses :
    (after (.moverComplete 5) (chan 5 fun c => { set1 c with busy := true, ctl := 0x1800, cnt := 4 }) fun t => memRead t.hostMem 0x200 4 == [4, 3, 2, 1]) = true := by
  decide +kernel

theorem test_mover_complete_circular :
    (let s := { chan 50 fun c => { set1 c with busy := true, ctl := 0x8000, srcAt := 0x100, dstAt := 0x200, cntAt := 8 } with
        jm := { (chan 50 fun c => { set1 c with busy := true, ctl := 0x8000, srcAt := 0x100, dstAt := 0x200, cntAt := 8 }).jm with
          done := BitVec.ofNat 64 (2 ^ 50) } }
     after (.moverComplete 50) s fun t => (t.chan 50).busy && (t.chan 50).overrun && (t.chan 50).src == 0x100 && (t.chan 50).cnt == 8) = true := by
  decide +kernel

theorem test_mover_drained :
    (let s := chan 50 fun c => { set1 c with busy := true, stopping := true }
     after (.moverDrained 50 3) s (fun t => memRead t.hostMem 0x200 4 == [1, 2, 3, 0] && !(t.chan 50).busy && (t.chan 50).cnt == 5) &&
      after (.moverDrained 50 8) (s.setChan 50 fun c => { c with stopping := false, pause := true }) fun t =>
        (t.chan 50).paused && (t.chan 50).cnt == 0) = true := by
  decide +kernel

theorem test_pacing_threshold :
    (let s := fun drain was => chan 50 fun c =>
        { set1 c with busy := true, ctl := 0x4000, pace := 0x00A00203 ||| (if drain then 0x10 else 0), paced := was }
     -- LOW 2, HIGH 10
     after (.pacingThreshold 3 10) (s false false) (fun t => (t.chan 50).paced && t.jm.ownFill.getD 3 0 == 10) &&
      after (.pacingThreshold 3 9) (s false true) (fun t => (t.chan 50).paced) &&
      after (.pacingThreshold 3 2) (s false true) (fun t => !(t.chan 50).paced) &&
      after (.pacingThreshold 3 2) (s true false) (fun t => (t.chan 50).paced) &&
      after (.pacingThreshold 7 12) (s false false) fun t => !(t.chan 50).paced) = true := by
  decide +kernel

/-- Channel 61 runs entry 0 of its offload list: 64 bytes between host 0x400 and the area's 0x40, flag at 0x800. -/
def offload (out last : Bool) : State :=
  let s := { up with image := some { img with decl := { decl with offload := some ⟨0x10000, 0x1000, [⟨0, 0⟩, ⟨0x2000, 4⟩, ⟨0, 0⟩, ⟨0, 0⟩]⟩ } } }
  let w := 0x400 + 0x40 * 2 ^ 64 + 64 * 2 ^ 128 + b2n out * 2 ^ 160 + b2n last * 2 ^ 161 + 0x800 * 2 ^ 192
  { s with hostMem := memWrite (memWrite [] 0x2000 (bytesLE 32 w)) 0x400 [5, 6], stateMem := memWrite [] 0x10040 [7, 8] }.setChan 61 fun c =>
    { c with busy := true, offRun := true }

theorem test_offload_entry_complete :
    (after (.offloadEntryComplete 61) (offload true true) (fun t => memRead t.hostMem 0x400 2 == [7, 8] && memNat t.hostMem 0x800 8 == 0x100000000 &&
        t.jm.done == BitVec.ofNat 64 (2 ^ 61) && (t.chan 61).offIdx == 0 && !(t.chan 61).offRun) &&
      after (.offloadEntryComplete 61) (offload false false) fun t => memRead t.stateMem 0x10040 2 == [5, 6] && (t.chan 61).offIdx == 1) = true := by
  decide +kernel

def asks (port : MemPort) (unit : Byte) : MemReq := ⟨port, 7, unit, 50, 0, 0x1000, true⟩

/-- A read of 8 bytes at 0x100 by channel 50 holds tag 0 of HM0. -/
def asking : State := (chan 50 fun c => { set1 c with busy := true }).fetchNext 50

theorem test_mem_response_of_a_read :
    (let r : MemReq := ⟨.hm 0, 0, 0, 0, 0, 0, false⟩
     ((asking.holder (.hm 0) 0).map fun q => (q.unit, q.chan, q.write, q.len)) == some (0x2E, 50, false, 8) &&
      after (.memResponse r 0 false false) asking (fun t => memRead t.hostMem 0x200 8 == [1, 2, 3, 4, 5, 6, 7, 8] && (t.chan 50).cnt == 0 &&
        ((t.holder (.hm 0) 0).map fun q => q.write) == some true) &&
      after (.memResponse r 2 false false) asking fun t => (t.chan 50).halt && (t.chan 50).faddr == 0x100 && !(t.chan 50).dir && t.jm.asked == []) = true := by
  decide +kernel

theorem test_mem_response_of_a_write :
    (let s := up.hostWrite 0x2B 0x40 [1]
     (s.holder (.hm 0) 0).isSome && after (.memResponse ⟨.hm 0, 0, 0, 0, 0, 0x40, true⟩ 0 false false) s fun t => t.jm.asked == []) = true := by
  decide +kernel

/-- Row 0's slot 1 of the mask at 0x5000. -/
theorem test_a_damaged_mask :
    (let r : MemReq := ⟨.sp 8, 7, 3, 0, 0, BitVec.ofNat 48 (cat.maskSlot 0 1), false⟩
     after (.memResponse r 1 false false) up fun t => t.ji.maskBad.contains (cat.maskSlot 0 1) && t.jq.verdict.fault) = true := by
  decide +kernel

theorem test_mem_response :
    (let s := chan 50 fun c => { set1 c with busy := true }
     let r := asks (.sp 15) 3
     !(s.jm.retired.any fun x => x == (r.port, r.tag)) && after (.memResponse r 0 false true) s (fun t => t.jm.spLateRef == s.jm.spLateRef) &&
      after (.memResponse r 0 true true) s (fun t => t.jm.spLateRef.getD 15 0 == 1 && t.jm.lateRef == [15]) &&
      after (.memResponse r 0 true false) s (fun t => t.jm.spLate.getD 15 0 == 1) &&
      after (.memResponse r 1 false false) s (fun t => t.jq.verdict.fault && t.jm.spErr.getD 15 0 == 1 && code t == 0x0902)) = true := by
  decide +kernel

theorem test_mem_response_of_the_mover :
    (let s := chan 50 fun c => { set1 c with busy := true }
     after (.memResponse (asks (.hm 0) 0x2E) 3 false false) s (fun t =>
        (t.chan 50).halt && !(t.chan 50).busy && (t.chan 50).faddr == 0x1000 && (t.chan 50).dir && !t.jq.verdict.fault) &&
      after (.memResponse { asks (.hm 0) 0x2E with chan := 47 } 1 false false) s fun t =>
        t.jq.verdict.fault && (t.chan 47).halt) = true := by
  decide +kernel

theorem test_mem_request_timeout :
    (after (.memRequestTimeout (asks (.sp 2) 3)) up fun t => t.jm.retired == [(.sp 2, 7)] && t.jg.member.state == 2 && t.jg.member.cause == 3 &&
      t.jq.verdict.fault) = true := by
  decide +kernel

/-! ### The block codec -/

def region0 (slot spill flag : Nat) (isSealed : Bool) (mask : BitVec 4) : RegionEntry :=
  { num := 0, home := 0x10000, nblkM1 := 3, fmt := 1, slot := slot, isSealed := isSealed, tmask := mask, spill := spill, flag := flag, reservedBad := false }

/-- Symbol 0 has a code of one bit, symbol 1 of two. -/
def table0 : PrefixTable := ⟨1, [1, 2], false⟩

def zeros : List Byte := List.replicate 64 0

def ramp : List Byte := (List.range 64).map fun i => BitVec.ofNat 8 (i + 2)

def coded (r : RegionEntry) (raw : List Byte) : State :=
  let lt := { live0 with prefixes := [(2, table0)] }
  cj { up with image := some { img with regions := [r] }, live := ⟨lt, lt, none⟩ } fun j => { j with reqs := [⟨0, 1, 0, raw, none, false⟩] }

theorem test_kv_block_sealed :
    (after (.kvBlockEncode 1) (coded (region0 0 0 0 true 0) ramp) fun t => memRead t.hostMem 0x11000 2 == [2, 3] &&
      t.jc.reqs.map KvReq.issued == [true] && t.jc.raw == 0) = true := by
  decide +kernel

theorem test_kv_block_waits_for_its_payload :
    (let s := cj (coded (region0 0 0 0 true 0) ramp) fun j => { j with reqs := j.reqs.map fun q => { q with queue := some 2 } }
     after (.kvBlockEncode 1) s fun t => decide (t = s)) = true := by
  decide +kernel

theorem test_kv_block_raw :
    (after (.kvBlockEncode 1) (coded (region0 1 0x8000 0 false 4) ramp) fun t => memRead t.hostMem 0x11000 2 == [0xA7, 0x03] &&
      memRead t.hostMem 0x11010 2 == [18, 19] && memRead t.hostMem 0x8010 2 == [2, 3] && t.jc.raw == 1) = true := by
  decide +kernel

/-- Eight sub-streams of 8 bits; header byte 1 says FP8 and table 2. -/
theorem test_kv_block_compressed :
    (let r := region0 0 0x8000 0 false 4
     let c := choosePod [(2, table0)] r zeros
     let pod := podBytes 1 2 0 ((c.map PodChoice.body).getD []) zeros
     (c.map PodChoice.table) == some 2 && decide (podTotal 1 ((c.map PodChoice.body).getD []) ≤ slotBytes 0) && pod.length == 24 &&
      pod.take 2 == [0xA7, 0x12] && natLE ((pod.drop 2).take 2) % 1024 == 1) = true := by
  decide +kernel

theorem test_kv_block_too_large :
    (let t12 : PrefixTable := ⟨0, [12], false⟩
     let lt := { live0 with prefixes := [(2, t12)] }
     let r := { region0 0 0x8000 0 false 4 with fmt := 0 }
     -- 176 codes of 12 bits, and the mantissa plane
     let s := { coded r (List.replicate 352 0) with live := ⟨lt, lt, none⟩ }
     (choosePod [(2, t12)] r (List.replicate 352 0)).isSome && after (.kvBlockEncode 1) s fun t => t.jc.raw == 1 && t.jc.compressed == 0) = true := by
  decide +kernel

theorem test_kv_block_written :
    (let s := fun flag => cj (coded (region0 0 0 flag true 0) ramp) fun j => { j with reqs := j.reqs.map fun q => { q with issued := true } }
     after (.kvBlockWritten 0 1) (s 0) (fun t => tabGet 0 t.jc.written == some 1 && t.jc.reqs.isEmpty && t.hostMem == []) &&
      after (.kvBlockWritten 0 1) (s 0x40) fun t => memNat t.hostMem 0x40 8 == 1) = true := by
  decide +kernel

def xe (f : JcBlock → JcBlock) : State := cj up fun j => f { j with xeLoaded := true, xeCur := [(2, table0)], xePrev := [(2, table0)] }

theorem test_xt_config_write :
    (let s := fun rest => xe fun j => { j with xtDue := (0x123, 9) :: rest }
     let staged := fun (s : State) => { s with live := { s.live with staged := some live0 } }
     after .xtConfigWrite (s [(0x124, 8)]) (fun t => t.out == [.xt 0x123 9] && t.jc.xtDue == [(0x124, 8)] && tabGet 0x123 t.jc.xeWords == some 9) &&
      after .xtConfigWrite (staged (s [(0x124, 8)])) (fun t => !t.jg.epoch.staged) &&
      after .xtConfigWrite (s []) (fun t => !t.jg.epoch.staged && t.jc.xtDue.isEmpty) &&
      after .xtConfigWrite (staged (s [])) fun t => t.jg.epoch.staged) = true := by
  decide +kernel

theorem test_xt_first_load :
    (let s := cj up fun j => { j with xtDue := [(0x800 + 4, 0x21)] }
     after .xtConfigWrite s fun t => t.jc.xeLoaded && ((t.jc.xeCur.head?.map fun p => p.2.lens.take 2) == some [1, 2]) && t.jc.xePrev == t.jc.xeCur) = true := by
  decide +kernel

theorem test_xt_epoch_advance :
    (let s := gj (xe fun j => { j with xeWords := [(0x800 + 4, 0x21)] }) fun g => { g with epoch := { g.epoch with current := 1 } }
     after .xtEpochAdvance s fun t => t.pins.xtEpoch == 1 && t.jc.xePrev == [(2, table0)] && t.jc.xeCur.length == 4) = true := by
  decide +kernel

theorem test_xr_report :
    (let s := fun v => xe fun j => { j with badValid := v }
     up.eventsIn && after (.xrReport (3 + 9 * 2 ^ 3 + 0x123456 * 2 ^ 11 + 0xE * 2 ^ 35)) (s false) (fun t =>
        t.jc.badCause == 3 && t.jc.badRegion == 9 && t.jc.badBlock == 0x123456 && t.jc.badXe == 0xE && t.jc.badCount == 1 && code t == 0x0A01) &&
      after (.xrReport 3) (s true) fun t => t.jc.badCause == 0 && t.jc.badCount == 1) = true := by
  decide +kernel

/-- An expander whose region 0 is the region given. -/
def expander (r : RegionEntry) (f : JcBlock → JcBlock) : State :=
  xe fun j => f { j with xeWords := ((groupsOf 4 (bytesLE 32 r.bits)).map w32LE).mapIdx fun k w => (k, w) }

def podOf (raw : List Byte) : List Byte :=
  let body := (podBody table0 1 raw).getD []
  podBytes 1 2 0 body raw

theorem test_expander_sealed :
    ((up.xeRegion 0).isSealed == false && after (.expanderSlot ⟨3, false⟩ 0 1 (List.replicate 2048 0)) (expander (region0 0 0 0 false 4) id)
        (fun t => t.out.length == 1 && t.jc.xeHeld == [(3, 1 + 1 * 2 ^ 11 + 3 * 2 ^ 35)]) && ((expander (region0 0 0 0 true 0) id).xeRegion 0).isSealed &&
      after (.expanderSlot ⟨3, true⟩ 0 1 [1, 2]) (expander (region0 0 0 0 true 0) id) fun t => t.out == [.expanded 3 [1, 2] false]) = true := by
  decide +kernel

theorem test_expander_bad_header :
    (after (.expanderSlot ⟨3, true⟩ 0 1 (List.replicate 2048 0)) (expander (region0 0 0 0 false 4) id) fun t =>
      t.out.length == 2 && t.out.getLast? == some (.xeErr (1 + 1 * 2 ^ 11 + 3 * 2 ^ 35))) = true := by
  decide +kernel

theorem test_expander_unknown_epoch :
    (let slot := podHeader 0 1 2 1 (List.replicate 8 0) []
     headerOk (region0 0 0 0 false 4) (natLE slot) && after (.expanderSlot ⟨3, true⟩ 0 1 slot) (expander (region0 0 0 0 false 4) id) fun t =>
      t.out.getLast? == some (.xeErr (2 + 1 * 2 ^ 11 + 3 * 2 ^ 35))) = true := by
  decide +kernel

theorem test_expander_raw_fetches :
    (let slot := podHeader 1 1 0 0 [] ramp ++ ramp.drop 16
     after (.expanderSlot ⟨3, true⟩ 0 1 slot) (expander (region0 1 0x8000 0 false 4) id) fun t =>
      t.out == [.fetch 3 0x8000 0, .fetch 3 (0x10000 + 4096 + 2560) 23] && t.jc.xeWait.length == 1) = true := by
  decide +kernel

theorem test_expander_lacks_the_table :
    (let slot := podHeader 0 1 1 0 (List.replicate 8 0) []
     headerOk (region0 0 0 0 false 4) (natLE slot) && after (.expanderSlot ⟨3, true⟩ 0 1 slot) (expander (region0 0 0 0 false 4) id) fun t =>
      t.out.getLast? == some (.xeErr (3 + 1 * 2 ^ 11 + 3 * 2 ^ 35))) = true := by
  decide +kernel

/-- A pod of 64 symbols where 4,096 are due: poison of cause 3 (R318). -/
theorem test_expander_compressed :
    (after (.expanderSlot ⟨3, true⟩ 0 1 (podOf zeros)) (expander (region0 0 0x8000 0 false 4) id) fun t =>
      t.out.getLast? == some (.xeErr (3 + 1 * 2 ^ 11 + 3 * 2 ^ 35)) && (tabGet 2 t.jc.xeCur).isSome) = true := by
  decide +kernel

theorem test_expander_fetch_response :
    (let slot := podHeader 1 1 0 0 [] ramp ++ ramp.drop 16
     let s := expander (region0 1 0x8000 0 false 4) fun j => { j with xeWait := [⟨3, 0, 1, slot⟩] }
     let line := List.replicate 16 (0 : Byte) ++ ramp.take 16 ++ List.replicate 32 0
     after (.expanderFetchResponse ⟨3, true⟩ line [] 0) s (fun t => t.out == [.expanded 3 ramp false] && t.jc.xeWait.isEmpty) &&
      after (.expanderFetchResponse ⟨3, true⟩ line [0] 0) s (fun t => t.out.getLast? == some (.xeErr (4 + 1 * 2 ^ 11 + 3 * 2 ^ 35))) &&
      after (.expanderFetchResponse ⟨3, true⟩ line [] 1) s fun t => t.out.getLast? == some (.xeErr (5 + 1 * 2 ^ 11 + 3 * 2 ^ 35))) = true := by
  decide +kernel

/-! ### State copies -/

def hdr0 (step : StepNo) : CopyHdr := { src := 0, lean := false, ext := false, step := step, dW := 0, dM1 := 0, dM2 := 0 }

theorem test_buddy_copies :
    (after .buddyCopyComplete { up with ju := { up.ju with outSt := 2 } } (fun t => t.ju.outSt == 0) &&
      after (.buddyHeaderReceive (hdr0 9)) up (fun t => t.ju.inSt == 1 && t.ju.inStep == 9 && t.ju.heldCopies == [⟨hdr0 9, [], 1⟩])) = true := by
  decide +kernel

theorem test_buddy_trailer :
    (let s := uj up fun j => { j with inSt := 1, heldCopies := [⟨{ hdr0 8 with src := 7 }, [9], 2⟩, ⟨hdr0 9, [], 1⟩] }
     after (.buddyTrailerReceive 0 [1, 2, 3] (crc64 [1, 2, 3])) s (fun t => t.ju.inSt == 2 && t.ju.heldCopies == [⟨hdr0 9, [1, 2, 3], 2⟩, ⟨{ hdr0 8 with src := 7 }, [9], 2⟩]) &&
      after (.buddyTrailerReceive 0 [1, 2, 3] (crc64 [1, 2, 4])) s fun t => t.ju.inSt == 3 && t.ju.fails == 1 && code t == 0x0603) = true := by
  decide +kernel

def running (code : Byte) (args : List W32) : State :=
  sj up fun j => { j with cmd := { CmdBlock.reset with busy := true, code := code, latched := args } }

theorem test_restore_data :
    (let s := running 0x26 [9, 0]
     s.cmdRuns 0x26 && after (.restoreDataReceive (hdr0 8) [] 0) s (fun t => t.jg.member.restoreDiscard == 1) &&
      after (.restoreDataReceive (hdr0 9) [] 0) up (fun t => t.jg.member.restoreDiscard == 1) &&
      after (.restoreDataReceive { hdr0 9 with src := 7 } [] 0) s (fun t => t.jg.member.restoreDiscard == 1) &&
      (let q := { s with jq := { s.jq with quiesced := true } }
       after (.restoreDataReceive { hdr0 9 with src := 7 } [1] 5) q fun t => t.jg.member.restoreDiscard == 0 && t.out.contains (.copy (q.copyPort 7) { hdr0 9 with src := 7 } [1] 5)) &&
      after (.restoreDataReceive (hdr0 9) [1] 0) s (fun t => t.js.cmd.outcome == some 3 && t.jq.step == 0)) = true := by
  decide +kernel

theorem test_restore_data_taken :
    (let s := { running 0x26 [9, 0] with stateMem := memWrite [] 0x20010 [9] }
     s.decl.factBase ≤ 0x20010 && after (.restoreDataReceive (hdr0 9) [] (crc64 [])) s fun t => t.jq.step == 10 && t.js.cmd.outcome == some 0 && t.jg.member.restores == 1) = true := by
  decide +kernel

theorem test_restore_ack_timeout :
    (after .restoreAckTimeout (running 0x25 [9, 0]) fun t => t.js.cmd.outcome == some 7) = true := by
  decide +kernel

/-! ### Resets and boot -/

theorem test_reset_pins :
    (after .jporNAssert up (fun t => t.inReset && t.js.boot.state == 0 && t.image.isNone && t.jg.epoch.previous == 3) &&
      after .jwrstNAssert (sj up fun j => { j with rejCount := 7, rejOffset := 0x44, ring := { j.ring with head := 9, lost := 2 } }) (fun t =>
        t.inReset && t.js.rejCount == 7 && t.js.rejOffset == 0x44 && t.js.ring.head == 9 && t.js.ring.lost == 0 && t.image.isNone) &&
      after (.jporNRelease true false) State.reset (fun t => !t.inReset && t.js.boot.inrush && t.js.boot.nvmMode && t.pins.adaptReq == 0xFF &&
        (t.eth 1).xoffSent == 0xFF)) = true := by
  decide +kernel

theorem test_jwrst_releases :
    (let s := fun done => bj { up with jp := { up.jp with inrushDone := done } } fun b => { b with jwrstLow := true, state := 0 }
     after .jwrstNRelease (s true) (fun t => t.js.boot.state == 1 && t.pins.adaptReq == 0xFF) &&
      after .jwrstNRelease (s false) fun t => t.js.boot.state == 0 && !t.js.boot.jwrstLow) = true := by
  decide +kernel

theorem test_inrush_done :
    (let s := fun low => bj { up with jp := { up.jp with inrushDone := false } } fun b => { b with jwrstLow := low, state := 0, inrush := true }
     after .inrushDone (s false) (fun t => t.jp.inrushDone && t.js.boot.state == 1 && !t.js.boot.inrush) &&
      after .inrushDone (s true) fun t => t.jp.inrushDone && t.js.boot.state == 0) = true := by
  decide +kernel

def booting : State := bj { State.reset with jp := { State.reset.jp with inrushDone := true } } fun b => { b with jporLow := false, state := 1 }

theorem test_fuse_ack_timeout :
    (booting.bootRuns && after (.fuseAckTimeout 25) booting fun t => t.js.boot.fuseMiss == [25]) = true := by
  decide +kernel

def seen (nvmOk : Bool) (fuses : List W64) : BootObs := ⟨12, false, nvmOk, fuses, 48, false, 1500000, 0, 20, 5⟩

theorem test_boot_without_flash :
    (after (.bootVerifyComplete (seen false [])) booting fun t => t.js.boot.state == 6 && t.js.boot.cause == 9 && !t.js.boot.verified) = true := by
  decide +kernel

theorem test_boot_without_a_record :
    ((bootCopy booting.nvm).isNone && booting.eventsIn && after (.bootVerifyComplete (seen true [])) booting fun t =>
      t.js.boot.state == 6 && t.js.boot.cause == 1 && code t == 0x0B01 && t.js.ring.irqFatal) = true := by
  decide +kernel

/-! ### A signed image: a P-384 key pair, its hash in fuse slot 1, the signature and the manifest hash computed outside this model -/

def pubKey : List Byte := 4 :: bytesBE 48 0xe051bfe46998d55fc31c19932ec0a0515fa4c14bab25dd78b4d919475de2e19fe2564df49067bc8ab579cf2cf99537e7 ++
  bytesBE 48 0xf0dc289ff800a5ec43e7b24674d24852c63b6a491684fc60b6e9a9b5c698b13eaf705a712d949c225bc9dbc17bf2c8e9

def fuses1 : List W64 :=
  List.replicate 6 0 ++ ((List.range 6).map fun k => BitVec.ofNat 64 (0x93e17d52f1caab2ece13a61e4e991878616499a589c930ddb0731c6ec6a9ed6a1e8f6a25edcc5ac731fe312bc8749633 / 2 ^ (64 * k))) ++
    List.replicate 14 0

/-- Domain 0, 256 regions with FMT 3, and four prefix tables of one coded symbol; the other sections are empty. -/
def sectionOf (typ : Nat) : Nat × List Byte :=
  match typ with
  | 0x06 => (1664, bytesLE 32 (7 + 2 ^ 32 + 2 ^ 54 + 4 * 2 ^ 96 + 4 * 2 ^ 112))
  | 0x0F => (1728, (List.replicate 256 (bytesLE 32 (3 * 2 ^ 88))).flatten)
  | 0x10 => (9920, (List.replicate 4 (List.replicate 16 0 ++ 1 :: List.replicate 255 0)).flatten)
  | _ => (1664, [])

def hashOf (typ : Nat) : List Byte := bytesBE 48 (match typ with
  | 0x06 => 0x5112c70981a1398c7806f44eb19dd34f16d55d8a11efa0d0223b0bc4ba981039b6d040c792fa75da7845f80b5dc5a648
  | 0x0F => 0x65cf3b18b239b10e808550d9849b3e1bd5297d5675a6e5abdb4910576c3936f23ab1946f59ecd2952dad49570ac6ff32
  | 0x10 => 0xca4839809acaf23edd673b9e1bf3ce2df8f47dbe1ed551e134b89f1175a78705f5e438d7686edb24671f642476a3d47f
  | _ => 0x38B060A751AC96384CD9327EB1B1E36A21FDB71114BE07434C0CC7BF63F6E1DA274EDEBFE76F65FBD51AD2F14898B95B)

def types : List (Nat × Byte) :=
  [(0x01, 1), (0x02, 3), (0x03, 3), (0x04, 1), (0x05, 1), (0x06, 1), (0x07, 1), (0x08, 3), (0x09, 3), (0x0A, 3), (0x0B, 1), (0x0C, 3), (0x0D, 1),
    (0x0E, 3), (0x0F, 1), (0x10, 3), (0x11, 3), (0x12, 3), (0x13, 3), (0x15, 1)]

def manEntry (typ : Nat) (flags : Byte) : List Byte :=
  bytesLE 2 typ ++ [flags, 0] ++ bytesLE 4 (sectionOf typ).1 ++ bytesLE 4 (sectionOf typ).2.length ++ List.replicate 4 0 ++ hashOf typ

def signed (content : RunImage) : SxiFile :=
  { header := sxiMagic ++ [2, 0, 1, 0, 0, 0, 0, 0] ++ bytesLE 4 11008 ++ bytesLE 4 256 ++ bytesLE 2 20 ++ List.replicate 38 0 ++ pubKey ++
      List.replicate 95 0,
    manifest := types.flatMap fun p => manEntry p.1 p.2,
    signature := bytesBE 48 0x280f8c03b44efc8edf0169ffc6412dc64b5d2ad799872ac752fe34c2042a71892680b67d177f9200cb8cb52fd3926052 ++
      bytesBE 48 0x42fdb0b99ccbd8a07c44a681667bdbdb2831526c85f27053d8b1f1061ab4036996700cab647e167cd27f03ffd4625db3,
    sections := types.map fun p => (sectionOf p.1).2, content := content }

def bootImg (grade : Nat) : RunImage :=
  { RunImage.empty with
    decl := { decl with grade := grade, spare := [] }, live := { LiveTables.empty with phases := [⟨0, 8⟩] } }

def mhash1 : List Byte :=
  bytesBE 48 0x929a274b1f12c880da749b5fd2065857f0bce01d11237064e1e273c9f355de5b80ad4581a6ae4f92d340ee7a626ca4b5

def flashed (content : RunImage) : State :=
  { booting with nvm := ⟨CommitRec.pack ⟨false, 1, 11008, mhash1⟩, erasedRecord, some (signed content), none⟩ }

/-- The file of these tests; its checks 1–6 do not look at the decoded content. -/
def goodFile : SxiFile := signed RunImage.empty

theorem test_header_key_and_signature :
    (goodFile.header.length == 256 && goodFile.fail15 fuses1 == none && goodFile.fail15 (List.replicate 26 0) == some ⟨3, 0, 0, 0⟩) = true := by
  decide +kernel

theorem test_a_changed_byte_fails_the_signature :
    ({ goodFile with manifest := goodFile.manifest.set 3 1 }.fail15 fuses1 == some ⟨5, 0, 0, 0⟩) = true := by
  decide +kernel

theorem test_section_hashes : (hashFail goodFile.entries == none) = true := by
  decide +kernel

theorem every_section_boots : (goodFile.entries.all ManEntry.boot) = true := by
  decide +kernel

theorem test_manifest_hash : (goodFile.mhash == mhash1) = true := by
  decide +kernel

theorem checks_1_to_5 (c : RunImage) : (signed c).fail15 fuses1 = none := by
  have h := test_header_key_and_signature
  simp only [Bool.and_eq_true, beq_iff_eq] at h
  exact h.1.2

theorem good_file_boots (c : RunImage) (h : (loadFail (signed c).tables goodFile.entries).isNone = true) : (signed c).bootFail fuses1 = none := by
  have e : (signed c).entries.filter ManEntry.boot = goodFile.entries := List.filter_eq_self.2 (List.all_eq_true.1 every_section_boots)
  simp only [SxiFile.bootFail, checks_1_to_5, e, beq_iff_eq.1 test_section_hashes]
  exact Option.isNone_iff_eq_none.1 h

theorem good_file_reads_back (c : RunImage) : (signed c).readBackOk fuses1 = true := by
  have e : (signed c).entries = goodFile.entries := rfl
  simp only [SxiFile.readBackOk, checks_1_to_5, e, beq_iff_eq.1 test_section_hashes, Option.isNone_none, Bool.and_self]

theorem good_file_hash (c : RunImage) : (signed c).mhash = mhash1 := beq_iff_eq.1 test_manifest_hash

theorem test_commit_records :
    commitRec (CommitRec.pack ⟨false, 1, 11008, mhash1⟩) = some ⟨false, 1, 11008, mhash1⟩ ∧ commitRec erasedRecord = none := by
  decide +kernel

theorem record_1_boots (c : RunImage) : bootCopy (flashed c).begin_.nvm = some (false, ⟨false, 1, 11008, mhash1⟩) := by
  have h0 : (flashed c).begin_.nvm.cr0 = CommitRec.pack ⟨false, 1, 11008, mhash1⟩ := rfl
  have h1 : (flashed c).begin_.nvm.cr1 = erasedRecord := rfl
  simp only [bootCopy, h0, h1, test_commit_records.1, test_commit_records.2]

/-- Boot of the file with a content that passes the load checks. -/
theorem after_boot (c : RunImage) (o : BootObs) (P : State → Bool)
    (flash : o.nvmOk = true) (fuses : (flashed c).begin_.fusesSeen o = fuses1)
    (loads : (loadFail (signed c).tables goodFile.entries).isNone = true)
    (h : P { (State.bootFile { (flashed c).begin_.bootSeen o with
      js := { ((flashed c).begin_.bootSeen o).js with boot := { ((flashed c).begin_.bootSeen o).js.boot with cr := false, bank := false } } } o
        (signed c)).finish with pending := [] } = true) :
    after (.bootVerifyComplete o) (flashed c) P = true := by
  have e := bootEnds_of_good_file (s := (flashed c).begin_) (o := o) (cr := false) (r := ⟨false, 1, 11008, mhash1⟩) (f := signed c)
    rfl rfl flash (record_1_boots c) rfl (by rw [fuses]; exact good_file_boots c loads) (good_file_hash c)
  refine after_run (f := fun s => s.bootEnds o) rfl ?_
  rw [e]
  exact h

theorem test_boot_declaration_mismatch :
    declFails (bootImg 1).decl (seen true fuses1) false = [(1, 1, 2)] ∧ after (.bootVerifyComplete (seen true fuses1)) (flashed (bootImg 1)) (fun t =>
      t.js.boot.state == 6 && t.js.boot.cause == 10 && t.js.ring.irqFatal) = true := by
  refine ⟨by decide +kernel, after_boot _ _ _ rfl ?_ ?_ ?_⟩ <;> decide +kernel

theorem test_boot_with_a_good_image :
    declFails (bootImg 2).decl (seen true fuses1) false = [] ∧ after (.bootVerifyComplete (seen true fuses1)) (flashed (bootImg 2)) (fun t =>
      t.js.boot.state == 4 && t.js.boot.verified && t.js.boot.tvMs == 12 && t.js.temp == 20 && t.js.volt == 5 && t.live.cur.phases == [⟨0, 8⟩] &&
        t.jc.xtDue.length == 2320 && t.img.domains == [dom 0 2 1] && t.img.regions.length == 256 && t.live.cur.prefixes.length == 4) = true := by
  refine ⟨by decide +kernel, after_boot _ _ _ rfl ?_ ?_ ?_⟩ <;> decide +kernel

def waiting (f : PeerPort → PeerPort) : State := bj (up.setPort 0 f) fun b => { b with state := 4 }

theorem test_schedule_load :
    (let s := waiting fun q => { q with state := 4 }
     s.loadDue && s.portsUp && after .scheduleLoad s (fun t => t.js.boot.state == 5 && t.jq.step == 5 && t.phase 0 && t.phase 5 &&
        t.jg.epoch.previous == 3 && t.jg.member.state == 0) && after .bootWaitExpiry s fun t => t.jq.running && t.jg.member.state == 0) = true := by
  decide +kernel

theorem test_boot_wait_expiry :
    (let s := waiting id
     s.loadDue && !s.portsUp && after .bootWaitExpiry s fun t => t.js.boot.state == 5 && t.jg.member.state == 2 && t.jg.member.cause == 2 && t.phase 0 &&
        (t.port 0).state == 7) = true := by
  decide +kernel

/-! ### Service commands -/

/-- MW holds the service lock; the arguments of the next command. -/
def locked (args : List W32) : State :=
  sj up fun j => { j with lock := ⟨1, true, false, 1, 1000, 1000⟩, cmd := { CmdBlock.reset with args := args } }

def rest (args : List W32) : State := qj (locked args) fun j => { j with quiesced := true, running := false }

def givenCode (t : State) : Nat × Bool × Option Nat := (t.js.cmd.code.toNat, t.js.cmd.busy, t.js.cmd.outcome.map BitVec.toNat)

theorem test_every_command_is_answered_in_order :
    ((cmdTable true (signed RunImage.empty)).all fun k =>
      after (k.cmd .mw) (sj (locked []) fun j => { j with cmd := { j.cmd with busy := true } }) (fun t => t.js.mw == ⟨1, 0⟩) &&
      (k.code == 1 || after (k.cmd .sm) (locked []) fun t => t.js.sm == ⟨3, 0⟩) &&
      (safeAccepts k.code || after (k.cmd .mw) (bj (locked []) fun b => { b with state := 6 }) fun t => givenCode t == (k.code, true, some 2))) = true := by
  decide +kernel

theorem test_commands_not_allowed :
    (let codes := ((cmdTable true (signed RunImage.empty)).filter fun k => !k.allowed (locked [])).map CmdRow.code
     codes == [3, 5, 6, 8, 0x25, 0x26, 0x27, 0x28] && after (.resume .mw) (locked []) (fun t => givenCode t == (3, true, some 2)) &&
      after (.quiesce .mw) (rest []) fun t => givenCode t == (2, true, some 2)) = true := by
  decide +kernel

theorem test_cmd_arg_write :
    (let s := locked [0, 0, 0, 0, 0, 0, 0, 0]
     after (.cmdArgWrite .mw 7 9) s (fun t => t.js.cmd.args.getD 7 0 == 9 && t.js.mw == ⟨0, 0⟩) &&
      after (.cmdArgWrite .sm 7 9) s (fun t => t.js.sm == ⟨3, 0⟩) &&
      after (.cmdArgWrite .mw 0 9) (sj s fun j => { j with cmd := { j.cmd with busy := true } }) fun t => t.js.mw == ⟨1, 0⟩) = true := by
  decide +kernel

theorem test_nop_needs_no_lock :
    (up.mayGive .sm 1 && after (.nopCommand .sm) up fun t => givenCode t == (1, true, some 0) && t.js.sm == ⟨0, 0⟩) = true := by
  decide +kernel

theorem test_quiesce_effects :
    (let halted := gj (locked []) fun g => { g with member := { g.member with state := 1, cause := 4 } }
     (locked []).mayGive .mw 2 && (locked []).atWork && after (.quiesce .mw) (locked []) (fun t => t.jq.quiesceReq && givenCode t == (2, true, none)) &&
      after (.quiesce .mw) (qj (locked []) fun j => { j with gen := true }) (fun t => t.jq.draining && t.jq.acts.isEmpty) &&
      after (.quiesce .mw) halted fun t => t.jg.member.state == 0 && t.jg.member.cause == 0 && t.jq.quiesced && givenCode t == (2, true, some 0)) = true := by
  decide +kernel

theorem test_resume_effects :
    (let s := rest []
     s.restful && s.jz.held.isEmpty && ((s.dom 0).map fun d => d.contains s.decl.coord) == some true && after (.resume .mw) s fun t =>
      t.jq.resuming && (t.gzRun 3).run == (s.gzRun 3).run + 1 && givenCode t == (3, true, none)) = true := by
  decide +kernel

theorem test_clear_db_and_staging_test :
    (after (.clearDb .mw) (qj (rest []) fun j => { j with db := [(4, 9)] }) (fun t => t.jq.db == [] && givenCode t == (6, true, some 0)) &&
      after (.stagingTest .mw true) { rest [] with staging := [(4, 9)] } (fun t => t.staging == [] && t.jx.stagingTested) &&
      after (.stagingTest .mw false) (rest []) fun t => givenCode t == (8, true, some 3)) = true := by
  decide +kernel

def swapping (mask : W32) (content : RunImage) : State := { locked [0, mask, 3] with nvm := ⟨[], [], some (signed content), none⟩ }

theorem test_live_swap :
    (let s := swapping 8 { img with live := { live0 with phases := [⟨0, 9⟩] } }
     s.noneStaged && liveCheck s.img { live0 with phases := [⟨0, 9⟩] } 3 == false && after (.liveSwap .mw true) s (fun t =>
        givenCode t == (4, true, some 3)) &&
      after (.liveSwap .mw true) { swapping 0x20000 img with live := { up.live with cur := { live0 with moverParams := [⟨0, 64, 8, 0, 0, false⟩] } } } fun t =>
        (t.live.staged.map fun l => l.moverParams.length) == some 0 && t.live.cur.moverParams.length == 1 && t.jg.epoch.staged &&
          givenCode t == (4, true, some 0)) = true := by
  decide +kernel

theorem test_live_swap_waits_for_the_expanders :
    (after (.liveSwap .mw true) (swapping 0x10000 img) fun t =>
      (t.live.staged.map fun l => l.prefixes.length) == some 4 && !t.jg.epoch.staged && t.jc.xtDue.length == 272 && givenCode t == (4, true, none)) = true := by
  decide +kernel

theorem test_live_swap_of_a_type_that_is_not_live :
    (after (.liveSwap .mw true) (swapping 0x10 img) fun t => givenCode t == (4, true, some 1) && t.live.staged.isNone) = true := by
  decide +kernel

theorem test_unstage :
    (let s := gj { locked [] with live := { (locked []).live with staged := some live0 } } fun g => { g with epoch := { g.epoch with staged := true } }
     after (.unstage .mw) s fun t => t.live.staged.isNone && !t.jg.epoch.staged && givenCode t == (5, true, some 0)) = true := by
  decide +kernel

theorem test_image_write_and_commit :
    (let s := { locked [0, 0, 1664, 1] with nvm := ⟨CommitRec.pack ⟨false, 1, 11008, mhash1⟩, [], none, none⟩ }
     s.bootSeq != 2 ^ 64 - 2 && after (.imageWrite .mw (signed img) true) s (fun t => t.nvm.bankB.isSome && t.nvm.cr1 == erasedRecord && t.nvm.cr0 == s.nvm.cr0) &&
      after (.imageCommit .mw true) s (fun t => givenCode t == (10, true, some 1)) &&
      after (.imageCommit .mw true) (sj s fun j => { j with cmd := { j.cmd with args := [1] } }) fun t => t.nvm.cr1 == erasedRecord) = true := by
  decide +kernel

theorem test_command_complete :
    (let s := sj (running 1 []) fun j => { j with cmd := { j.cmd with outcome := some 3 } }
     after .commandComplete s fun t => !t.js.cmd.busy && t.js.cmd.result == 3 && t.js.cmd.done == 1) = true := by
  decide +kernel

def committing (fuses : List W64) : State :=
  { running 10 [1] with fuses := fuses, nvm := ⟨CommitRec.pack ⟨false, 6, 11008, mhash1⟩, erasedRecord, none, some (signed img)⟩ }

theorem test_commit_is_programmed :
    (after .commandComplete (committing fuses1) fun t => t.js.cmd.result == 0 && commitRec t.nvm.cr1 == some ⟨true, 7, 11008, mhash1⟩) = true := by
  have e := commandComplete_of_good_bank (s := (committing fuses1).begin_) (f := signed img) (by decide +kernel) (by decide +kernel)
    (by decide +kernel) (by decide +kernel) (by decide +kernel) rfl (good_file_reads_back img)
  refine after_run (f := State.commandComplete) rfl ?_
  rw [e, good_file_hash]
  decide +kernel

theorem test_commit_of_a_bad_bank :
    (after .commandComplete (committing []) fun t => t.js.cmd.result == 3 && t.nvm.cr1 == erasedRecord) = true := by
  decide +kernel

theorem test_tile_retire :
    (-- tile 0 is in service: with 8 spares its logical tile moves on; all 48 leave none
          after (.tileRetire .mw) (rest [1, 0]) (fun t => t.jg.tiles.phys.getD 0 0 == 3 && givenCode t == (0x20, true, some 0)) &&
      after (.tileRetire .mw) (rest [0xFFFFFFFF, 0xFFFF]) (fun t => givenCode t == (0x20, true, some 2)) &&
      after (.tileRetire .mw) (locked [1, 0]) fun t => (t.live.staged.map LiveTables.tileRetire) == some 1 && t.jg.tiles.phys.getD 0 0 == 0) = true := by
  decide +kernel

theorem test_tile_test :
    (after (.tileTest .mw true) (rest [47]) (fun t => t.jg.tiles.tested.getLsbD 47 && givenCode t == (0x21, true, some 0)) &&
      after (.tileTest .mw true) (rest [0]) (fun t => givenCode t == (0x21, true, some 2)) &&
      after (.tileTest .mw false) (rest [40]) fun t => givenCode t == (0x21, true, some 3)) = true := by
  decide +kernel

theorem test_tile_admit :
    (let f := fun (s : State) => gj s fun g => { g with tiles := { g.tiles with phys := g.tiles.phys.set 47 3, tested := 0x800000000000 } }
     after (.tileAdmit .mw) (f (rest [0, 0x8000])) (fun t => t.jg.tiles.phys.getD 47 3 == 1 && givenCode t == (0x22, true, some 0)) &&
      after (.tileAdmit .mw) (f (rest [0, 0xC000])) (fun t => givenCode t == (0x22, true, some 2)) &&
      after (.tileAdmit .mw) (f (locked [0, 0x8000])) fun t => (t.live.staged.map LiveTables.tileAdmit) == some 0x800000000000) = true := by
  decide +kernel

theorem test_port_maps :
    (let f := fun (s : State) => s.setPort 7 fun q => { q with state := 5 }
     after (.portRetire .mw) (rest [0x81]) (fun t => t.live.cur.portAdmit == 0x7E) &&
      after (.portRetire .mw) (locked [0x81]) (fun t => (t.live.staged.map LiveTables.portAdmit) == some 0x7E && t.live.cur.portAdmit == 0xFF) &&
      after (.portAdmit .mw) (f (rest [0x80])) (fun t => givenCode t == (0x24, true, some 0)) &&
      after (.portAdmit .mw) (f (locked [0x80])) (fun t => t.live.staged.isSome) &&
      after (.portAdmit .mw) (rest [0x80]) fun t => givenCode t == (0x24, true, some 2)) = true := by
  decide +kernel

theorem test_export_command :
    (let s := fun n => { locked [n] with je := { queued.je with queues := [freshQueue 61440 1 QpCtx.zero 16 0] }, image := queued.image }
     after (.exportCmd .mw) (s 61439) (fun t => givenCode t == (7, true, some 1)) && after (.exportCmd .mw) (s 0x10000) (fun t => givenCode t == (7, true, some 1)) &&
      after (.exportCmd .mw) (s 61441) (fun t => givenCode t == (7, true, some 2)) &&
      after (.exportCmd .mw) (s 61440) fun t => t.je.exports.any (fun e => e.queue == 61440) && givenCode t == (7, true, none)) = true := by
  decide +kernel

theorem test_restore_send :
    (let s := uj (rest [9, 0]) fun j => { j with inSt := 2, heldCopies := [⟨hdr0 9, [1, 2], 2⟩] }
     after (.restoreSend .mw) s (fun t => t.out.contains (.copy (s.copyPort 0) (hdr0 9) [1, 2] (crc64 [1, 2])) && t.js.cmd.bytes == 2) &&
      after (.restoreSend .mw) (sj s fun j => { j with cmd := { j.cmd with args := [8, 0] } }) fun t => givenCode t == (0x25, true, some 2)) = true := by
  decide +kernel

theorem test_rollback_command :
    ((rest [9, 0]).restful && after (.rollback .mw) (rest [9, 0]) fun t => givenCode t == (0x26, true, none)) = true := by
  decide +kernel

theorem test_takeover_command :
    (let s := gj (locked [9]) fun g => { g with member := { g.member with state := 3 } }
     after (.takeover .mw) s fun t => t.me == 9 && t.jq.quiesced && t.jq.step == 5 && t.jg.member.state == 0) = true := by
  decide +kernel

theorem test_twin_swap_command :
    (let s := gj (locked []) fun g => { g with twin := { g.twin with present := true, peerOk := true, driving := true } }
     after (.twinSwap .mw) s fun t => t.jg.twin.swap && t.jg.twin.driving) = true := by
  decide +kernel

/-! ### The service lock -/

theorem test_lock_take :
    (after (.take .mw 0x105) up (fun t => t.js.lock == ⟨5, true, false, 5, 1000, 1000⟩ && t.js.mw == ⟨0, 0⟩) &&
      after (.take .sm 0x105) (locked []) (fun t => t.js.sm == ⟨3, 0⟩ && !t.js.lock.port) &&
      after (.take .mw 0x101) (locked []) (fun t => t.js.mw == ⟨0, 0⟩) && after (.take .mw 0x100) up fun t => t.js.mw == ⟨4, 0⟩) = true := by
  decide +kernel

theorem test_lock_renew_and_release :
    (let s := sj (locked []) fun j => { j with lock := { j.lock with remain := 3 } }
     after (.renew .mw 0x201) s (fun t => t.js.lock.remain == 1000) && after (.renew .mw 0x202) s (fun t => t.js.mw == ⟨3, 0⟩) &&
      after (.renew .mw 0x200) s (fun t => t.js.mw == ⟨4, 0⟩) && after (.release .mw 0x401) s (fun t => !t.js.lock.held) &&
      after (.release .sm 0x401) s (fun t => t.js.sm == ⟨3, 0⟩) && after (.release .mw 0x400) s fun t => t.js.mw == ⟨4, 0⟩) = true := by
  decide +kernel

theorem test_lease_expiry :
    (let s := fun code => sj { locked [] with live := { (locked []).live with staged := some live0 } } fun j =>
        { j with cmd := { CmdBlock.reset with busy := true, code := code } }
     after .leaseExpiry (s 9) (fun t => !t.js.lock.held && t.live.staged.isNone && !t.js.cmd.busy && t.js.cmd.result == 6) &&
      after .leaseExpiry (s 7) fun t => !t.js.lock.held && t.js.cmd.busy) = true := by
  decide +kernel

theorem test_lock_lease_write :
    (after (.lockLeaseWrite .mw 10) up (fun t => t.js.lock.lease == 10) && after (.lockLeaseWrite .mw 60000) up (fun t => t.js.lock.lease == 60000) &&
      after (.lockLeaseWrite .mw 9) up (fun t => t.js.mw == ⟨4, 0⟩) && after (.lockLeaseWrite .mw 60001) (locked []) (fun t => t.js.mw == ⟨4, 0⟩) &&
      after (.lockLeaseWrite .sm 10) (locked []) fun t => t.js.sm == ⟨3, 0⟩) = true := by
  decide +kernel

/-! ### Registers -/

theorem test_register_write_refusals :
    ((up.readReg 0x010030).isSome && (up.readReg 0x010038).isNone && after (.registerWrite .sm 0x010038 0 0 false) up (fun t => t.js.sm == ⟨5, 0⟩) &&
      after (.registerWrite .mw 0x010030 0 7 true) up (fun t => t.js.mw == ⟨5, 0⟩) &&
      up.writable .mw 0x010030 0xF && after (.registerWrite .mw 0x010030 0 0xF true) up fun t => t.js.mw == ⟨2, 0⟩ && t.js.rejCode == 2) = true := by
  decide +kernel

theorem test_register_writes :
    (let s := { sj (gj up fun g => { g with epoch := { g.epoch with staleSeen := true } }) fun j =>
        { j with ring := { j.ring with irqErr := true, irqFatal := true } } with jc := up.jc }
     let w := fun o v f => after (.registerWrite .mw o v 0xF false) s f
     w 0x060004 7 (fun t => t.ju.clip == 7) && w 0x080004 9 (fun t => t.je.pi == 9) && w 0x0B0070 1 (fun t => t.js.ring.enErr && !t.js.ring.enFatal) &&
      w 0x0B006C 2 (fun t => t.js.ring.irqErr && !t.js.ring.irqFatal) && w 0x000004 0x40 (fun t => !t.jg.epoch.staleSeen) &&
      w 0x010008 5 (fun t => t.jq.slot == s.jq.slot && t.js.mw == ⟨0, 0⟩) && w 0x0B0000 5 (fun t => t.js.mw == ⟨0, 0⟩)) = true := by
  decide +kernel

theorem test_locked_register_writes :
    (let s := rest []
     let w := fun (s : State) o v f => after (.registerWrite .mw o v 0xF false) s f
     s.serviceable .mw && w s 0x010030 9 (fun t => t.jq.slipLimit == 9) && w s 0x010030 0 (fun t => t.js.mw == ⟨4, 0⟩) &&
      w (locked []) 0x010030 9 (fun t => t.js.mw == ⟨4, 0⟩) && w up 0x010030 9 (fun t => t.js.mw == ⟨3, 0⟩) &&
      w up 0x010030 0x100 (fun t => t.js.mw == ⟨0, 0⟩) && w s 0x010034 15 (fun t => t.js.mw == ⟨4, 0⟩) &&
      w s 0x010034 16 (fun t => t.jq.vTimeout == 16) && w s 0x030010 0x00200810 (fun t => t.js.mw == ⟨4, 0⟩) &&
      w s 0x030010 0x00201010 (fun t => t.jx.wt == ⟨16, 16, 32⟩) && w s 0x0A0000 1 fun t => t.jc.verify) = true := by
  decide +kernel

theorem test_rc_read :
    (let s := xj (sj up fun j => { j with ring := { j.ring with lost := 7 } }) fun j => { j with discKey := 1, discForm := 2 }
     after (.rcRead .mw 0x030000) s (fun t => t.js.mw == ⟨0, 0x02000001⟩ && t.jx.discKey == 0) &&
      after (.rcRead .mw 0x0B0068) s (fun t => t.js.mw == ⟨0, 7⟩ && t.js.ring.lost == 0) && (s.readReg 0x010038).isNone &&
      after (.rcRead .mw 0x010038) s fun t => t.js.mw == ⟨5, 0⟩) = true := by
  decide +kernel

theorem test_latched_window_read :
    (let s := qj up fun j => { j with slot := 0x123456789 }
     winOf 0x010008 == some (0x010008, 0) && after (.latchedWindowRead .mw 0x010008) s fun t =>
      t.js.mw == ⟨0, 0x23456789⟩ && winOf 0x01000C == some (0x010008, 1) && (qj t fun j => { j with slot := 0 }).readReg 0x01000C == some 1) = true := by
  decide +kernel

theorem test_ev_tail_write :
    (let s := sj up fun j => { j with ring := { j.ring with head := 3, tail := 0xFFE } }
     after (.evTailWrite .mw 3 false) s (fun t => t.js.ring.tail == 3 && t.js.mw == ⟨0, 0⟩) &&
      after (.evTailWrite .mw 4 false) s (fun t => t.js.ring.tail == 0xFFE && t.js.mw == ⟨4, 0⟩) &&
      after (.evTailWrite .mw 3 true) s fun t => t.js.mw == ⟨4, 0⟩) = true := by
  decide +kernel

theorem test_sm_transaction :
    (-- a write of 5 to 0x060004, odd parity over the header word
          hdrOk 0x40060004 == hdrParity 0x40060004 && hdrOk 0x80060004 == hdrParity 0x80060004 &&
      (let hw : W32 := if hdrParity 0x40060004 then 0x40060004 else 0xC0060004
       let hr : W32 := if hdrParity 0x00060004 then 0x00060004 else 0x80060004
       hdrOk hw && hdrOk hr && !hdrOk (hw ^^^ 0x80000000) &&
        after (.smTransaction hw 5 96) up (fun t => t.ju.clip == 5 && t.js.smDone == 1 && t.js.smStatus == 0xA5000000) &&
        after (.smTransaction hw 5 63) up (fun t => t.ju.clip == up.ju.clip && t.js.smPartial == 1 && t.js.smDone == 0) &&
        after (.smTransaction hr 0 128) (uj up fun j => { j with clip := 6 }) (fun t => t.js.sm == ⟨0, 6⟩ && t.js.smDone == 1) &&
        after (.smTransaction (hw ^^^ 0x80000000) 5 96) up fun t => t.js.smFrame == 1 && t.js.smStatus == 0xA5000006 && t.ju.clip == up.ju.clip)) = true := by
  decide +kernel

/-! ### The Duiker -/

theorem test_duiker_watchdog :
    (after (.duikerWatchdog 0x40) up (fun t => t.js.restarting && code t == 0x0B05) &&
      after (.duikerWatchdog 0x40) (running 7 []) (fun t => t.js.restarting && !t.js.cmd.busy && t.js.cmd.result == 6) &&
      after .duikerRestartComplete (sj up fun j => { j with restarting := true }) fun t => !t.js.restarting) = true := by
  decide +kernel

theorem test_telemetry_sample :
    (rangeCrossed decl 100 5 == none && rangeCrossed decl 101 5 == some 1 && rangeCrossed decl 0xFF9B 5 == some 0 && rangeCrossed decl 0 0 == some 2 &&
      rangeCrossed decl 0 11 == some 3 && after (.telemetrySample 101 5) up (fun t => t.js.excursion && code t == 0x0B06 && t.js.temp == 101) &&
      after (.telemetrySample 101 5) (sj up fun j => { j with excursion := true }) (fun t => t.js.ring.head == 0) &&
      after (.telemetrySample 100 5) (sj up fun j => { j with excursion := true }) fun t => !t.js.excursion) = true := by
  decide +kernel

theorem test_nvm_command_timeout :
    (after (.nvmCommandTimeout 3 0 1) booting (fun t => t.js.boot.state == 6 && t.js.boot.cause == 9) &&
      after (.nvmCommandTimeout 3 0 1) (running 4 []) fun t => !t.js.cmd.busy && t.js.cmd.result == 4 && code t == 0x0B03) = true := by
  decide +kernel

/-! ### Resilience -/

theorem test_tile_failure :
    (after (.tileFailure ⟨5, 1⟩) up (fun t => t.jg.tiles.phys.getD 5 0 == 2 && t.jg.tiles.remap == [5] && t.jg.tiles.lastLog == 5 && code t == 2 &&
        t.jg.member.state == 0) &&
      after (.tileWatchdog 47) up (fun t => t.jg.tiles.phys.getD 47 0 == 2 && t.jg.tiles.remap == []) &&
      after (.tileFailure ⟨5, 1⟩) (gj up fun g => { g with tiles := TileMapBlock.factory 40 }) (fun t => t.jg.member.state == 2 && t.jg.member.cause == 1) &&
      after (.tileFailure ⟨47, 1⟩) (gj up fun g => { g with tiles := TileMapBlock.factory 40 }) fun t => t.js.ring.head == 0) = true := by
  decide +kernel

theorem test_unit_failure :
    (after (.unitFailure .array) up (fun t => t.jg.member.state == 2 && t.jg.member.cause == 5 && t.silent && code t == 3) &&
      after (.unitFailure .gazelle) up fun t => t.jg.member.cause == 6) = true := by
  decide +kernel

def twin (f : TwinBlock → TwinBlock) : State := gj up fun g => { g with twin := f { g.twin with present := true, peerOk := true, driving := true } }

theorem test_twin_check :
    (let s := twin fun t => { t with sent := [.chunk 4 9] }
     after (.twinCheckReceive (.chunkCrc 5 9)) s (fun t => t.jg.twin.heard == [.chunk 5 9] && t.jg.twin.sent.length == 1) &&
      after (.twinCheckReceive (.chunkCrc 4 9)) s (fun t => t.jg.twin.sent.isEmpty && t.jg.twin.diverged.isNone) &&
      after (.twinCheckReceive (.chunkCrc 4 8)) s fun t => t.jg.twin.diverged == some (0, 4, 9, 8) && code t == 4) = true := by
  decide +kernel

theorem test_twin_failure :
    (after (.twinCheckReceive .memberFailed) (twin id) (fun t => !t.jg.twin.peerOk && t.jg.twin.moveIn == some 2) &&
      after .twinSilenceTimeout (twin id) (fun t => t.jg.twin.moveIn == some 2) &&
      after .twinSilenceTimeout (twin fun t => { t with fenced := some true }) fun t => t.jg.member.state == 2 && t.jg.member.cause == 7) = true := by
  decide +kernel

end Sys2Proof.Tests
end

section
/-!
The mask a row's owner builds (R88). The histogram search and the compaction pass are each described by two counts of
the codes: those above a code and those equal to it.
-/

namespace Sys2Proof.Machine

/-- How many codes are higher than tau. -/
def codesAbove (tau : Nat) (codes : List Byte) : Nat := codes.countP fun c => decide (tau < c.toNat)

/-- How many codes equal tau: the histogram's entry. -/
def codesAt (tau : Nat) (codes : List Byte) : Nat := codes.countP fun c => c.toNat == tau

/-! ### The counts -/

/-- The filter that `findTau` counts with. -/
theorem length_filter_eq_codesAt (tau : Nat) (codes : List Byte) :
    (codes.filter fun c => c.toNat == tau).length = codesAt tau codes :=
  List.countP_eq_length_filter.symm

theorem codesAt_cons (tau : Nat) (c : Byte) (codes : List Byte) :
    codesAt tau (c :: codes) = codesAt tau codes + if c.toNat = tau then 1 else 0 := by
  simp [codesAt, List.countP_cons]

theorem codesAbove_cons (tau : Nat) (c : Byte) (codes : List Byte) :
    codesAbove tau (c :: codes) = codesAbove tau codes + if tau < c.toNat then 1 else 0 := by
  simp [codesAbove, List.countP_cons]

theorem codesAbove_eq_succ (tau : Nat) (codes : List Byte) :
    codesAbove tau codes = codesAbove (tau + 1) codes + codesAt (tau + 1) codes := by
  induction codes with
  | nil => rfl
  | cons c rest ih =>
    rw [codesAbove_cons, codesAbove_cons, codesAt_cons, ih]
    split_ifs <;> omega

theorem codesAbove_zero_add_codesAt_zero (codes : List Byte) :
    codesAbove 0 codes + codesAt 0 codes = codes.length := by
  induction codes with
  | nil => rfl
  | cons c rest ih =>
    rw [codesAbove_cons, codesAt_cons, List.length_cons, ← ih]
    split_ifs <;> omega

/-- No code is above the search's first candidate. -/
theorem codesAbove_255 (codes : List Byte) : codesAbove 255 codes = 0 := by
  refine List.countP_eq_zero.mpr fun c _ => ?_
  have hc : c.toNat < 256 := c.isLt
  simp only [decide_eq_true_eq]
  omega

/-- A longer prefix holds at least as many codes equal to tau. -/
theorem codesAt_take_mono (tau : Nat) (codes : List Byte) {i j : Nat} (h : i ≤ j) :
    codesAt tau (codes.take i) ≤ codesAt tau (codes.take j) :=
  (List.take_sublist_take_left h).countP_le

/-! ### The search -/

/-- The search ends at a code and the count above it between which the k-th highest code lies. -/
theorem findTau_brackets (codes : List Byte) (k : Nat) (hk : k ≤ codes.length) (tau above : Nat)
    (habove : above = codesAbove tau codes) (hle : above ≤ k) :
    (findTau codes k tau above).2 = codesAbove (findTau codes k tau above).1 codes ∧
      (findTau codes k tau above).2 ≤ k ∧
      k ≤ (findTau codes k tau above).2 + codesAt (findTau codes k tau above).1 codes := by
  induction tau generalizing above with
  | zero =>
    have hall := codesAbove_zero_add_codesAt_zero codes
    exact ⟨habove, hle, by simp only [findTau]; omega⟩
  | succ tau ih =>
    simp only [findTau, length_filter_eq_codesAt]
    split
    next hfound => exact ⟨habove, hle, hfound⟩
    next hmore =>
      exact ih (above + codesAt (tau + 1) codes) (by rw [habove, ← codesAbove_eq_succ]) (by omega)

/-! ### The compaction selector -/

theorem compact_length (tau need : Nat) (codes : List Byte) : (compact tau need codes).length = codes.length := by
  induction codes generalizing need with
  | nil => rfl
  | cons c rest ih =>
    rw [compact]
    split_ifs <;> simp [ih]

/-- The selector takes every code above tau and, of those equal to it, as many as are needed. -/
theorem compact_count (tau need : Nat) (codes : List Byte) :
    ((compact tau need codes).filter id).length = codesAbove tau codes + min need (codesAt tau codes) := by
  induction codes generalizing need with
  | nil => simp [compact, codesAbove, codesAt]
  | cons c rest ih =>
    rw [compact, codesAbove_cons, codesAt_cons]
    split_ifs <;> simp [ih] <;> omega

/-- The selector takes a position when its code is above tau, or equals tau while fewer than `need` codes before it do. -/
theorem compact_getD (tau need : Nat) (codes : List Byte) (i : Nat) (hi : i < codes.length) :
    (compact tau need codes).getD i false = true ↔
      tau < (codes.getD i 0).toNat ∨ (codes.getD i 0).toNat = tau ∧ codesAt tau (codes.take i) < need := by
  induction codes generalizing need i with
  | nil => simp at hi
  | cons c rest ih =>
    rw [compact]
    cases i with
    | zero =>
      have hnone : codesAt tau [] = 0 := rfl
      split_ifs <;> simp [hnone] <;> omega
    | succ i =>
      have hrest : i < rest.length := by simpa using hi
      rw [List.take_succ_cons, codesAt_cons]
      split_ifs <;> simp only [List.getD_cons_succ, ih _ _ hrest] <;> omega

/-! ### The mask -/

/-- Exactly `k` groups are selected: those above the threshold code, and at the threshold as many as are still to take. -/
theorem buildMask_count (codes : List Byte) (k : Nat) (hk : k ≤ codes.length) :
    ((buildMask codes k).filter id).length = k := by
  obtain ⟨habove, hle, hreach⟩ := findTau_brackets codes k hk 255 0 (codesAbove_255 codes).symm (Nat.zero_le k)
  rw [buildMask, compact_count, ← habove]
  omega

theorem buildMask_length (codes : List Byte) (k : Nat) : (buildMask codes k).length = codes.length :=
  compact_length _ _ codes

/-- A selected group has a higher code than an unselected one, or the same code and the lower number. -/
theorem buildMask_prefers (codes : List Byte) (k i j : Nat) (hsel : (buildMask codes k).getD i false = true)
    (hj : j < codes.length) (hun : (buildMask codes k).getD j true = false) :
    (codes.getD j 0).toNat < (codes.getD i 0).toNat ∨ (codes.getD j 0 = codes.getD i 0 ∧ i < j) := by
  have hi : i < codes.length := by
    by_contra hout
    rw [List.getD_eq_default _ _ (by rw [buildMask_length]; omega)] at hsel
    cases hsel
  have hun' : ¬(buildMask codes k).getD j false = true := by
    have hjm : j < (buildMask codes k).length := by rwa [buildMask_length]
    rw [List.getD_eq_getElem _ _ hjm] at hun ⊢
    simp [hun]
  rw [buildMask, compact_getD _ _ _ _ hi] at hsel
  rw [buildMask, compact_getD _ _ _ _ hj] at hun'
  generalize (findTau codes k 255 0).1 = tau, k - (findTau codes k 255 0).2 = need at hsel hun'
  by_cases hlt : (codes.getD j 0).toNat < (codes.getD i 0).toNat
  · exact .inl hlt
  -- neither code is the higher one, so both equal tau and the count before each decides
  · have hitau : (codes.getD i 0).toNat = tau := by omega
    have hjtau : (codes.getD j 0).toNat = tau := by omega
    have hfewer : codesAt tau (codes.take i) < codesAt tau (codes.take j) := by omega
    refine .inr ⟨BitVec.eq_of_toNat_eq (hjtau.trans hitau.symm), ?_⟩
    by_contra hge
    have hmono := codesAt_take_mono tau codes (Nat.le_of_not_lt hge)
    omega

/-! ### The command -/

/-- The row's sketch codes that the owner holds, chunk after chunk. -/
def State.rowCodes (s : State) (c : CatEntry) (row : Nat) : List Byte :=
  ((s.rowChunks c row).filterMap fun i => tabGet i s.ji.sketches).flatten

/-- MASK_BUILD of a complete row whose mask is due and not yet built enters that mask, and writes nothing else of the
intake, the state tier or the sequencer (R88). -/
theorem maskBuild_effect (s : State) (tensor row : Nat) (c : CatEntry) (hcat : s.cat tensor = some c)
    (hrow : s.rowChunks c row ≠ []) (hall : ∀ i ∈ s.rowChunks c row, (tabGet i s.ji.sketches).isSome = true)
    (hdue : s.buildsMask c = true)
    (hnew : (s.ji.built.any fun m => m.tensor == tensor && m.row == row && m.step == s.jq.step + 2) = false) :
    (s.maskBuild tensor row).ji.built =
        ⟨tensor, row, s.jq.step + 2, buildMask (s.rowCodes c row) (selCount (c.rowLen row) (s.density c 2))⟩ ::
          s.ji.built ∧
      (s.maskBuild tensor row).stateMem = s.stateMem ∧ (s.maskBuild tensor row).jq = s.jq := by
  have hlen : ((s.rowChunks c row).filterMap fun i => tabGet i s.ji.sketches).length = (s.rowChunks c row).length :=
    List.filterMap_length_eq_length.mpr hall
  unfold State.maskBuild
  simp only [hcat]
  rw [if_neg (by simpa [hrow, hlen, hdue] using hnew)]
  simp [State.rowCodes]

/-- Settles O19: `maskBuild_effect` gives the command's own part, and the mask selects K groups by `buildMask_count`,
the higher code first and then the lower number by `buildMask_prefers`. -/
theorem theOwnerBuildsTheMask : Obligations.TheOwnerBuildsTheMask := by
  refine ⟨fun s tensor row c hcat hrow hall hdue hnew => ?_, fun codes k hk => ?_⟩
  · obtain ⟨hbuilt, hmem, hjq⟩ := maskBuild_effect s.begin_ tensor row c hcat hrow hall hdue hnew
    exact ⟨_, run_next (fun s => s.maskBuild tensor row) s, hbuilt, hmem, congrArg JqBlock.step hjq⟩
  · exact ⟨buildMask_count codes k hk, buildMask_length codes k, buildMask_prefers codes k⟩

end Sys2Proof.Machine
end

section
/-!
The receiving lanes of a peer port, its transmitted block slots and its codewords (R237–R245, R259). A lane is followed
through a command by `State.rxLane`: each operation of the link either keeps a port's lanes and descrambler, or changes
every lane by one function, or changes the one lane named.
-/

namespace Sys2Proof.Machine

/-! ### Reading a port after an update -/

theorem port_setPort_same (s : State) (p : Nat) (f : PeerPort → PeerPort) (hp : p < s.jl.ports.length) :
    (s.setPort p f).port p = f (s.port p) :=
  modifyNth_getD_same f p s.jl.ports PeerPort.reset hp

theorem port_setPort_ne (s : State) (p k : Nat) (f : PeerPort → PeerPort) (hk : k ≠ p) :
    (s.setPort p f).port k = s.port k :=
  modifyNth_getD_ne f p k s.jl.ports PeerPort.reset hk

theorem port_setPort_of_absent (s : State) (p k : Nat) (f : PeerPort → PeerPort) (hp : s.jl.ports.length ≤ p) :
    (s.setPort p f).port k = s.port k := by
  show (modifyNth f p s.jl.ports).getD k PeerPort.reset = s.jl.ports.getD k PeerPort.reset
  simp only [List.getD_eq_getElem?_getD, modifyNth_getElem?]
  split
  case isTrue hk => simp [show s.jl.ports.length ≤ k by omega]
  case isFalse => rfl

/-- What an update leaves of a port it leaves of every port. -/
theorem port_setPort_keeps {α : Type} (view : PeerPort → α) {f : PeerPort → PeerPort} (h : ∀ q, view (f q) = view q)
    (s : State) (p k : Nat) : view ((s.setPort p f).port k) = view (s.port k) := by
  by_cases hk : k = p
  · subst hk
    by_cases hp : k < s.jl.ports.length
    · rw [port_setPort_same s k f hp, h]
    · rw [port_setPort_of_absent s k k f (by omega)]
  · rw [port_setPort_ne s p k f hk]

@[simp] theorem ports_length_setPort (s : State) (p : Nat) (f : PeerPort → PeerPort) :
    (s.setPort p f).jl.ports.length = s.jl.ports.length :=
  modifyNth_length f p s.jl.ports

/-! ### What the link's operations leave of the receive side -/

/-- The lanes of a port and its descrambler. -/
def PeerPort.rxView (q : PeerPort) : List Lane × BitVec 58 := (q.lanes, q.rx.scr)

@[simp] theorem emit_port (s : State) (o : Output) (k : Nat) : (s.emit o).port k = s.port k := rfl

@[simp] theorem event_port (s : State) (source code sev : Nat) (items : List EvItem) (k : Nat) :
    (s.event source code sev items).port k = s.port k := rfl

@[simp] theorem stageClear_port (s : State) (p k : Nat) : (s.stageClear p).port k = s.port k := rfl

@[simp] theorem donorPorts_port (s : State) (k : Nat) : s.donorPorts.port k = s.port k := rfl

@[simp] theorem memberFail_port (s : State) (cause k : Nat) : (s.memberFail cause).port k = s.port k := by
  unfold State.memberFail
  dsimp only
  split
  · rfl
  · split <;> rfl

@[simp] theorem driveFrame_rxView (s : State) (p typ vc : Nat) (first last : Bool) (fseq : W16) (payload : List Byte)
    (eof : Nat) (atBlock : Bool) (k : Nat) :
    ((s.driveFrame p typ vc first last fseq payload eof atBlock).port k).rxView = (s.port k).rxView := by
  unfold State.driveFrame
  rw [emit_port]
  exact port_setPort_keeps PeerPort.rxView (by exact fun _ => rfl) s p k

@[simp] theorem sendCtl_rxView (s : State) (p typ payload k : Nat) :
    ((s.sendCtl p typ payload).port k).rxView = (s.port k).rxView :=
  driveFrame_rxView ..

theorem sendCtl_ports_length (s : State) (p typ payload : Nat) :
    (s.sendCtl p typ payload).jl.ports.length = s.jl.ports.length :=
  ports_length_setPort s p _

@[simp] theorem sendIdent_rxView (s : State) (p k : Nat) : ((s.sendIdent p).port k).rxView = (s.port k).rxView :=
  driveFrame_rxView ..

/-- A port that fails keeps its lanes and its descrambler: only the link-up state is fresh (R254, R255). -/
@[simp] theorem portFail_rxView (s : State) (p cause k : Nat) :
    ((s.portFail p cause).port k).rxView = (s.port k).rxView := by
  have failed (t : State) (f : PeerPort → PeerPort) (hf : ∀ q, (f q).rxView = q.rxView) (ht : t.port k = s.port k) :
      ((t.setPort p f).port k).rxView = (s.port k).rxView := by
    rw [port_setPort_keeps PeerPort.rxView hf, ht]
  unfold State.portFail
  dsimp only
  split
  · rfl
  · split
    · split
      · rw [memberFail_port]
        exact failed _ _ (fun _ => rfl) rfl
      · exact failed _ _ (fun _ => rfl) rfl
    · exact failed _ _ (fun _ => rfl) rfl

@[simp] theorem askRetry_rxView (s : State) (p k : Nat) : ((s.askRetry p).port k).rxView = (s.port k).rxView := by
  unfold State.askRetry
  dsimp only
  split
  · rw [portFail_rxView, sendCtl_rxView]
    exact port_setPort_keeps PeerPort.rxView (by exact fun _ => rfl) s p k
  · rw [sendCtl_rxView]
    exact port_setPort_keeps PeerPort.rxView (by exact fun _ => rfl) s p k

@[simp] theorem needRetry_rxView (s : State) (p k : Nat) : ((s.needRetry p).port k).rxView = (s.port k).rxView := by
  unfold State.needRetry
  split
  · rfl
  · exact askRetry_rxView s p k

theorem lanes_of_rxView {q r : PeerPort} (h : q.rxView = r.rxView) : q.lanes = r.lanes := congrArg Prod.fst h

/-! ### A lane through the operations -/

/-- Lane l of port p. -/
def State.rxLane (s : State) (p l : Nat) : Lane := (s.port p).lanes.getD l Lane.reset

/-- A port whose lanes are all mapped: each lane is, and a lane that the port does not have stays the reset one. -/
theorem rxLane_of_map {s t : State} {p : Nat} {f : Lane → Lane} (hf : f Lane.reset = Lane.reset)
    (h : (t.port p).lanes = (s.port p).lanes.map f) (l : Nat) : t.rxLane p l = f (s.rxLane p l) := by
  unfold State.rxLane
  rw [h]
  nth_rw 1 [← hf]
  exact List.getD_map _ _ f

theorem rxLane_congr {s t : State} {p : Nat} (h : (t.port p).lanes = (s.port p).lanes) (l : Nat) :
    t.rxLane p l = s.rxLane p l := congrArg (·.getD l Lane.reset) h

/-- The port's lanes after it degrades: as they were, or all to be locked anew (R259). -/
theorem degrade_lanes (s : State) (p cause : Nat) (hp : p < s.jl.ports.length) :
    ((s.degrade p cause).port p).lanes = (s.port p).lanes ∨
      ((s.degrade p cause).port p).lanes = (s.port p).lanes.map Lane.relock := by
  have failed : ((s.portFail p 5).port p).lanes = (s.port p).lanes := lanes_of_rxView (portFail_rxView s p 5 p)
  unfold State.degrade
  dsimp only
  split
  · exact .inl failed
  · split
    · split
      · exact .inl failed
      · refine .inr ?_
        rw [lanes_of_rxView (needRetry_rxView _ p p), State.toHalf, event_port,
          port_setPort_same _ _ _ (hp.trans_eq (sendCtl_ports_length ..).symm), lanes_of_rxView (sendCtl_rxView s p 6 _ p)]
    · exact .inl failed

/-- What a failure leaves of the lane: a lost lock or a lost signal unlocks it, and it counts as bad (R244, R259). -/
def Lane.failed (lost : Bool) (x : Lane) : Lane :=
  { x with locked := x.locked && !lost, good := if lost then 0 else x.good, bad := true }

/-- A lane of a port in service may have to lock anew besides (R259). -/
theorem laneFails_rxLane (s : State) (p l cause : Nat) (hp : p < s.jl.ports.length)
    (hl : l < (s.port p).lanes.length) :
    (s.laneFails p l cause).rxLane p l = (s.rxLane p l).failed (cause != 3) ∨
      ((s.port p).state = 4 ∨ (s.port p).state = 5) ∧
        (s.laneFails p l cause).rxLane p l = ((s.rxLane p l).failed (cause != 3)).relock := by
  unfold State.laneFails
  dsimp only
  generalize hu : s.setPort p _ = u
  have hport := hu ▸ port_setPort_same s p _ hp
  have hlane : u.rxLane p l = (s.rxLane p l).failed (cause != 3) := by
    unfold State.rxLane
    rw [hport]
    exact modifyNth_getD_same _ l _ _ hl
  have hlen : p < u.jl.ports.length := by rw [← hu, ports_length_setPort]; exact hp
  rw [← hlane]
  split
  case isTrue hup =>
    rw [hport] at hup
    split
    · exact (degrade_lanes u p cause hlen).imp (rxLane_congr · l) fun h => ⟨hup, rxLane_of_map rfl h l⟩
    · exact .inl rfl
  case isFalse =>
    exact .inl (rxLane_congr (port_setPort_keeps PeerPort.lanes (by exact fun _ => rfl) u p p) l)

/-! ### What a marker makes of a lane (R243, R244) -/

theorem ofNat_bitsAt_eq_iff {w : Nat} (x lo : Nat) (b : BitVec w) :
    BitVec.ofNat w (bitsAt x lo w) = b ↔ bitsAt x lo w = b.toNat := by
  rw [← BitVec.toNat_inj, BitVec.toNat_ofNat, bitsAt, Nat.mod_mod]

/-- PATTERN holds and LANE is the lane's own (R244). -/
def Lane.Fits (l : Lane) (m : Marker) : Prop :=
  bitsAt m.bits.toNat 0 60 = markerPattern ∧ bitsAt m.bits.toNat 60 3 = l.id.toNat

/-- BIP is the parity of the lane's bits since the marker before (R242). -/
abbrev BipMatches (m : Marker) : Prop := bitsAt m.bits.toNat 64 8 = (bipOf m.interval).toNat

theorem laneMarker_of_third {l : Lane} {m : Marker} (hlock : l.locked = false) (hgood : l.good = 2) (hfits : l.Fits m)
    (heven : BipMatches m) (hnb : bitsAt m.bits.toNat 72 8 + bitsAt m.bits.toNat 64 8 = 255) (htime : m.onTime = true) :
    laneMarker l m =
      { l with good := 3, locked := true, miss := 0, bipRun := 0, inSkew := m.inSkew, los := false } := by
  obtain ⟨hpat, hid⟩ := hfits
  have hbip := (ofNat_bitsAt_eq_iff _ _ _).mpr heven
  rw [BipMatches] at heven
  rw [heven] at hnb
  simp [laneMarker, hlock, hgood, hpat, (ofNat_bitsAt_eq_iff _ _ _).mpr hid, hbip, hnb, htime]

theorem laneMarker_of_unfit {l : Lane} {m : Marker} (hlock : l.locked = true) (hfits : ¬l.Fits m) :
    laneMarker l m = { l with miss := l.miss + 1, bipRun := 0, inSkew := m.inSkew, los := false } := by
  have hfail : (decide (bitsAt m.bits.toNat 0 60 = markerPattern) &&
      BitVec.ofNat 3 (bitsAt m.bits.toNat 60 3) == l.id) = false := by
    simpa [ofNat_bitsAt_eq_iff, Lane.Fits] using hfits
  simp [laneMarker, hlock, hfail]

theorem laneMarker_of_fit {l : Lane} {m : Marker} (hlock : l.locked = true) (hfits : l.Fits m) :
    laneMarker l m =
      { l with miss := 0, bip := if BipMatches m then l.bip else stick l.bip 1,
               bipRun := if BipMatches m then 0 else l.bipRun + 1, inSkew := m.inSkew, los := false } := by
  obtain ⟨hpat, hid⟩ := hfits
  have hbip := ofNat_bitsAt_eq_iff m.bits.toNat 64 (bipOf m.interval)
  by_cases heven : BipMatches m
  · simp [laneMarker, hlock, hpat, (ofNat_bitsAt_eq_iff _ _ _).mpr hid, heven]
  · simp [laneMarker, hlock, hpat, (ofNat_bitsAt_eq_iff _ _ _).mpr hid, mt hbip.mp heven, heven]

/-! ### MARKER_RECEIVE -/

/-- The port's lanes are good: none bad, no BIP count rising (R260). -/
def Lane.sound (x : Lane) : Lane := { x with bad := false, bipRun := 0 }

/-- An alignment keeps a port's lanes and its descrambler, but where the port widens again it counts all lanes as good
(R260). -/
theorem nowAligned_rxView (s : State) (p : Nat) (hp : p < s.jl.ports.length) :
    ((s.nowAligned p).port p).rxView =
      (if (s.port p).widen then (s.port p).lanes.map Lane.sound else (s.port p).lanes, (s.port p).rx.scr) := by
  have kept (t : State) (f : PeerPort → PeerPort) (hf : ∀ q, (f q).rxView = q.rxView) :
      ((t.setPort p f).port p).rxView = (t.port p).rxView := port_setPort_keeps PeerPort.rxView hf t p p
  unfold State.nowAligned
  dsimp only
  split
  · rw [port_setPort_same s p _ hp]
    rfl
  · split
    · exact kept s _ fun _ => rfl
    · split
      · split
        · rw [sendIdent_rxView]
          exact (kept (s.setPort p _) _ (by exact fun _ => rfl)).trans (kept s _ (by exact fun _ => rfl))
        · exact kept s _ fun _ => rfl
      · rfl

theorem nowAligned_rxLane (s : State) (p l : Nat) (hp : p < s.jl.ports.length) :
    (s.nowAligned p).rxLane p l = if (s.port p).widen then (s.rxLane p l).sound else s.rxLane p l := by
  have h := congrArg Prod.fst (nowAligned_rxView s p hp)
  split at h
  case isTrue hw => rw [if_pos hw, rxLane_of_map rfl h]
  case isFalse hw => rw [if_neg hw, rxLane_congr h]

/-- The marker enters its lane and restarts the descrambler; what follows from it comes after (R241, R243). -/
def State.markLane (s : State) (p l : Nat) (m : Marker) : State :=
  s.setPort p fun q =>
    { q with lanes := modifyNth (fun x => laneMarker x m) l q.lanes, rx := { q.rx with scr := scrReset } }

theorem doMarkerReceive_eq (p lane : BitVec 3) (m : Marker) (s : State) :
    doMarkerReceive p lane m s =
      let u := s.markLane p.toNat lane.toNat m
      let x := u.rxLane p.toNat lane.toNat
      if x.locked && decide (x.miss ≥ 3) then u.laneFails p.toNat lane.toNat 1
      else if x.locked && decide (x.bipRun ≥ 16) then u.laneFails p.toNat lane.toNat 3
      else if (u.port p.toNat).aligned then u.nowAligned p.toNat
      else u := rfl

section MarkerReceive

variable (s : State) (p lane : BitVec 3) (m : Marker) (hp : p.toNat < s.jl.ports.length)
  (hl : lane.toNat < (s.port p.toNat).lanes.length)

include hp

theorem markLane_port : (s.markLane p.toNat lane.toNat m).port p.toNat =
    { s.port p.toNat with
      lanes := modifyNth (fun x => laneMarker x m) lane.toNat (s.port p.toNat).lanes
      rx := { (s.port p.toNat).rx with scr := scrReset } } :=
  port_setPort_same s p.toNat _ hp

theorem markLane_present : p.toNat < (s.markLane p.toNat lane.toNat m).jl.ports.length := by
  rwa [State.markLane, ports_length_setPort]

include hl

theorem markLane_rxLane :
    (s.markLane p.toNat lane.toNat m).rxLane p.toNat lane.toNat = laneMarker (s.rxLane p.toNat lane.toNat) m := by
  rw [State.rxLane, markLane_port s p lane m hp]
  exact modifyNth_getD_same _ _ _ _ hl

theorem markLane_laneFails_rxLane (cause : Nat) :
    let x := (laneMarker (s.rxLane p.toNat lane.toNat) m).failed (cause != 3)
    let t := (s.markLane p.toNat lane.toNat m).laneFails p.toNat lane.toNat cause
    t.rxLane p.toNat lane.toNat = x ∨
      ((s.port p.toNat).state = 4 ∨ (s.port p.toNat).state = 5) ∧ t.rxLane p.toNat lane.toNat = x.relock := by
  have hport := markLane_port s p lane m hp
  have h := laneFails_rxLane (s.markLane p.toNat lane.toNat m) p.toNat lane.toNat cause
    (markLane_present s p lane m hp) (by rw [hport, modifyNth_length]; exact hl)
  rwa [markLane_rxLane s p lane m hp hl, hport] at h

section Outcomes

variable {x : Lane} (hx : laneMarker (s.rxLane p.toNat lane.toNat) m = x)

include hx

/-- The third failed marker in a row unlocks a locked lane (R244). -/
theorem doMarkerReceive_rxLane_of_lost (hlock : x.locked = true) (hmiss : 3 ≤ x.miss) :
    let t := doMarkerReceive p lane m s
    t.rxLane p.toNat lane.toNat = x.failed true ∨ t.rxLane p.toNat lane.toNat = (x.failed true).relock := by
  subst hx
  rw [doMarkerReceive_eq]
  dsimp only
  rw [markLane_rxLane s p lane m hp hl, if_pos (by simp [hlock, hmiss])]
  exact (markLane_laneFails_rxLane s p lane m hp hl 1).imp_right And.right

/-- The sixteenth interval in a row whose BIP count rises fails the lane, which a port that is UP locks anew (R259). -/
theorem doMarkerReceive_rxLane_of_parity (hlock : x.locked = true) (hmiss : x.miss < 3) (hrun : 16 ≤ x.bipRun) :
    let t := doMarkerReceive p lane m s
    t.rxLane p.toNat lane.toNat = x.failed false ∨
      ((s.port p.toNat).state = 4 ∨ (s.port p.toNat).state = 5) ∧
        t.rxLane p.toNat lane.toNat = (x.failed false).relock := by
  subst hx
  rw [doMarkerReceive_eq]
  dsimp only
  rw [markLane_rxLane s p lane m hp hl, if_neg (by simp; omega), if_pos (by simp [hlock, hrun])]
  exact markLane_laneFails_rxLane s p lane m hp hl 3

/-- A marker that fails no lane: the lane is what the marker made of it, or a good lane of a port that has widened. -/
theorem doMarkerReceive_rxLane_of_kept (hmiss : x.miss < 3) (hrun : x.bipRun < 16) :
    let t := doMarkerReceive p lane m s
    (t.rxLane p.toNat lane.toNat = x ∨
      (s.port p.toNat).widen = true ∧ t.rxLane p.toNat lane.toNat = x.sound) ∧
    (t.port p.toNat).rx.scr = scrReset := by
  subst hx
  have hlane := markLane_rxLane s p lane m hp hl
  have hport := markLane_port s p lane m hp
  have hpres := markLane_present s p lane m hp
  rw [doMarkerReceive_eq]
  dsimp only
  rw [hlane, if_neg (by simp; omega), if_neg (by simp; omega)]
  split
  · constructor
    · rw [nowAligned_rxLane _ _ _ hpres, hlane]
      split
      case isTrue hw => exact .inr ⟨by rwa [hport] at hw, rfl⟩
      case isFalse => exact .inl rfl
    · exact (congrArg Prod.snd (nowAligned_rxView _ _ hpres)).trans (by rw [hport])
  · exact ⟨.inl hlane, by rw [hport]⟩

end Outcomes

theorem doMarkerReceive_locks (hlock : (s.rxLane p.toNat lane.toNat).locked = false)
    (hgood : (s.rxLane p.toNat lane.toNat).good = 2) (hfits : (s.rxLane p.toNat lane.toNat).Fits m)
    (hbip : BipMatches m) (hnb : bitsAt m.bits.toNat 72 8 + bitsAt m.bits.toNat 64 8 = 255) (htime : m.onTime = true) :
    let t := doMarkerReceive p lane m s
    (t.rxLane p.toNat lane.toNat).locked = true ∧ (t.port p.toNat).rx.scr = scrReset := by
  have hx := laneMarker_of_third hlock hgood hfits hbip hnb htime
  obtain ⟨h | ⟨-, h⟩, hscr⟩ :=
    doMarkerReceive_rxLane_of_kept s p lane m hp hl hx (Nat.zero_lt_succ 2) (Nat.zero_lt_succ 15)
  all_goals exact ⟨congrArg Lane.locked h, hscr⟩

section Locked

variable (hlock : (s.rxLane p.toNat lane.toNat).locked = true)

include hlock

theorem doMarkerReceive_unlocks (hfits : ¬(s.rxLane p.toNat lane.toNat).Fits m)
    (hmiss : 2 ≤ (s.rxLane p.toNat lane.toNat).miss) :
    let t := doMarkerReceive p lane m s
    (t.rxLane p.toNat lane.toNat).locked = false ∧ (t.rxLane p.toNat lane.toNat).bad = true := by
  have hx := laneMarker_of_unfit hlock hfits
  obtain h | h := doMarkerReceive_rxLane_of_lost s p lane m hp hl hx hlock (Nat.succ_le_succ hmiss)
  · exact ⟨(congrArg Lane.locked h).trans (Bool.and_false _), congrArg Lane.bad h⟩
  · exact ⟨congrArg Lane.locked h, congrArg Lane.bad h⟩

/-- A first or second failed marker is counted, and the lane stays locked (R244). -/
theorem doMarkerReceive_counts_miss (hfits : ¬(s.rxLane p.toNat lane.toNat).Fits m)
    (hmiss : (s.rxLane p.toNat lane.toNat).miss < 2) :
    let l := s.rxLane p.toNat lane.toNat
    let t := doMarkerReceive p lane m s
    (t.rxLane p.toNat lane.toNat).locked = true ∧
      ((s.port p.toNat).widen = false → t.rxLane p.toNat lane.toNat =
        { l with miss := l.miss + 1, bipRun := 0, inSkew := m.inSkew, los := false }) := by
  have hx := laneMarker_of_unfit hlock hfits
  obtain ⟨h | ⟨hw, h⟩, -⟩ :=
    doMarkerReceive_rxLane_of_kept s p lane m hp hl hx (Nat.succ_lt_succ hmiss) (Nat.zero_lt_succ 15)
  · exact ⟨(congrArg Lane.locked h).trans hlock, fun _ => h⟩
  · exact ⟨(congrArg Lane.locked h).trans hlock, fun hw' => absurd hw (by simp [hw'])⟩

/-- A marker that fits, with a good BIP or fewer than 16 bad ones in a row, leaves the lane locked (R244, R259). -/
theorem doMarkerReceive_counts_parity (hfits : (s.rxLane p.toNat lane.toNat).Fits m)
    (hrun : BipMatches m ∨ (s.rxLane p.toNat lane.toNat).bipRun < 15) :
    let l := s.rxLane p.toNat lane.toNat
    let bip := if BipMatches m then l.bip else stick l.bip 1
    let t := doMarkerReceive p lane m s
    (t.rxLane p.toNat lane.toNat).bip = bip ∧ (t.rxLane p.toNat lane.toNat).locked = true ∧
      ((s.port p.toNat).widen = false → t.rxLane p.toNat lane.toNat =
        { l with miss := 0, bip := bip, bipRun := if BipMatches m then 0 else l.bipRun + 1,
                 inSkew := m.inSkew, los := false }) := by
  have hx := laneMarker_of_fit hlock hfits
  have hrun' : (if BipMatches m then 0 else (s.rxLane p.toNat lane.toNat).bipRun + 1) < 16 := by
    split <;> omega
  obtain ⟨h | ⟨hw, h⟩, -⟩ := doMarkerReceive_rxLane_of_kept s p lane m hp hl hx (Nat.zero_lt_succ 2) hrun'
  · exact ⟨congrArg Lane.bip h, (congrArg Lane.locked h).trans hlock, fun _ => h⟩
  · exact ⟨congrArg Lane.bip h, (congrArg Lane.locked h).trans hlock, fun hw' => absurd hw (by simp [hw'])⟩

/-- The sixteenth bad BIP in a row is counted and marks the lane bad, and breaks no lock of a port that is not UP (R259). -/
theorem doMarkerReceive_fails_on_parity (hfits : (s.rxLane p.toNat lane.toNat).Fits m) (hodd : ¬BipMatches m)
    (hrun : 15 ≤ (s.rxLane p.toNat lane.toNat).bipRun) :
    let t := doMarkerReceive p lane m s
    (t.rxLane p.toNat lane.toNat).bip = stick (s.rxLane p.toNat lane.toNat).bip 1 ∧
      (t.rxLane p.toNat lane.toNat).bad = true ∧
      (¬((s.port p.toNat).state = 4 ∨ (s.port p.toNat).state = 5) → (t.rxLane p.toNat lane.toNat).locked = true) := by
  have hx := laneMarker_of_fit hlock hfits
  simp only [if_neg hodd] at hx
  obtain h | ⟨hup, h⟩ :=
    doMarkerReceive_rxLane_of_parity s p lane m hp hl hx hlock (Nat.zero_lt_succ 2) (Nat.succ_le_succ hrun)
  · exact ⟨congrArg Lane.bip h, congrArg Lane.bad h,
      fun _ => (congrArg Lane.locked h).trans ((Bool.and_true _).trans hlock)⟩
  · exact ⟨congrArg Lane.bip h, congrArg Lane.bad h, fun hdown => absurd hup hdown⟩

end Locked

end MarkerReceive

/-! ### LANE_LOS -/

/-- A lost signal unlocks the lane at once and marks it (R244, R259). -/
theorem laneLos_effect (s : State) (p l : Nat) (hp : p < s.jl.ports.length) (hl : l < (s.port p).lanes.length) :
    let u := s.setPort p fun q => { q with lanes := modifyNth (fun x => { x with los := true }) l q.lanes }
    let t := u.laneFails p l 2
    (t.rxLane p l).locked = false ∧ (t.rxLane p l).los = true ∧ (t.rxLane p l).bad = true := by
  intro u
  have hport : u.port p = _ := port_setPort_same s p _ hp
  have hlos : (u.rxLane p l).los = true := by
    rw [State.rxLane, hport, modifyNth_getD_same _ _ _ _ hl]
  have hlen : l < (u.port p).lanes.length := by rwa [hport, modifyNth_length]
  obtain h | ⟨-, h⟩ := laneFails_rxLane u p l 2 (by rwa [ports_length_setPort]) hlen
  · exact ⟨(congrArg Lane.locked h).trans (Bool.and_false _), (congrArg Lane.los h).trans hlos, congrArg Lane.bad h⟩
  · exact ⟨congrArg Lane.locked h, (congrArg Lane.los h).trans hlos, congrArg Lane.bad h⟩

/-! ### MARKER_TRANSMIT -/

theorem active_nodup (q : PeerPort) : q.active.Nodup := by
  unfold PeerPort.active
  split
  · split <;> decide
  · exact List.nodup_range

theorem laneStreams_length (w : Nat) (scr : BitVec 58) (blocks : List (List Byte)) :
    (laneStreams w scr blocks).length = w := by
  induction blocks generalizing scr with
  | nil => exact List.length_replicate
  | cons b blocks ih => simp [laneStreams, ih]

theorem sendLane_out (s : State) (p lane : Nat) (bits : List Bool) :
    (s.sendLane p lane bits).out = s.out ++ [.txd p lane (laneWords ((s.port p).tx.rest.getD lane [] ++ bits)).1] := rfl

/-- A lane that sends changes nothing of its port but the bits that wait for that lane. -/
theorem sendLane_keeps {α : Type} (view : PeerPort → α) (s : State) (p lane : Nat) (bits : List Bool)
    (h : ∀ (q : PeerPort) (rest : List Bool),
      view { q with tx := { q.tx with rest := modifyNth (fun _ => rest) lane q.tx.rest } } = view q) :
    view ((s.sendLane p lane bits).port p) = view (s.port p) :=
  port_setPort_keeps view (fun q => h q _) s p p

/-- Lanes that send one after another, no lane twice: each drives the words of the bits that waited for it at the start
and of its own. -/
theorem sendLanes_out {α : Type} (p : Nat) (lane : α → Nat) (bits : α → List Bool) (l : List α) (s : State)
    (hl : (l.map lane).Nodup) :
    (l.foldl (fun s x => s.sendLane p (lane x) (bits x)) s).out =
      s.out ++ l.map fun x => .txd p (lane x) (laneWords ((s.port p).tx.rest.getD (lane x) [] ++ bits x)).1 := by
  induction l generalizing s with
  | nil => simp
  | cons x l ih =>
    obtain ⟨hx, hl⟩ := List.nodup_cons.mp hl
    have hrest (y : α) (hy : y ∈ l) : ((s.sendLane p (lane x) (bits x)).port p).tx.rest.getD (lane y) [] =
        (s.port p).tx.rest.getD (lane y) [] :=
      sendLane_keeps (·.tx.rest.getD (lane y) []) s p (lane x) (bits x) fun q rest =>
        modifyNth_getD_ne _ _ _ _ _ fun heq => hx (heq ▸ List.mem_map_of_mem hy)
    rw [List.foldl_cons, ih _ hl, sendLane_out, List.map_cons, List.append_assoc, List.singleton_append]
    congr 2
    exact List.map_congr_left fun y hy => by rw [hrest y hy]

theorem sendLanes_keeps {α β : Type} (view : PeerPort → β)
    (h : ∀ (q : PeerPort) (rest : List (List Bool)), view { q with tx := { q.tx with rest := rest } } = view q)
    (p : Nat) (lane : α → Nat) (bits : α → List Bool) (l : List α) (s : State) :
    view ((l.foldl (fun s x => s.sendLane p (lane x) (bits x)) s).port p) = view (s.port p) := by
  induction l generalizing s with
  | nil => rfl
  | cons x l ih => rw [List.foldl_cons, ih, sendLane_keeps view s p _ _ fun q _ => h q _]

/-- n block slots and their markers: what each lane in use drives, and what stays in the frame stream (R237, R242, R245). -/
theorem sendBlocks_effect (s : State) (p n : Nat) (gaps : List Nat) (hp : p < s.jl.ports.length) :
    let q := s.port p
    let w := txWords (40 * n) 0 gaps q.tx.wire
    let streams := laneStreams q.active.length scrReset (groupsOf 320 w.1.flatten)
    let t := s.sendBlocks p n gaps
    (t.port p).tx.wire = w.2 ∧ (t.port p).lanes = q.lanes ∧
      t.out = s.out ++ (q.active.zip streams).zipIdx.map fun x =>
        .txd p x.1.1 (laneWords (q.tx.rest.getD x.1.1 [] ++
          (x.1.2 ++ natBits 340 (markerBits x.2 (bipOf x.1.2)).toNat))).1 := by
  dsimp only
  unfold State.sendBlocks
  dsimp only
  generalize txWords (40 * n) 0 gaps (s.port p).tx.wire = w
  have hlen := laneStreams_length (s.port p).active.length scrReset (groupsOf 320 w.1.flatten)
  generalize laneStreams (s.port p).active.length scrReset (groupsOf 320 w.1.flatten) = streams at hlen ⊢
  have hnodup : (((s.port p).active.zip streams).zipIdx.map fun x => x.1.1).Nodup := by
    have hfst : ((s.port p).active.zip streams).zipIdx.map (fun x => x.1.1) = (s.port p).active := by
      calc _ = (((s.port p).active.zip streams).zipIdx.map Prod.fst).map Prod.fst := (List.map_map ..).symm
        _ = (s.port p).active := by rw [List.zipIdx_map_fst, List.map_fst_zip hlen.ge]
    rw [hfst]
    exact active_nodup _
  refine ⟨?_, ?_, ?_⟩
  · rw [sendLanes_keeps (·.tx.wire) (fun _ _ => rfl), port_setPort_same s p _ hp]
  · rw [sendLanes_keeps PeerPort.lanes (fun _ _ => rfl), port_setPort_same s p _ hp]
  · rw [sendLanes_out p (fun x : (Nat × List Bool) × Nat => x.1.1) (fun x => x.1.2 ++ _) _ _ hnodup,
      port_setPort_same s p _ hp]
    rfl

/-! ### CODEWORD_DECODE -/

/-- The message symbols that a codeword gives: the corrected ones, or those received (R239, R240). -/
def RsResult.symbols (r : RsResult) (cw : List Nat) : List Nat :=
  match r with
  | .corrected c => c.take 128
  | _ => cw.take 128

/-- The descrambler's state after a codeword (R241). -/
def PeerPort.descrambled (q : PeerPort) (scr : BitVec 58) : PeerPort := { q with rx := { q.rx with scr := scr } }

/-- The decoder's counts after a codeword (R240). -/
def PeerPort.counted (q : PeerPort) (r : RsResult) : PeerPort :=
  match r with
  | .clean => q
  | .corrected _ => { q with fecCorr := stick q.fecCorr 1 }
  | .failed => { q with fecUncorr := stick q.fecUncorr 1 }

/-- The bytes of a codeword enter their block: the first codeword's wait, the second's complete it (R240, R245). -/
def PeerPort.withBytes (q : PeerPort) (second : Bool) (bytes : List Byte) (bad : Bool) : PeerPort :=
  if second then
    let c := q.rx.cutter.block (q.rx.decoded ++ bytes) q.rx.decodedBad bad
    { q with rx := { q.rx with decoded := [], decodedBad := false, cutter := c.1, cut := q.rx.cut ++ c.2 } }
  else { q with rx := { q.rx with decoded := bytes, decodedBad := bad } }

theorem counted_withBytes_counts {q t : PeerPort} {r : RsResult} {second : Bool} {bytes : List Byte} {bad : Bool}
    (ht : t = (q.counted r).withBytes second bytes bad) :
    (r = .clean → t.fecCorr = q.fecCorr ∧ t.fecUncorr = q.fecUncorr) ∧
      (∀ c, r = .corrected c → t.fecCorr = stick q.fecCorr 1 ∧ t.fecUncorr = q.fecUncorr) ∧
      (r = .failed → t.fecCorr = q.fecCorr ∧ t.fecUncorr = stick q.fecUncorr 1) := by
  subst ht
  cases second <;> cases r <;> simp [PeerPort.counted, PeerPort.withBytes]

theorem counted_withBytes_rx {q t : PeerPort} {r : RsResult} {second : Bool} {bytes : List Byte} {bad : Bool}
    (ht : t = (q.counted r).withBytes second bytes bad) :
    t.rx.scr = q.rx.scr ∧
      (second = false → t.rx.decoded = bytes ∧ t.rx.decodedBad = bad ∧ t.rx.cut = q.rx.cut) ∧
      (second = true → t.rx.decoded = [] ∧
        t.rx.cut = q.rx.cut ++ (q.rx.cutter.block (q.rx.decoded ++ bytes) q.rx.decodedBad bad).2) := by
  subst ht
  cases second <;> cases r <;> simp [PeerPort.counted, PeerPort.withBytes]

/-- CODEWORD_DECODE on its port: the descrambler goes on, the result is counted, and the bytes enter their block. -/
theorem doCodewordDecode_port (p : BitVec 3) (second : Bool) (bits : List (List Bool)) (s : State)
    (hp : p.toNat < s.jl.ports.length) {cw data : List Nat} {r : RsResult} {d : List Bool × BitVec 58}
    (hcw : laneSymbols ((s.port p.toNat).inOrder bits) second = cw) (hr : rsDecode cw = r) (hdata : r.symbols cw = data)
    (hd : scramble (s.port p.toNat).rx.scr (data.flatMap (natBits 10)) = d) :
    (doCodewordDecode p second bits s).port p.toNat =
      (((s.port p.toNat).descrambled d.2).counted r).withBytes second (bitmapBytes d.1) (r == .failed) := by
  subst hd hdata
  unfold doCodewordDecode
  dsimp only
  rw [port_setPort_same s _ _ hp, hcw, hr]
  cases r <;> rfl

/-! ### The obligation -/

/-- Settles O35: MARKER_RECEIVE is the lemmas `doMarkerReceive_locks` to `doMarkerReceive_fails_on_parity`, LANE_LOS is
`laneLos_effect`, MARKER_TRANSMIT is `sendBlocks_effect` of 8,192 block slots, and CODEWORD_DECODE is
`doCodewordDecode_port`. -/
theorem lanesLockAndDecode : Obligations.LanesLockAndDecode := by
  refine ⟨fun s p lane m => ?_, fun s p gaps hp => ?_, fun s p second low high => ?_⟩
  · intro n l up par hp hl
    have hrun := run_next (doMarkerReceive p lane m) s
    refine ⟨fun hlock hgood hpat hid hbip hnb htime => ?_, fun hlock => ?_, ?_⟩
    · exact ⟨_, hrun, doMarkerReceive_locks s.begin_ p lane m hp hl hlock hgood ⟨hpat, hid⟩ hbip hnb htime⟩
    · intro good even
      have hunfit := doMarkerReceive_counts_miss s.begin_ p lane m hp hl hlock
      have hfit := doMarkerReceive_counts_parity s.begin_ p lane m hp hl hlock
      have hodd := doMarkerReceive_fails_on_parity s.begin_ p lane m hp hl hlock
      refine ⟨fun hbad h2 => ?_, fun hbad h2 => ?_, fun hgood hne => ?_, fun hbad h2 hw => ?_, fun hgood he hw => ?_,
        fun hgood hne h15 => ?_⟩
      · exact ⟨_, hrun, doMarkerReceive_unlocks s.begin_ p lane m hp hl hlock hbad h2⟩
      · obtain ⟨hkept, -⟩ := hunfit hbad h2
        exact ⟨_, hrun, hkept⟩
      · obtain h15 | h15 := Nat.lt_or_ge l.bipRun 15
        · obtain ⟨hbip, hkept, -⟩ := hfit hgood (.inr h15)
          exact ⟨_, hrun, hbip.trans (if_neg hne), fun _ => hkept⟩
        · obtain ⟨hbip, -⟩ := hodd hgood hne h15
          exact ⟨_, hrun, hbip, fun hlt => absurd h15 (Nat.not_le.mpr hlt)⟩
      · obtain ⟨-, hlane⟩ := hunfit hbad h2
        exact ⟨_, hrun, hlane hw⟩
      · obtain ⟨-, -, hlane⟩ := hfit hgood he
        exact ⟨_, hrun, hlane hw⟩
      · obtain ⟨-, hfailed⟩ := hodd hgood hne h15
        exact ⟨_, hrun, hfailed⟩
    · exact ⟨_, run_next (fun s => (s.setPort _ _).laneFails _ _ 2) s,
        laneLos_effect s.begin_ p.toNat lane.toNat hp hl⟩
  · obtain ⟨hwire, hlanes, hout⟩ := sendBlocks_effect s.begin_ p.toNat markerSlots gaps hp
    exact ⟨_, run_next (fun s => s.sendBlocks p.toNat markerSlots gaps) s, hwire, hlanes, hout⟩
  · intro n q cw
    generalize hr : rsDecode cw = r
    intro _ data d bad hp
    have hdata : data = r.symbols cw := by cases r <;> rfl
    have hport := doCodewordDecode_port p second (low ++ high) s.begin_ hp rfl hr hdata.symm (d := d) rfl
    obtain ⟨hclean, hcorr, hfail⟩ := counted_withBytes_counts hport
    obtain ⟨hscr, hfirst, hsecond⟩ := counted_withBytes_rx hport
    exact ⟨_, run_next (doCodewordDecode p second (low ++ high)) s, rfl, hscr, hclean, hcorr, hfail, hfirst, hsecond⟩

end Sys2Proof.Machine
end

section
/-!
One event and the ring it enters (R347, R349). `ringPut` is described field by field, and a command that recorded a single
event ends in that one `ringPut`.
-/

namespace Sys2Proof.Machine

/-! ### One entry written at HEAD -/

section RingPut

variable (slot : SlotNo) (step : StepNo) (r : RingBlock) (e : EvRec)

@[simp] theorem ringPut_head : (ringPut slot step r e).head = r.head + 1 := rfl

@[simp] theorem ringPut_irqErr : (ringPut slot step r e).irqErr = (r.irqErr || e.sev == 1) := rfl

@[simp] theorem ringPut_irqFatal : (ringPut slot step r e).irqFatal = (r.irqFatal || e.sev == 2) := rfl

theorem tabGet_ringPut_same : tabGet r.head.toNat (ringPut slot step r e).ring =
    some ⟨BitVec.ofNat 16 e.code, BitVec.ofNat 2 e.sev, slot, step, e.items⟩ :=
  tabGet_tabSet_same r.head.toNat _ r.ring

theorem tabGet_ringPut_ne {i : Nat} (hi : i ≠ r.head.toNat) :
    tabGet i (ringPut slot step r e).ring = tabGet i r.ring :=
  tabGet_tabSet_ne i r.head.toNat _ r.ring hi

/-- A full ring gives up its oldest entry and counts it. -/
theorem ringPut_of_full (h : r.head + 1 = r.tail) :
    (ringPut slot step r e).tail = r.tail + 1 ∧ (ringPut slot step r e).lost = stick r.lost 1 :=
  have hfull : (r.head + 1 == r.tail) = true := beq_iff_eq.mpr h
  ⟨if_pos hfull, if_pos hfull⟩

theorem ringPut_of_room (h : r.head + 1 ≠ r.tail) :
    (ringPut slot step r e).tail = r.tail ∧ (ringPut slot step r e).lost = r.lost :=
  have hroom : ¬(r.head + 1 == r.tail) = true := fun hfull => h (beq_iff_eq.mp hfull)
  ⟨if_neg hroom, if_neg hroom⟩

end RingPut

/-! ### The end of a command that recorded one event -/

/-- The state with another event ring. -/
def State.withRing (s : State) (r : RingBlock) : State := { s with js := { s.js with ring := r } }

theorem finish_eq_withRing (s : State) : s.finish = s.withRing
    ((sortBy evBefore s.js.ring.evq).foldl (ringPut s.jq.slot s.jq.step) { s.js.ring with evq := [] }) := rfl

/-- An event that is the only one of its command enters at HEAD, and the ring is all that changes. -/
theorem finish_event (s : State) (source code sev : Nat) (items : List EvItem) (h : s.eventsIn = true) :
    (s.event source code sev items).finish =
      s.withRing (ringPut s.jq.slot s.jq.step s.js.ring ⟨source, code, sev, items⟩) := by
  have hevq : s.js.ring.evq = [] := List.isEmpty_iff.mp h
  have hclear : { s.js.ring with evq := [] } = s.js.ring := by rw [← hevq]
  calc (s.event source code sev items).finish
    _ = s.withRing ((sortBy evBefore (s.js.ring.evq ++ [⟨source, code, sev, items⟩])).foldl
          (ringPut s.jq.slot s.jq.step) { s.js.ring with evq := [] }) := finish_eq_withRing _
    _ = s.withRing ((sortBy evBefore [⟨source, code, sev, items⟩]).foldl (ringPut s.jq.slot s.jq.step) s.js.ring) := by
          rw [hclear, hevq, List.nil_append]
    _ = s.withRing (ringPut s.jq.slot s.jq.step s.js.ring ⟨source, code, sev, items⟩) := rfl

/-- The entry just below the advanced HEAD is the one just written. -/
theorem newest_withRing_ringPut (s : State) (slot : SlotNo) (step : StepNo) (r : RingBlock) (e : EvRec) :
    (s.withRing (ringPut slot step r e)).newest =
      some ⟨BitVec.ofNat 16 e.code, BitVec.ofNat 2 e.sev, slot, step, e.items⟩ := by
  show tabGet (r.head + 1 - 1).toNat (ringPut slot step r e).ring = _
  rw [BitVec.add_sub_cancel, tabGet_ringPut_same]

/-! ### The obligation -/

/-- Settles O6: `finish_event` reduces the command's end to one `ringPut`, whose fields the lemmas above give; the interrupt
lines and the frame are read off `State.withRing`. -/
theorem anEventEntersTheRing : Obligations.AnEventEntersTheRing := by
  intro s source code sev items hin
  rw [finish_event s source code sev items hin]
  exact ⟨newest_withRing_ringPut .., ringPut_head .., ringPut_of_full _ _ _ _, ringPut_of_room _ _ _ _,
    ringPut_irqErr .., ringPut_irqFatal .., rfl, rfl, rfl, rfl, fun _ hi => tabGet_ringPut_ne _ _ _ _ hi, rfl⟩

end Sys2Proof.Machine
end

section
/-!
What the operations of the link's transmitter, of failures and the Twin, of the sequencer, of boot and the service
commands and of the registers leave alone, as Laws/Fixed says it of the other units: one lemma each.
-/

namespace Sys2Proof.Machine

/-! ### Machine/Link, Resilience -/

@[simp] theorem driveFrame_fixed (s : State) (p typ vc : Nat) (first last : Bool) (fseq : W16) (payload : List Byte) (eof : Nat) (atBlock : Bool) :
    (State.driveFrame s p typ vc first last fseq payload eof atBlock).fixed = s.fixed := rfl

@[simp] theorem unmarkChunk_fixed (s : State) (i : Nat) :
    (State.unmarkChunk s i).1.fixed = s.fixed := by
  unfold State.unmarkChunk
  split <;> simp

@[simp] theorem loseGroups_fixed (s : State) (t : Nat) :
    (State.loseGroups s t).1.fixed = s.fixed := by
  simp [State.loseGroups]

@[simp] theorem loseCarries_fixed (s : State) (t : Nat) :
    (State.loseCarries s t).1.fixed = s.fixed := rfl

@[simp] theorem loseRows_fixed (s : State) (t : Nat) :
    (State.loseRows s t).1.fixed = s.fixed := rfl

@[simp] theorem rerun_fixed (s : State) (t : Nat) :
    (State.rerun s t).fixed = s.fixed := rfl

@[simp] theorem rerunRefresh_fixed (s : State) (t : Nat) : (s.rerunRefresh t).fixed = s.fixed := by
  unfold State.rerunRefresh
  split
  · rfl
  · split <;> simp

@[simp] theorem rerunBlocks_fixed (s : State) (t : Nat) :
    (State.rerunBlocks s t).fixed = s.fixed := rfl

@[simp] theorem codeFault_fixed (s : State) (t : Nat) :
    (State.codeFault s t).fixed = s.fixed := by
  unfold State.codeFault
  split <;> simp

@[simp] theorem tileFails_fixed (s : State) (p cause : Nat) : (s.tileFails p cause).fixed = s.fixed := by
  unfold State.tileFails
  extract_lets t st log _ _ _ s1
  have h1 : s1.fixed = s.fixed := rfl
  clear_value s1 log
  split
  · rfl
  · split
    · exact h1
    · extract_lets s2 g c r s3 lost s4 spare s5
      have h2 : s2.fixed = s.fixed := by
        show (if _ then _ else _ : State).fixed = _
        simp [h1]
      have h4 : s4.fixed = s.fixed := by
        trans s3.fixed
        · show (if _ then _ else _ : State).fixed = _
          simp 
        · simp [s3, r, c, g, h2]
      have h5 : s5.fixed = s.fixed := (event_fixed ..).trans h4
      clear_value s5
      split
      · exact h5
      · exact (memberFail_fixed ..).trans h5

@[simp] theorem remapOne_fixed (s : State) (l : Nat) :
    (State.remapOne s l).fixed = s.fixed := by
  unfold State.remapOne
  split <;> simp

@[simp] theorem remapTiles_fixed (s : State) :
    (State.remapTiles s).fixed = s.fixed := by
  simp [State.remapTiles]

@[simp] theorem setTwin_fixed (s : State) (f : TwinBlock → TwinBlock) :
    (State.setTwin s f).fixed = s.fixed := rfl

@[simp] theorem diverge_fixed (s : State) (own other : TwinItem) :
    (State.diverge s own other).fixed = s.fixed := by
  simp [State.diverge]

@[simp] theorem twinCompare_fixed (s : State) (got : TwinItem) :
    (State.twinCompare s got).fixed = s.fixed := by
  unfold State.twinCompare
  split <;> simp

@[simp] theorem twinPairs_fixed (s : State) :
    (State.twinPairs s).fixed = s.fixed := by
  simp [State.twinPairs]

@[simp] theorem twinFailed_fixed (s : State) :
    (State.twinFailed s).fixed = s.fixed := by
  simp [State.twinFailed]

@[simp] theorem twinIn_fixed (s : State) (msg : TwinMsg) : (s.twinIn msg).fixed = s.fixed := by
  unfold State.twinIn
  split
  · rfl
  · cases msg <;> simp

@[simp] theorem queuesReset_fixed (s : State) :
    (State.queuesReset s).fixed = s.fixed := by
  simp [State.queuesReset]

@[simp] theorem fenceTwin_fixed (s : State) (who : Bool) (cause : Nat) :
    (State.fenceTwin s who cause).fixed = s.fixed := by
  simp [State.fenceTwin]

@[simp] theorem selfTestEnds_fixed (s : State) (r : SelfTest) :
    (State.selfTestEnds s r).fixed = s.fixed := by
  unfold State.selfTestEnds
  split <;> simp

@[simp] theorem twinSlot_fixed (s : State) (st : SelfTest) : (s.twinSlot st).fixed = s.fixed := by
  unfold State.twinSlot
  extract_lets s1 s2
  have h2 : s2.fixed = s.fixed := by
    refine Eq.trans ?_ (twinPairs_fixed s)
    show (match s.twinPairs.jg.twin.diverged with | none => _ | some d => _ : State).fixed = _
    split
    · rfl
    · simp [s1]
  split
  · rfl
  · clear_value s2
    split <;> simp [h2]

/-! ### Machine/Sequencer -/

@[simp] theorem gateReport_fixed (s : State) (index : Nat) (e : SchedEntry) :
    (State.gateReport s index e).fixed = s.fixed := rfl

@[simp] theorem applyAct_fixed (s : State) (act : Nat) :
    (State.applyAct s act).fixed = s.fixed := by
  simp [State.applyAct]

@[simp] theorem setShift_fixed (s : State) (id : Nat) (sh : Shift) :
    (State.setShift s id sh).fixed = s.fixed := rfl

@[simp] theorem dropHeld_fixed (s : State) (act index : Nat) :
    (State.dropHeld s act index).fixed = s.fixed := rfl

@[simp] theorem setHeld_fixed (s : State) (l : List Held) :
    (State.setHeld s l).fixed = s.fixed := rfl

@[simp] theorem consumeBell_fixed (s : State) (e : SchedEntry) (how : Nat) :
    (State.consumeBell s e how).fixed = s.fixed := by
  simp [State.consumeBell]

@[simp] theorem takeResult_fixed (s : State) (e : SchedEntry) :
    (State.takeResult s e).fixed = s.fixed := by
  simp [State.takeResult]

/-- Taking the entries of a stream changes its place, the held entries, and what their gates and actions touch. -/
@[simp] theorem runStream_fixed (id phase unit offset : Nat) (old : Bool) (fuel : Nat) (r : State × List Due) :
    (State.runStream id phase unit offset old fuel r).1.fixed = r.1.fixed := by
  induction fuel generalizing r with
  | zero => rfl
  | succ fuel ih =>
    obtain ⟨s, out⟩ := r
    unfold State.runStream
    dsimp only
    split
    · rfl
    · split
      · rfl
      · split
        · rw [ih]; simp
        · split <;> split <;> simp

@[simp] theorem takeDue_fixed (s : State) : s.takeDue.1.fixed = s.fixed := by
  unfold State.takeDue
  rw [fixed_foldl_fst]
  intro r a
  split
  · rfl
  · refine fixed_foldl_fst _ (fun r u => ?_) r _
    split
    · rfl
    · exact runStream_fixed ..

@[simp] theorem carry_fixed (s : State) (rest : List Due) : (s.carry rest).fixed = s.fixed := by
  refine (fixed_foldl _ (fun s p => ?_) _ _).trans rfl
  dsimp only
  split <;> rfl

@[simp] theorem doWork_fixed (s : State) (unit how operand : Nat) (w : Work) :
    (State.doWork s unit how operand w).fixed = s.fixed := by
  unfold State.doWork
  split <;> simp

@[simp] theorem issueOne_fixed (s : State) (d : Due) :
    (State.issueOne s d).fixed = s.fixed := by
  unfold State.issueOne
  split <;> simp

@[simp] theorem countWaits_fixed (s : State) :
    (State.countWaits s).fixed = s.fixed := rfl

@[simp] theorem pruneActs_fixed (s : State) :
    (State.pruneActs s).fixed = s.fixed := rfl

@[simp] theorem issueStep_fixed (s : State) :
    (State.issueStep s).fixed = s.fixed := by
  simp [State.issueStep]

@[simp] theorem phaseStep_fixed (s : State) :
    (State.phaseStep s).fixed = s.fixed := by
  simp [State.phaseStep]

@[simp] theorem resumeNow_fixed (s : State) :
    (State.resumeNow s).fixed = s.fixed := by
  simp [State.resumeNow]

@[simp] theorem resumeStep_fixed (s : State) :
    (State.resumeStep s).fixed = s.fixed := by
  simp [State.resumeStep]

@[simp] theorem lapse_fixed (s : State) :
    (State.lapse s).fixed = s.fixed := rfl

@[simp] theorem expireWork_fixed (s : State) (e : SchedEntry) : (s.expireWork e).fixed = s.fixed := by
  unfold State.expireWork
  dsimp only
  split
  · simp
  · split <;> simp

@[simp] theorem rampDefer_fixed (s : State) :
    (State.rampDefer s).fixed = s.fixed := by
  simp [State.rampDefer]

@[simp] theorem stallStep_fixed (s : State) (units : List Nat) :
    (State.stallStep s units).fixed = s.fixed := by
  simp [State.stallStep]

@[simp] theorem slipNext_fixed (s : State) (cause : Nat) (remap : Bool) :
    (State.slipNext s cause remap).fixed = s.fixed := by
  unfold State.slipNext
  split <;> simp

@[simp] theorem completionCheck_fixed (s : State) (reports : List Incomplete) :
    (State.completionCheck s reports).fixed = s.fixed := by
  simp [State.completionCheck]

@[simp] theorem ring_fixed (s : State) (d : Nat) :
    (State.ring s d).fixed = s.fixed := by
  simp [State.ring]

@[simp] theorem wrDbRing_fixed (s : State) (port : Mgmt) (v : W32) :
    (State.wrDbRing s port v).fixed = s.fixed := by
  simp [State.wrDbRing]

@[simp] theorem wrModeReq_fixed (s : State) (port : Mgmt) (v : W32) :
    (State.wrModeReq s port v).fixed = s.fixed := by
  simp [State.wrModeReq]

@[simp] theorem boundary_fixed (s : State) :
    (State.boundary s).fixed = s.fixed := by
  simp [State.boundary]

@[simp] theorem quiesceNow_fixed (s : State) : (s.quiesceNow).fixed = s.fixed := by
  unfold State.quiesceNow
  rw [cmdEnds_fixed, targetsDown_fixed, markhorQuiesce_fixed, resetSeq_fixed]
  rfl

@[simp] theorem quiescedSet_fixed (s : State) :
    (State.quiescedSet s).fixed = s.fixed := by
  simp [State.quiescedSet]

/-! ### Machine/Boot, Commands -/

@[simp] theorem portsStart_fixed (s : State) :
    (State.portsStart s).fixed = s.fixed := rfl

@[simp] theorem jporRises_fixed (s : State) (nvmMode twinSel : Bool) :
    (State.jporRises s nvmMode twinSel).fixed = s.fixed := by
  simp [State.jporRises]

@[simp] theorem fuseMissed_fixed (s : State) (addr : Nat) :
    (State.fuseMissed s addr).fixed = s.fixed := by
  simp [State.fuseMissed]

@[simp] theorem cmdDone_fixed (s : State) (r : BitVec 3) :
    (State.cmdDone s r).fixed = s.fixed := by
  simp [State.cmdDone]

@[simp] theorem imageInvalid_fixed (s : State) (bank : Bool) (x : ImgFail) :
    (State.imageInvalid s bank x).fixed = s.fixed := rfl

@[simp] theorem loadRegs_fixed (s : State) (r : RegInit) :
    (State.loadRegs s r).fixed = s.fixed := rfl

@[simp] theorem bootPortFail_fixed (s : State) (p : Nat) :
    (State.bootPortFail s p).fixed = s.fixed := by
  simp [State.bootPortFail]

@[simp] theorem sample_fixed (s : State) (temp volt : W16) : (s.sample temp volt).fixed = s.fixed := by
  unfold State.sample
  dsimp only
  split
  · rfl
  · split
    · rfl
    · split
      · rfl
      · split <;> rfl

@[simp] theorem result_fixed (s : State) (r : Nat) :
    (State.result s r).fixed = s.fixed := rfl

/-- A service command changes what its effect changes. -/
@[simp] theorem giveCmd_fixed (s : State) (port : Mgmt) (code : Nat) (allowed : Bool) (f : State → State)
    (h : ∀ x, (f x).fixed = x.fixed) : (s.giveCmd port code allowed f).fixed = s.fixed := by
  refine guarded_fixed _ _ _ _ fun x => ?_
  dsimp only
  split_ifs
  · exact refuse_fixed ..
  · exact refuse_fixed ..
  · exact ok_fixed ..
  · exact (h _).trans (ok_fixed ..)

@[simp] theorem quiesceStart_fixed (s : State) :
    (State.quiesceStart s).fixed = s.fixed := by
  simp [State.quiesceStart]

@[simp] theorem cmdQuiesce_fixed (s : State) (port : Mgmt) :
    (State.cmdQuiesce s port).fixed = s.fixed := by
  simp [State.cmdQuiesce]

@[simp] theorem clearDb_fixed (s : State) :
    (State.clearDb s).fixed = s.fixed := rfl

@[simp] theorem stagingTest_fixed (s : State) (good : Bool) : (s.stagingTest good).fixed = s.fixed := by
  have h := resetSeq_fixed s
  unfold State.stagingTest
  generalize s.resetSeq = t at h ⊢
  exact h

@[simp] theorem exportState_fixed (s : State) : s.exportState.fixed = s.fixed := by
  unfold State.exportState
  extract_lets q raddr rkey res fac
  split
  · rfl
  · split
    · rfl
    · split
      · rfl
      · extract_lets step data head tail s1 rest
        exact (kickAll_fixed _).trans rfl

@[simp] theorem flushExport_fixed (s : State) (q : Queue) :
    (State.flushExport s q).fixed = s.fixed := by
  simp [State.flushExport]

@[simp] theorem flushExports_fixed (s : State) : s.flushExports.fixed = s.fixed := by
  refine fixed_foldl _ (fun s e => ?_) s _
  split
  · rfl
  · split <;> simp

@[simp] theorem restoreSend_fixed (s : State) :
    (State.restoreSend s).fixed = s.fixed := by
  unfold State.restoreSend
  split <;> simp

@[simp] theorem cmdRollback_fixed (s : State) (port : Mgmt) :
    (State.cmdRollback s port).fixed = s.fixed := by
  simp [State.cmdRollback]

@[simp] theorem cmdRestoreSend_fixed (s : State) (port : Mgmt) :
    (State.cmdRestoreSend s port).fixed = s.fixed := by
  simp [State.cmdRestoreSend]

@[simp] theorem cmdExport_fixed (s : State) (port : Mgmt) :
    (State.cmdExport s port).fixed = s.fixed := by
  simp [State.cmdExport]

@[simp] theorem cmdStagingTest_fixed (s : State) (port : Mgmt) (good : Bool) :
    (State.cmdStagingTest s port good).fixed = s.fixed := by
  simp [State.cmdStagingTest]

@[simp] theorem cmdClearDb_fixed (s : State) (port : Mgmt) : (s.cmdClearDb port).fixed = s.fixed :=
  giveCmd_fixed _ _ _ _ _ fun _ => rfl

@[simp] theorem cmdNop_fixed (s : State) (port : Mgmt) : (s.cmdNop port).fixed = s.fixed :=
  giveCmd_fixed _ _ _ _ _ fun _ => rfl

@[simp] theorem cmdTwinSwap_fixed (s : State) (port : Mgmt) : (s.cmdTwinSwap port).fixed = s.fixed :=
  giveCmd_fixed _ _ _ _ _ fun _ => rfl

@[simp] theorem resumeStart_fixed (s : State) :
    (State.resumeStart s).fixed = s.fixed := by
  simp [State.resumeStart]

@[simp] theorem cmdResume_fixed (s : State) (port : Mgmt) :
    (State.cmdResume s port).fixed = s.fixed := by
  simp [State.cmdResume]

@[simp] theorem flashFails_fixed (s : State) (addr : Nat) :
    (State.flashFails s addr).fixed = s.fixed := rfl

@[simp] theorem tileTest_fixed (s : State) (good : Bool) :
    (State.tileTest s good).fixed = s.fixed := by
  simp [State.tileTest]

@[simp] theorem cmdTileTest_fixed (s : State) (port : Mgmt) (good : Bool) :
    (State.cmdTileTest s port good).fixed = s.fixed := by
  simp [State.cmdTileTest]

@[simp] theorem wrCmdArg_fixed (s : State) (port : Mgmt) (i : Nat) (v : W32) :
    (State.wrCmdArg s port i v).fixed = s.fixed := by
  simp [State.wrCmdArg]

/-! ### Machine/Registers -/

@[simp] theorem clearJL_fixed (s : State) (o : Nat) : (s.clearJL o).fixed = s.fixed := by
  unfold State.clearJL
  split
  · split <;> simp
  · rfl

@[simp] theorem clearJM_fixed (s : State) (o : Nat) :
    (State.clearJM s o).fixed = s.fixed := by
  simp [State.clearJM]

@[simp] theorem clearJE_fixed (s : State) (o : Nat) :
    (State.clearJE s o).fixed = s.fixed := by
  simp [State.clearJE]

@[simp] theorem clearRc_fixed (s : State) (off : Nat) :
    (State.clearRc s off).fixed = s.fixed := by
  unfold State.clearRc
  split <;> simp

@[simp] theorem latch_fixed (s : State) (off : Nat) :
    (State.latch s off).fixed = s.fixed := by
  unfold State.latch
  split <;> simp

@[simp] theorem busRead_fixed (s : State) (port : Mgmt) (off : Nat) : (s.busRead port off).fixed = s.fixed := by
  unfold State.busRead
  split
  · rfl
  · split <;> simp

@[simp] theorem wrVcWt_fixed (s : State) (port : Mgmt) (v : W32) : (s.wrVcWt port v).fixed = s.fixed :=
  guarded_fixed _ _ _ _ fun _ => rwl_fixed _ _ _ _ _ _ fun _ => rfl

@[simp] theorem wrVcWtCk_fixed (s : State) (port : Mgmt) (v : W32) : (s.wrVcWtCk port v).fixed = s.fixed :=
  guarded_fixed _ _ _ _ fun _ => rwl_fixed _ _ _ _ _ _ fun _ => rfl

@[simp] theorem wrSlipLimit_fixed (s : State) (port : Mgmt) (v : W32) : (s.wrSlipLimit port v).fixed = s.fixed :=
  guarded_fixed _ _ _ _ fun _ => rwl_fixed _ _ _ _ _ _ fun _ => rfl

@[simp] theorem wrVTimeout_fixed (s : State) (port : Mgmt) (v : W32) : (s.wrVTimeout port v).fixed = s.fixed :=
  guarded_fixed _ _ _ _ fun _ => rwl_fixed _ _ _ _ _ _ fun _ => rfl

@[simp] theorem wrJiCfg_fixed (s : State) (port : Mgmt) (v : W32) : (s.wrJiCfg port v).fixed = s.fixed :=
  guarded_fixed _ _ _ _ fun _ => rwl_fixed _ _ _ _ _ _ fun _ => rfl

@[simp] theorem wrTol_fixed (s : State) (port : Mgmt) (v : W32) : (s.wrTol port v).fixed = s.fixed :=
  guarded_fixed _ _ _ _ fun _ => rwl_fixed _ _ _ _ _ _ fun _ => rfl

@[simp] theorem wrReplica_fixed (s : State) (port : Mgmt) (v : W32) : (s.wrReplica port v).fixed = s.fixed :=
  guarded_fixed _ _ _ _ fun _ => rwl_fixed _ _ _ _ _ _ fun _ => rfl

@[simp] theorem wrBuddyCfg_fixed (s : State) (port : Mgmt) (v : W32) : (s.wrBuddyCfg port v).fixed = s.fixed :=
  guarded_fixed _ _ _ _ fun _ => rwl_fixed _ _ _ _ _ _ fun _ => rfl

@[simp] theorem wrJlCfg_fixed (s : State) (port : Mgmt) (v : W32) : (s.wrJlCfg port v).fixed = s.fixed :=
  guarded_fixed _ _ _ _ fun _ => rwl_fixed _ _ _ _ _ _ fun _ => rfl

@[simp] theorem wrCc_fixed (s : State) (port : Mgmt) (v : W32) : (s.wrCc port v).fixed = s.fixed :=
  guarded_fixed _ _ _ _ fun _ => rwl_fixed _ _ _ _ _ _ fun _ => rfl

@[simp] theorem wrPfc_fixed (s : State) (port : Mgmt) (n : Nat) (v : W32) : (s.wrPfc port n v).fixed = s.fixed :=
  guarded_fixed _ _ _ _ fun _ => rwl_fixed _ _ _ _ _ _ fun _ => rfl

@[simp] theorem wrJcCfg_fixed (s : State) (port : Mgmt) (v : W32) : (s.wrJcCfg port v).fixed = s.fixed :=
  guarded_fixed _ _ _ _ fun _ => rwl_fixed _ _ _ _ _ _ fun _ => rfl

@[simp] theorem wrChan_fixed (s : State) (port : Mgmt) (ch o : Nat) (v : W32) :
    (State.wrChan s port ch o v).fixed = s.fixed := by
  simp [State.wrChan]

@[simp] theorem wrTail_fixed (s : State) (port : Mgmt) (v : W32) (overwrite : Bool) :
    (State.wrTail s port v overwrite).fixed = s.fixed := by
  simp [State.wrTail]

end Sys2Proof.Machine
end

section
/-!
The table epochs through a step (R36, R37): only the epoch advance of a pulse, the resets and the schedule load write
them, and each leaves PREVIOUS one behind CURRENT.
-/

namespace Sys2Proof.Machine

/-! ### Cycle 0 of a slot -/

/-- The view after `nextSlot`: the slot begins, once (R13). -/
def State.fixedNext (s : State) : Fixed :=
  if s.jq.begun then s.fixed else { s.fixed with slot := s.jq.slot + 1, begun := true }

@[simp] theorem nextSlot_fixed (s : State) : s.nextSlot.fixed = s.fixedNext := by
  unfold State.nextSlot State.fixedNext
  split
  · rfl
  · rw [swapDrive_fixed, endSlips_fixed, setPhase_fixed]
    rfl

@[simp] theorem stepDone_fixed (s : State) : s.stepDone.fixed = s.fixedNext := nextSlot_fixed s

/-! ### What keeps the epochs consecutive -/

theorem epochOk_of_fixed {s t : State} (h : t.fixed = s.fixed) : t.epochOk = s.epochOk := by
  show (t.fixed.previous == t.fixed.current - 1) = (s.fixed.previous == s.fixed.current - 1)
  rw [h]

/-- A step that keeps the epochs consecutive. -/
def KeepsEpochs (f : State → State) : Prop := ∀ s, s.epochOk = true → (f s).epochOk = true

theorem keepsEpochs_of_fixed {f : State → State} (h : ∀ s, (f s).fixed = s.fixed) : KeepsEpochs f :=
  fun s hs => (epochOk_of_fixed (h s)).trans hs

theorem KeepsEpochs.comp {f g : State → State} (hg : KeepsEpochs g) (hf : KeepsEpochs f) : KeepsEpochs fun s => g (f s) :=
  fun s hs => hg _ (hf s hs)

theorem guarded_epochOk {f : State → State} (hf : KeepsEpochs f) (port : Mgmt) (off : Nat) {s : State}
    (hs : s.epochOk = true) : (s.guarded port off f).epochOk = true := by
  unfold State.guarded
  split_ifs
  · exact hs
  · exact (epochOk_of_fixed (refuse_fixed ..)).trans hs
  · exact hf s hs

theorem rwl_epochOk {f : State → State} (hf : KeepsEpochs f) (port : Mgmt) (off : Nat) (c r : Bool) {s : State}
    (hs : s.epochOk = true) : (s.rwl port off c r f).epochOk = true := by
  unfold State.rwl
  split_ifs
  · exact (epochOk_of_fixed (refuse_fixed ..)).trans hs
  · exact (epochOk_of_fixed (refuse_fixed ..)).trans hs
  · exact (epochOk_of_fixed (refuse_fixed ..)).trans hs
  · exact (epochOk_of_fixed (ok_fixed ..)).trans (hf s hs)

theorem plain_epochOk {f : State → State} (hf : KeepsEpochs f) (port : Mgmt) (off : Nat) {s : State}
    (hs : s.epochOk = true) : (s.plain port off f).epochOk = true :=
  guarded_epochOk (fun s hs => (epochOk_of_fixed (ok_fixed ..)).trans (hf s hs)) port off hs

theorem giveCmd_epochOk {f : State → State} (hf : KeepsEpochs f) (port : Mgmt) (code : Nat) (allowed : Bool) {s : State}
    (hs : s.epochOk = true) : (s.giveCmd port code allowed f).epochOk = true := by
  refine guarded_epochOk (fun s hs => ?_) port _ hs
  dsimp only
  split_ifs
  · exact (epochOk_of_fixed (refuse_fixed ..)).trans hs
  · exact (epochOk_of_fixed (refuse_fixed ..)).trans hs
  · exact (epochOk_of_fixed (ok_fixed ..)).trans hs
  · exact hf _ ((epochOk_of_fixed (ok_fixed ..)).trans hs)

/-! ### The sequencer and the commit -/

@[simp] theorem nextSlot_epochOk (s : State) : s.nextSlot.epochOk = s.epochOk := by
  show (s.nextSlot.fixed.previous == s.nextSlot.fixed.current - 1) = _
  rw [nextSlot_fixed]
  unfold State.fixedNext
  split <;> rfl

@[simp] theorem stepDone_epochOk (s : State) : s.stepDone.epochOk = s.epochOk := nextSlot_epochOk s

theorem slotStart_epochOk (s : State) (st : SelfTest) : (s.slotStart st).epochOk = s.epochOk := by
  unfold State.slotStart
  split
  · rfl
  · extract_lets s1 _ s2 s3 s4 s5
    have h1 : s2.epochOk = s.epochOk := nextSlot_epochOk s
    have h3 : s3.fixed = s2.fixed := by simp [s3]
    have h4 : s4.fixed = s3.fixed := by
      show (if _ then _ else _ : State).fixed = _
      split <;> simp
    have h5 : s5.fixed = s4.fixed := by
      show (if _ then _ else _ : State).fixed = _
      split <;> simp
    rw [epochOk_of_fixed (resumeStep_fixed s5), epochOk_of_fixed h5, epochOk_of_fixed h4, epochOk_of_fixed h3, h1]

theorem gateTimeout_epochOk (s : State) (phase unit : Nat) : (s.gateTimeout phase unit).epochOk = s.epochOk := by
  unfold State.gateTimeout
  extract_lets slips slot s1
  split
  · rfl
  · extract_lets held s2
    have h2 : s2.fixed = s1.fixed := rfl
    split
    · rfl
    · rw [epochOk_of_fixed (expireWork_fixed ..), epochOk_of_fixed (applyAct_fixed ..), epochOk_of_fixed h2]
      exact nextSlot_epochOk s

theorem boundarySwitch_epochOk (s : State) : s.boundarySwitch.epochOk = s.epochOk := by
  unfold State.boundarySwitch
  split
  · rfl
  · extract_lets s1 _ s2
    have h2 : s2.epochOk = s.epochOk := nextSlot_epochOk s
    clear_value s2
    split
    · exact h2
    · refine (epochOk_of_fixed (beginIntake_fixed _)).trans ?_
      show (if _ then _ else _ : State).epochOk = _
      split
      · exact h2
      · exact h2

theorem skipDecision_epochOk (s : State) : s.skipDecision.epochOk = s.epochOk := by
  unfold State.skipDecision
  split
  · rfl
  · split
    · rfl
    · extract_lets step s1 added _ s2 s3
      have h1 : s1.epochOk = s.epochOk := by
        rw [epochOk_of_fixed (copyCut_fixed s.stepDone), stepDone_epochOk]
      have h2 : s2.epochOk = s1.epochOk := rfl
      rw [epochOk_of_fixed (nextAttempt_fixed ..), epochOk_of_fixed (dropRx_fixed ..), h2, h1]

theorem changeTiles_epochOk (s : State) (retire added : BitVec 48) : (s.changeTiles retire added).epochOk = s.epochOk := rfl

/-- The table epoch advances: PREVIOUS takes the epoch that CURRENT leaves (R36). -/
theorem advanceEpoch_epochOk {s : State} (hs : s.epochOk = true) : s.advanceEpoch.epochOk = true := by
  unfold State.advanceEpoch
  split
  · exact hs
  · show (s.jg.epoch.current == s.jg.epoch.current + 1 - 1) = true
    rw [BitVec.add_sub_cancel, beq_self_eq_true]

theorem pulse_epochOk {s : State} (andWord : W64) (hs : s.epochOk = true) : (s.pulse andWord).epochOk = true := by
  unfold State.pulse
  extract_lets t dens s1 _ _ s2 s3 _ s4 s5 _ s6 s7 _ s8
  have h1 : s1.fixed = s.fixed := by simp [s1]
  have h2 : s2.epochOk = true := (show s2.epochOk = s1.epochOk from rfl).trans ((epochOk_of_fixed h1).trans hs)
  have h3 : s3.epochOk = true := by
    show (if _ then _ else _ : State).epochOk = true
    split
    · exact advanceEpoch_epochOk h2
    · exact h2
  have h4 : s4.epochOk = true := by
    show (if _ then _ else _ : State).epochOk = true
    split
    · exact h3
    · exact h3
  have h5 : s5.fixed = s4.fixed := by simp [s5]
  have h7 : s7.fixed = s5.fixed := by simp [s7, s6]
  refine (epochOk_of_fixed (twinDigests_fixed s8)).trans ?_
  exact (epochOk_of_fixed (s := s7) rfl).trans ((epochOk_of_fixed h7).trans ((epochOk_of_fixed h5).trans h4))

/-- The ring engine's block holds nothing of the view. -/
theorem fixed_jx (s : State) (x : JxBlock) : ({ s with jx := x } : State).fixed = s.fixed := rfl

theorem commitPulse_epochOk {s : State} (hs : s.epochOk = true) : s.commitPulse.epochOk = true := by
  unfold State.commitPulse
  split
  · exact hs
  · split
    · exact hs
    · extract_lets step s1 s2 s3 s4 s5 _ _ s6
      have h1 : s1.epochOk = true :=
        (epochOk_of_fixed (failHeld_fixed _)).trans (pulse_epochOk _ ((stepDone_epochOk s).trans hs))
      have h2 : s2.fixed = s1.fixed := nextAttempt_fixed ..
      have h3 : s3.fixed = s2.fixed := by
        show (if _ then _ else _ : State).fixed = _
        split
        · rfl
        · exact activate_fixed ..
      have h4 : s4.fixed = s3.fixed := by simp [s4]
      have h5 : s5.fixed = s4.fixed := startReplica_fixed ..
      clear_value s5
      have h6 : s6.fixed = s5.fixed := by
        show (if _ then _ else _ : State).fixed = _
        split
        · exact (fixed_jx (s5.startCopy step) _).trans (startCopy_fixed ..)
        · rfl
      have hs6 : s6.epochOk = true := by
        rw [epochOk_of_fixed h6, epochOk_of_fixed h5, epochOk_of_fixed h4, epochOk_of_fixed h3, epochOk_of_fixed h2, h1]
      clear_value s6
      split
      · exact hs6
      · exact (epochOk_of_fixed (fixed_jx s6 _)).trans hs6

/-! ### Restores -/

@[simp] theorem writeAreas_fixed (s : State) (data : List Byte) (l : List (Bool × Nat × Nat)) :
    (s.writeAreas data l).1.fixed = s.fixed := by
  induction l generalizing s data with
  | nil => rfl
  | cons a rest ih =>
    unfold State.writeAreas
    dsimp only
    rw [ih]
    split
    · exact hostWrite_fixed ..
    · exact stateWrite_fixed ..

/-- A restore changes the step, and nothing else of the view (R232). -/
@[simp] theorem restore_fixed (s : State) (h : CopyHdr) (data : List Byte) :
    (s.restore h data).fixed = { s.fixed with step := h.step + 1 } := by
  unfold State.restore
  extract_lets step r _ _ s1 s2 mem s3 _ _ _ s4
  have h1 : s1.fixed = { s.fixed with step := step } := by
    rw [← writeAreas_fixed s data (s.copyAreas (step.toNat % 2))]
    rfl
  have h2 : s2.fixed = s1.fixed := rewriteWcs_fixed ..
  have h3 : s3.fixed = s2.fixed := by
    show (if _ then _ else _ : State).fixed = _
    split
    · exact writeAreas_fixed ..
    · rfl
  have h4 : s4.fixed = s3.fixed := rfl
  clear_value s4 s3
  rw [latchCoefs_fixed, densRestart_fixed, maskRestart_fixed, resetSeq_fixed, clearRoots_fixed, h4, h3, h2, h1]

theorem restored_epochOk (s : State) (h : CopyHdr) (data : List Byte) :
    ((s.restore h data).cmdEnds 0x26 0).epochOk = s.epochOk := by
  have hfix : ((s.restore h data).cmdEnds 0x26 0).fixed = { s.fixed with step := h.step + 1 } :=
    (cmdEnds_fixed ..).trans (restore_fixed ..)
  generalize (s.restore h data).cmdEnds 0x26 0 = t at hfix ⊢
  show (t.fixed.previous == t.fixed.current - 1) = _
  rw [hfix]
  rfl

theorem restoreIn_epochOk (s : State) (h : CopyHdr) (data : List Byte) (crc : W64) :
    (s.restoreIn h data crc).epochOk = s.epochOk := by
  unfold State.restoreIn
  split
  · rfl
  · extract_lets +onlyGivenNames s1
    have h1 : s1.fixed = s.fixed := takePieces_fixed s
    rw [← epochOk_of_fixed h1]
    clear_value s1
    split
    · exact epochOk_of_fixed (passCopy_fixed ..)
    · split
      · rfl
      · split
        · exact epochOk_of_fixed (cmdEnds_fixed ..)
        · have h2 := restored_epochOk s1 h data
          generalize (s1.restore h data).cmdEnds 0x26 0 = s2 at h2 ⊢
          exact h2

/-! ### Resets and boot -/

theorem jporFalls_epochOk (s : State) : s.jporFalls.epochOk = true := rfl

theorem jwrstFalls_epochOk {s : State} (hs : s.epochOk = true) : s.jwrstFalls.epochOk = true := by
  unfold State.jwrstFalls
  dsimp only
  split
  · exact hs
  · rfl

theorem jwrstRises_epochOk {s : State} (hs : s.epochOk = true) : s.jwrstRises.epochOk = true := by
  unfold State.jwrstRises
  dsimp only
  split_ifs <;> exact hs

@[simp] theorem dropStaging_epochOk (s : State) : s.dropStaging.epochOk = s.epochOk := by
  unfold State.dropStaging
  split <;> rfl

theorem nvmTimeout_epochOk (s : State) (opcode addr status : Nat) : (s.nvmTimeout opcode addr status).epochOk = s.epochOk := by
  unfold State.nvmTimeout
  dsimp only
  split
  · exact epochOk_of_fixed ((enterSafe_fixed ..).trans (event_fixed ..))
  · split
    · rfl
    · split
      · rfl
      · rw [epochOk_of_fixed (cmdDone_fixed ..), dropStaging_epochOk]
        rfl

theorem bootSeen_epochOk (s : State) (o : BootObs) : (s.bootSeen o).epochOk = s.epochOk := rfl

theorem verify_epochOk (s : State) (f : SxiFile) (ms : W16) : (s.verify f ms).epochOk = s.epochOk := rfl

theorem bootFile_epochOk (s : State) (o : BootObs) (f : SxiFile) : (s.bootFile o f).epochOk = s.epochOk := by
  unfold State.bootFile
  dsimp only
  split
  · exact verify_epochOk ..
  · exact epochOk_of_fixed (by simp)

theorem bootEnds_epochOk (s : State) (o : BootObs) : (s.bootEnds o).epochOk = s.epochOk := by
  unfold State.bootEnds
  split
  · rfl
  · rw [← bootSeen_epochOk s o]
    generalize s.bootSeen o = t
    dsimp only
    split
    · exact epochOk_of_fixed (enterSafe_fixed ..)
    · split
      · exact epochOk_of_fixed (imageInvalid_fixed ..)
      · split
        · exact epochOk_of_fixed (imageInvalid_fixed ..)
        · split
          · exact epochOk_of_fixed (imageInvalid_fixed ..)
          · split
            · exact epochOk_of_fixed (imageInvalid_fixed ..)
            · exact bootFile_epochOk ..

/-- A schedule load starts at epochs 0 and 3 (R37). -/
theorem loadTables_epochOk (s : State) : s.loadTables.epochOk = true := by
  unfold State.loadTables
  dsimp only
  rw [epochOk_of_fixed (rewriteWcs_fixed _), epochOk_of_fixed (latchCoefs_fixed _), epochOk_of_fixed (densRestart_fixed _),
    epochOk_of_fixed (maskRestart_fixed _), epochOk_of_fixed (resetSeq_fixed _), epochOk_of_fixed (loadUnbanked_fixed _),
    changeTiles_epochOk]
  rfl

theorem startSchedule_epochOk (s : State) : s.startSchedule.epochOk = true := by
  have h := loadTables_epochOk s
  unfold State.startSchedule
  generalize s.loadTables = t at h ⊢
  exact h

theorem bootWaitOver_epochOk {s : State} (hs : s.epochOk = true) : s.bootWaitOver.epochOk = true := by
  unfold State.bootWaitOver
  split
  · exact hs
  · exact startSchedule_epochOk _

theorem watchdog_epochOk (s : State) (fwAddr : Nat) : (s.watchdog fwAddr).epochOk = s.epochOk := by
  unfold State.watchdog
  split
  · rfl
  · extract_lets c _ _ t
    have ht : t.epochOk = s.epochOk := rfl
    clear_value t
    split
    · rw [epochOk_of_fixed (cmdDone_fixed ..), dropStaging_epochOk, ht]
    · exact ht

/-! ### The service commands -/

theorem stage_epochOk (s : State) (t : LiveTables) : (s.stage t).epochOk = s.epochOk := by
  unfold State.stage
  dsimp only
  split <;> rfl

theorem unstageAll_epochOk (s : State) : s.unstageAll.epochOk = s.epochOk := rfl

theorem swapFrom_epochOk (s : State) (f : SxiFile) : (s.swapFrom f).epochOk = s.epochOk := by
  unfold State.swapFrom
  dsimp only
  split_ifs
  · rfl
  · rfl
  · exact stage_epochOk ..
  · rfl

theorem liveSwap_epochOk (s : State) (flashOk : Bool) : (s.liveSwap flashOk).epochOk = s.epochOk := by
  unfold State.liveSwap
  extract_lets bank running
  split
  · rfl
  · split
    · rfl
    · split
      · exact swapFrom_epochOk ..
      · split
        · rfl
        · split
          · exact swapFrom_epochOk ..
          · rfl

theorem imageWrite_epochOk (s : State) (f : Option SxiFile) (flashOk : Bool) : (s.imageWrite f flashOk).epochOk = s.epochOk := by
  unfold State.imageWrite
  extract_lets commit bank t
  have ht : t.epochOk = s.epochOk := by
    show (if _ then _ else _ : State).epochOk = _
    split <;> rfl
  clear_value t
  split
  · exact epochOk_of_fixed (result_fixed ..)
  · split
    · exact epochOk_of_fixed (result_fixed ..)
    · split
      · exact ht
      · exact (epochOk_of_fixed (flashFails_fixed ..)).trans ht

theorem imageCommit_epochOk (s : State) (flashOk : Bool) : (s.imageCommit flashOk).epochOk = s.epochOk := by
  unfold State.imageCommit
  split_ifs <;> rfl

theorem imageStages_epochOk (s : State) (commit : Bool) : (s.imageStages commit).1.epochOk = s.epochOk := by
  unfold State.imageStages
  dsimp only
  split
  · rfl
  · split_ifs <;> rfl

theorem changeMap_epochOk {now : State → State} (hnow : ∀ s, (now s).epochOk = s.epochOk) (s : State)
    (staged : LiveTables → LiveTables) : (s.changeMap now staged).epochOk = s.epochOk := by
  unfold State.changeMap
  split
  · exact hnow s
  · exact stage_epochOk ..

theorem tileRetire_epochOk (s : State) : s.tileRetire.epochOk = s.epochOk := by
  unfold State.tileRetire
  dsimp only
  split_ifs
  · rfl
  · rfl
  · exact changeMap_epochOk (fun _ => changeTiles_epochOk ..) s _

theorem tileAdmit_epochOk (s : State) : s.tileAdmit.epochOk = s.epochOk := by
  unfold State.tileAdmit
  dsimp only
  split_ifs
  · rfl
  · rfl
  · exact changeMap_epochOk (fun _ => changeTiles_epochOk ..) s _

theorem setAdmit_epochOk (s : State) (f : BitVec 8 → BitVec 8) : (s.setAdmit f).epochOk = s.epochOk := by
  unfold State.setAdmit
  exact changeMap_epochOk (by intro; rfl) s _

theorem portAdmit_epochOk (s : State) : s.portAdmit.epochOk = s.epochOk := by
  unfold State.portAdmit
  dsimp only
  split_ifs
  · rfl
  · exact setAdmit_epochOk ..

theorem takeOver_epochOk {s : State} (hs : s.epochOk = true) : s.takeOver.epochOk = true := by
  unfold State.takeOver
  dsimp only
  split
  · next i x hi hx =>
    have h := loadTables_epochOk (State.mk s.pending { s.jg with member := { s.jg.member with state := 0 } } s.jq s.ji s.jx s.jz
      s.jk s.ju s.jl s.je s.jm s.jc s.js s.jp s.jt s.tiles s.nvm s.fuses s.imageHdr
      (some { i with decl := { i.decl with member := (s.arg 0).toNat % 65536, coord := x.coord, peers := x.peers, buddy := x.buddy } })
      s.live s.hostMem s.stateMem s.scratch s.staging s.ethBuf s.pins s.out s.freeCnt)
    generalize State.loadTables _ = t at h ⊢
    exact h
  · exact hs

theorem commandComplete_epochOk (s : State) : s.commandComplete.epochOk = s.epochOk := by
  unfold State.commandComplete
  dsimp only
  split
  · rfl
  · split
    · exact epochOk_of_fixed (cmdDone_fixed ..)
    · split_ifs
      · exact epochOk_of_fixed (cmdDone_fixed ..)
      · exact (epochOk_of_fixed (cmdDone_fixed ..)).trans (imageStages_epochOk ..)
      · exact (epochOk_of_fixed (cmdDone_fixed ..)).trans (imageStages_epochOk ..)
      · exact epochOk_of_fixed (cmdDone_fixed ..)
      · rfl

/-! ### Writes of registers -/

theorem keepsEpochs_of_eq {f : State → State} (h : ∀ s, (f s).epochOk = s.epochOk) : KeepsEpochs f :=
  fun s hs => (h s).trans hs

/-- An update outside the epochs, by definition: the epochs themselves are compared, not the states. -/
theorem epochOk_of_epoch {s t : State} (hc : t.jg.epoch.current = s.jg.epoch.current)
    (hp : t.jg.epoch.previous = s.jg.epoch.previous) : t.epochOk = s.epochOk := by
  unfold State.epochOk
  rw [hc, hp]

theorem wrCommitGate_epochOk (port : Mgmt) (v : W32) : KeepsEpochs fun s => s.wrCommitGate port v := by
  refine fun s hs => guarded_epochOk (fun s hs => ?_) port _ hs
  refine rwl_epochOk (fun s hs => ?_) port _ _ _ hs
  dsimp only
  split
  · exact (epochOk_of_fixed (sendVerdict_fixed ..)).trans hs
  · exact hs

@[simp] theorem setLock_epochOk (s : State) (f : LockBlock → LockBlock) : (s.setLock f).epochOk = s.epochOk := rfl

@[simp] theorem ok_epochOk (s : State) (port : Mgmt) : (s.ok port).epochOk = s.epochOk := epochOk_of_fixed (ok_fixed ..)

@[simp] theorem refuse_epochOk (s : State) (port : Mgmt) (off code : Nat) : (s.refuse port off code).epochOk = s.epochOk :=
  epochOk_of_fixed (refuse_fixed ..)

theorem lockTake_epochOk (s : State) (port : Mgmt) (owner : Byte) : (s.lockTake port owner).epochOk = s.epochOk := by
  unfold State.lockTake
  dsimp only
  split <;> simp

theorem lockRenew_epochOk (s : State) (port : Mgmt) (owner : Byte) : (s.lockRenew port owner).epochOk = s.epochOk := by
  unfold State.lockRenew
  split <;> simp

theorem lockRelease_epochOk (s : State) (port : Mgmt) (owner : Byte) : (s.lockRelease port owner).epochOk = s.epochOk := by
  unfold State.lockRelease
  split <;> simp

theorem wrLock_epochOk (port : Mgmt) (v : W32) : KeepsEpochs fun s => s.wrLock port v := by
  refine fun s hs => guarded_epochOk (keepsEpochs_of_eq fun s => ?_) port _ hs
  dsimp only
  split_ifs
  · exact refuse_epochOk ..
  · exact lockTake_epochOk ..
  · exact lockRenew_epochOk ..
  · exact lockRelease_epochOk ..
  · exact (ok_epochOk ..).trans (setLock_epochOk ..)

theorem wrLease_epochOk (port : Mgmt) (v : W32) : KeepsEpochs fun s => s.wrLease port v := by
  refine fun s hs => guarded_epochOk (keepsEpochs_of_eq fun s => ?_) port _ hs
  split_ifs
  · exact refuse_epochOk ..
  · exact refuse_epochOk ..
  · exact (ok_epochOk ..).trans (setLock_epochOk ..)

theorem leaseEnds_epochOk (s : State) : s.leaseEnds.epochOk = s.epochOk := by
  unfold State.leaseEnds
  split
  · rfl
  · extract_lets l c code abort staged s1 s2 s3
    have h2 : s2.epochOk = s.epochOk := rfl
    have h3 : s3.epochOk = s2.epochOk := by
      show (if _ then _ else _ : State).epochOk = _
      split
      · exact unstageAll_epochOk ..
      · rfl
    clear_value s3
    split
    · rw [epochOk_of_fixed (cmdDone_fixed ..), h3, h2]
    · rw [h3, h2]

section Commands

variable (port : Mgmt)

theorem cmdLiveSwap_epochOk (good : Bool) : KeepsEpochs fun s => s.cmdLiveSwap port good :=
  fun _ => giveCmd_epochOk (keepsEpochs_of_eq fun s => liveSwap_epochOk s good) port _ _

theorem cmdUnstage_epochOk : KeepsEpochs fun s => s.cmdUnstage port :=
  fun _ => giveCmd_epochOk
    (keepsEpochs_of_eq fun s => (epochOk_of_fixed (result_fixed ..)).trans (unstageAll_epochOk s)) port _ _

theorem cmdImageWrite_epochOk (file : Option SxiFile) (good : Bool) : KeepsEpochs fun s => s.cmdImageWrite port file good :=
  fun _ => giveCmd_epochOk (keepsEpochs_of_eq fun s => imageWrite_epochOk s file good) port _ _

theorem cmdImageCommit_epochOk (good : Bool) : KeepsEpochs fun s => s.cmdImageCommit port good :=
  fun _ => giveCmd_epochOk (keepsEpochs_of_eq fun s => imageCommit_epochOk s good) port _ _

theorem cmdTileRetire_epochOk : KeepsEpochs fun s => s.cmdTileRetire port :=
  fun _ => giveCmd_epochOk (keepsEpochs_of_eq tileRetire_epochOk) port _ _

theorem cmdTileAdmit_epochOk : KeepsEpochs fun s => s.cmdTileAdmit port :=
  fun _ => giveCmd_epochOk (keepsEpochs_of_eq tileAdmit_epochOk) port _ _

theorem cmdPortRetire_epochOk : KeepsEpochs fun s => s.cmdPortRetire port :=
  fun _ => giveCmd_epochOk (keepsEpochs_of_eq fun s => setAdmit_epochOk s _) port _ _

theorem cmdPortAdmit_epochOk : KeepsEpochs fun s => s.cmdPortAdmit port :=
  fun _ => giveCmd_epochOk (keepsEpochs_of_eq portAdmit_epochOk) port _ _

theorem cmdTakeover_epochOk : KeepsEpochs fun s => s.cmdTakeover port :=
  fun _ => giveCmd_epochOk (fun _ => takeOver_epochOk) port _ _

/-- A command code written to `JS_CMD` as a register keeps the epochs as the command does. -/
theorem wrCmd_epochOk (v : W32) : KeepsEpochs fun s => s.wrCmd port v := by
  intro s hs
  have hd : s.draw.2.epochOk = true := hs
  unfold State.wrCmd
  dsimp only
  split
  · exact (epochOk_of_fixed (cmdNop_fixed ..)).trans hs
  · exact (epochOk_of_fixed (cmdQuiesce_fixed ..)).trans hs
  · exact (epochOk_of_fixed (cmdResume_fixed ..)).trans hs
  · exact cmdLiveSwap_epochOk port _ _ hd
  · exact cmdUnstage_epochOk port _ hs
  · exact (epochOk_of_fixed (cmdClearDb_fixed ..)).trans hs
  · exact (epochOk_of_fixed (cmdExport_fixed ..)).trans hs
  · exact (epochOk_of_fixed (cmdStagingTest_fixed ..)).trans hd
  · exact cmdImageWrite_epochOk port _ _ _ hd
  · exact cmdImageCommit_epochOk port _ _ hd
  · exact cmdTileRetire_epochOk port _ hs
  · exact (epochOk_of_fixed (cmdTileTest_fixed ..)).trans hd
  · exact cmdTileAdmit_epochOk port _ hs
  · exact cmdPortRetire_epochOk port _ hs
  · exact cmdPortAdmit_epochOk port _ hs
  · exact (epochOk_of_fixed (cmdRestoreSend_fixed ..)).trans hs
  · exact (epochOk_of_fixed (cmdRollback_fixed ..)).trans hs
  · exact cmdTakeover_epochOk port _ hs
  · exact (epochOk_of_fixed (cmdTwinSwap_fixed ..)).trans hs
  · exact giveCmd_epochOk (keepsEpochs_of_fixed fun s => result_fixed s 1) port _ _ hs

theorem plain_epochOk_of_eq {f : State → State} (hf : ∀ s, (f s).epochOk = s.epochOk) (off : Nat) {s : State}
    (hs : s.epochOk = true) : (s.plain port off f).epochOk = true :=
  plain_epochOk (keepsEpochs_of_eq hf) port off hs

theorem wrJS_epochOk (o : Nat) (v : W32) : KeepsEpochs fun s => s.wrJS port o v := by
  intro s hs
  show (s.wrJS port o v).epochOk = true
  unfold State.wrJS
  split
  · exact wrCmd_epochOk port v s hs
  · exact plain_epochOk_of_eq port (by exact fun _ => epochOk_of_epoch rfl rfl) _ hs
  · exact wrLock_epochOk port v s hs
  · exact wrLease_epochOk port v s hs
  · exact (epochOk_of_fixed (wrTail_fixed ..)).trans hs
  · exact plain_epochOk_of_eq port (by exact fun _ => epochOk_of_epoch rfl rfl) _ hs
  · exact plain_epochOk_of_eq port (by exact fun _ => epochOk_of_epoch rfl rfl) _ hs
  · split
    · exact (epochOk_of_fixed (wrCmdArg_fixed ..)).trans hs
    · exact plain_epochOk_of_eq port (by exact fun _ => epochOk_of_epoch rfl rfl) _ hs

theorem wrJM_epochOk (o : Nat) (v : W32) : KeepsEpochs fun s => s.wrJM port o v := by
  intro s hs
  show (s.wrJM port o v).epochOk = true
  unfold State.wrJM
  dsimp only
  split_ifs
  · exact (epochOk_of_fixed (wrChan_fixed ..)).trans hs
  · exact plain_epochOk_of_eq port (by exact fun _ => epochOk_of_epoch rfl rfl) _ hs
  · exact plain_epochOk_of_eq port (by exact fun _ => epochOk_of_epoch rfl rfl) _ hs
  · exact plain_epochOk_of_eq port (by exact fun _ => (epochOk_of_fixed (repace_fixed ..)).trans (epochOk_of_epoch rfl rfl)) _ hs
  · exact plain_epochOk_of_eq port (by exact fun _ => epochOk_of_epoch rfl rfl) _ hs

theorem regWrite_epochOk (off : Nat) (v : W32) : KeepsEpochs fun s => s.regWrite port off v := by
  intro s hs
  have fixed {t : State} (h : t.fixed = s.fixed) : t.epochOk = true := (epochOk_of_fixed h).trans hs
  have plain {f : State → State} (hf : ∀ s, (f s).epochOk = s.epochOk) : (s.plain port off f).epochOk = true :=
    plain_epochOk_of_eq port hf off hs
  show (s.regWrite port off v).epochOk = true
  unfold State.regWrite
  split
  · exact plain_epochOk_of_eq port (by exact fun _ => epochOk_of_epoch rfl rfl) _ hs
  · exact plain_epochOk_of_eq port (by exact fun _ => epochOk_of_epoch rfl rfl) _ hs
  · exact fixed (wrSlipLimit_fixed ..)
  · exact fixed (wrVTimeout_fixed ..)
  · exact fixed (wrDbRing_fixed ..)
  · exact fixed (wrModeReq_fixed ..)
  · exact fixed (wrJiCfg_fixed ..)
  · exact fixed (wrVcWt_fixed ..)
  · exact fixed (wrVcWtCk_fixed ..)
  · exact fixed (wrJkCfg_fixed ..)
  · exact fixed (wrTol_fixed ..)
  · exact wrCommitGate_epochOk port v s hs
  · exact plain_epochOk_of_eq port (by exact fun _ => epochOk_of_epoch rfl rfl) _ hs
  · exact fixed (wrReplica_fixed ..)
  · exact fixed (wrBuddyCfg_fixed ..)
  · exact plain_epochOk_of_eq port (by exact fun _ => epochOk_of_epoch rfl rfl) _ hs
  · exact fixed (wrJlCfg_fixed ..)
  · exact fixed (wrSqDb_fixed ..)
  · exact plain_epochOk_of_eq port (by exact fun _ => epochOk_of_epoch rfl rfl) _ hs
  · exact fixed (wrCc_fixed ..)
  · exact plain_epochOk_of_eq port (by exact fun _ => epochOk_of_epoch rfl rfl) _ hs
  · exact fixed (wrPage_fixed ..)
  · exact fixed (wrPfc_fixed ..)
  · exact fixed (wrPfc_fixed ..)
  · exact fixed (wrJcCfg_fixed ..)
  · exact plain_epochOk_of_eq port (by exact fun _ => epochOk_of_epoch rfl rfl) _ hs
  · exact fixed (wrJpSlew_fixed ..)
  · exact plain_epochOk_of_eq port (by exact fun _ => epochOk_of_epoch rfl rfl) _ hs
  · split_ifs
    · exact wrJM_epochOk port _ v s hs
    · exact wrJS_epochOk port _ v s hs
    · exact plain_epochOk_of_eq port (by exact fun _ => epochOk_of_epoch rfl rfl) _ hs

end Commands

theorem busWrite_epochOk (port : Mgmt) (off : Nat) (v : W32) (be : BitVec 4) (lost : Bool) :
    KeepsEpochs fun s => s.busWrite port off v be lost := by
  intro s hs
  show (s.busWrite port off v be lost).epochOk = true
  unfold State.busWrite
  split_ifs
  · exact hs
  · exact (refuse_epochOk ..).trans hs
  · exact (refuse_epochOk ..).trans hs
  · exact (refuse_epochOk ..).trans hs
  · exact regWrite_epochOk port off v s hs

theorem smAccess_epochOk (hdr data : W32) (edges : Nat) : KeepsEpochs fun s => s.smAccess hdr data edges := by
  intro s hs
  show (s.smAccess hdr data edges).epochOk = true
  unfold State.smAccess
  dsimp only
  split_ifs
  · exact (epochOk_of_fixed (respond_fixed ..)).trans hs
  · exact hs
  · exact busWrite_epochOk .sm _ _ _ _ s hs
  · exact hs
  · exact (epochOk_of_fixed (busRead_fixed ..)).trans hs
  · exact hs

theorem smRun_epochOk (hdr data : W32) (edges : Nat) : KeepsEpochs fun s => s.smRun hdr data edges := by
  intro s hs
  have h : (s.smAccess hdr data edges).epochOk = true := smAccess_epochOk hdr data edges s hs
  show (s.smRun hdr data edges).epochOk = true
  unfold State.smRun
  generalize s.smAccess hdr data edges = t at h ⊢
  split
  · exact hs
  · extract_lets total t'
    split
    · exact h
    · split
      · exact h
      · exact h

/-- The Mover's block holds nothing of the view. -/
theorem fixed_jm (s : State) (x : JmBlock) : ({ s with jm := x } : State).fixed = s.fixed := rfl

theorem finish_epochOk (s : State) (l : List Instr) : ({ s.finish with pending := l } : State).epochOk = s.epochOk := rfl

theorem KeepsEpochs.when {f : State → State} (hf : KeepsEpochs f) {p : State → Prop} [DecidablePred p] :
    KeepsEpochs fun s => if p s then f s else s := by
  intro s hs
  dsimp only
  split
  · exact hf s hs
  · exact hs

theorem KeepsEpochs.unless {f : State → State} (hf : KeepsEpochs f) {p : State → Prop} [DecidablePred p] :
    KeepsEpochs fun s => if p s then s else f s := by
  intro s hs
  dsimp only
  split
  · exact hs
  · exact hf s hs

/-- An outcome whose next state, if there is one, has consecutive epochs. -/
def EpochsOk (o : Host.Outcome State Fault Refusal) : Prop := ∀ t, o = .next t → t.epochOk = true

theorem run_epochOk {f : State → State} {s : State} (hs : s.epochOk = true) (hf : KeepsEpochs f) : EpochsOk (run f s) := by
  intro t h
  obtain rfl : _ = t := Host.Outcome.next.inj h
  exact (finish_epochOk ..).trans (hf s.begin_ hs)

theorem runUnit_epochOk {ok : Bool} {f : State → State} {s : State} (hs : s.epochOk = true) (hf : KeepsEpochs f) :
    EpochsOk (runUnit ok f s) := by
  obtain ⟨-, hrun⟩ | ⟨-, hstop⟩ := runUnit_cases ok f s
  · exact hrun ▸ run_epochOk hs hf
  · intro t h
    rw [hstop] at h
    cases h

theorem ackTimeout_fixed (s : State) (num : Nat) :
    (match s.queue num with
      | some q => if q.state = 1 ∧ q.ops.any SqOp.started then (s.retryQueue q).kickAll else s
      | none => s).fixed = s.fixed := by
  split
  · split <;> simp
  · rfl

theorem rnrExpiry_fixed (s : State) (num : Nat) :
    (match s.queue num with
      | some q => if q.state = 1 ∧ q.rnrWait then (s.setQueue { q with rnrWait := false }).kickAll else s
      | none => s).fixed = s.fixed := by
  split
  · split <;> simp
  · rfl

/-- A queue's fill level as its threshold row brings it (R300). -/
def State.fillIn (s : State) (q : BitVec 4) (fill : BitVec 12) : State :=
  if q.toNat < 8 then { s with jm := { s.jm with ownFill := modifyNth (fun _ => fill) q.toNat s.jm.ownFill } } else s

theorem fillIn_fixed (s : State) (q : BitVec 4) (fill : BitVec 12) : (s.fillIn q fill).fixed = s.fixed := by
  unfold State.fillIn
  split
  · exact fixed_jm s _
  · rfl

theorem windowRead_fixed (s : State) (port : Mgmt) (off : Nat) :
    (match winOf off with
      | some (_, 0) => s.busRead port off
      | _ => s).fixed = s.fixed := by
  split
  · exact busRead_fixed ..
  · rfl

theorem pauseExpiry_fixed (s : State) (e prio : Nat) :
    (if (s.eth e).paused.getLsbD prio then
      (((s.setEth e fun p => { p with paused := p.paused &&& ~~~ BitVec.ofNat 8 (2 ^ prio) }).releaseEth e).kickAll)
      else s).fixed = s.fixed := by
  split
  · simp
  · rfl

/-! ### Every command -/

/-- Every command keeps the epochs consecutive: most leave them, an epoch advance moves both, and a reset or a schedule load sets
both (R36, R37). -/
theorem exec_epochOk (c : Instr) {s : State} (hs : s.epochOk = true) : EpochsOk (exec c s) := by
  cases c with
  | slotStart st =>
    exact run_epochOk (f := fun s => s.slotStart st) hs <|
      keepsEpochs_of_eq fun _ => slotStart_epochOk ..
  | slotCompletionCheck reports =>
    exact run_epochOk (f := fun s => s.completionCheck reports) hs <|
      keepsEpochs_of_fixed fun _ => completionCheck_fixed ..
  | gateTimeout phase unit =>
    exact run_epochOk (f := fun s => s.gateTimeout phase.toNat unit.toNat) hs <|
      keepsEpochs_of_eq fun _ => gateTimeout_epochOk ..
  | doorbellRing port value =>
    exact run_epochOk (f := fun s => s.wrDbRing port value) hs <|
      keepsEpochs_of_fixed fun _ => wrDbRing_fixed ..
  | modeReqWrite port value =>
    exact run_epochOk (f := fun s => s.wrModeReq port value) hs <|
      keepsEpochs_of_fixed fun _ => wrModeReq_fixed ..
  | boundaryPeriod =>
    exact run_epochOk (f := State.boundary) hs <|
      keepsEpochs_of_fixed fun _ => boundary_fixed ..
  | verdictEntry =>
    exact run_epochOk (f := State.verdictEntry) hs <|
      keepsEpochs_of_fixed fun _ => verdictEntry_fixed ..
  | verdictTimeout =>
    exact run_epochOk (f := State.verdictTimeout) hs <|
      keepsEpochs_of_fixed fun _ => verdictTimeout_fixed ..
  | verdictLostTimeout =>
    exact run_epochOk (f := State.verdictLost) hs <|
      keepsEpochs_of_fixed fun _ => verdictLost_fixed ..
  | commitPulse =>
    exact run_epochOk (f := State.commitPulse) hs <|
      fun _ => commitPulse_epochOk
  | skipDecision =>
    exact run_epochOk (f := State.skipDecision) hs <|
      keepsEpochs_of_eq fun _ => skipDecision_epochOk ..
  | boundarySwitch =>
    exact run_epochOk (f := State.boundarySwitch) hs <|
      keepsEpochs_of_eq fun _ => boundarySwitch_epochOk ..
  | quiescedSet =>
    exact run_epochOk (f := State.quiescedSet) hs <|
      keepsEpochs_of_fixed fun _ => quiescedSet_fixed ..
  | tileReceive n desc payload last =>
    exact run_epochOk (f := fun s => s.tileReceive n.toNat desc payload last) hs <|
      keepsEpochs_of_fixed fun _ => tileReceive_fixed ..
  | heldDescriptorRelease n payload last =>
    exact run_epochOk (f := fun s => s.heldRelease n.toNat payload last) hs <|
      keepsEpochs_of_fixed fun _ => heldRelease_fixed ..
  | producerReset n =>
    exact run_epochOk (f := fun s => s.producerReset n.toNat) hs <|
      keepsEpochs_of_fixed fun _ => producerReset_fixed ..
  | producerUp n =>
    exact run_epochOk (f := fun s => { s with ji := { s.ji with tqs := modifyNth (fun q => { q with pup := true }) n.toNat s.ji.tqs } }) hs <|
      keepsEpochs_of_fixed fun _ => rfl
  | maskBuild tensor row =>
    exact run_epochOk (f := fun s => s.maskBuild tensor row) hs <|
      keepsEpochs_of_fixed fun _ => maskBuild_fixed ..
  | chunkReceive port vc hdr payload =>
    exact run_epochOk (f := fun s => s.chunkReceive port.toNat vc.toNat hdr payload) hs <|
      keepsEpochs_of_fixed fun _ => chunkReceive_fixed ..
  | gatherFlagWrite gather =>
    exact run_epochOk (f := fun s => s.gatherFlag gather) hs <|
      keepsEpochs_of_fixed fun _ => gatherFlag_fixed ..
  | shiftFlagWrite transfer =>
    exact run_epochOk (f := fun s => s.xferFlag transfer) hs <|
      keepsEpochs_of_fixed fun _ => xferFlag_fixed ..
  | gazelleCell port hdr payload trailer =>
    exact run_epochOk (f := fun s => s.gazelleCell port.toNat hdr payload trailer) hs <|
      keepsEpochs_of_fixed fun _ => gazelleCell_fixed ..
  | gazelleCapWindow =>
    exact run_epochOk (f := State.capWindow) hs <|
      keepsEpochs_of_fixed fun _ => capWindow_fixed ..
  | arrayTileDrain array acc =>
    exact run_epochOk (f := fun s => s.drainSet array.toNat acc) hs <|
      keepsEpochs_of_fixed fun _ => drainSet_fixed ..
  | factorMerge tensor block =>
    exact run_epochOk (f := fun s => s.factorMerge tensor block) hs <|
      keepsEpochs_of_fixed fun _ => factorMerge_fixed ..
  | markhorRefreshStart =>
    exact run_epochOk (f := State.refreshStart) hs <|
      keepsEpochs_of_fixed fun _ => refreshStart_fixed ..
  | markhorIteration =>
    exact run_epochOk (f := State.markhorIter) hs <|
      keepsEpochs_of_fixed fun _ => markhorIter_fixed ..
  | markhorHold port value =>
    exact run_epochOk (f := fun s => s.wrJkCfg port value) hs <|
      keepsEpochs_of_fixed fun _ => wrJkCfg_fixed ..
  | chunkPassStart tile =>
    exact runUnit_epochOk (f := fun s => s.chunkPass tile) hs <|
      keepsEpochs_of_fixed fun _ => chunkPass_fixed ..
  | blockSectionStart tile =>
    exact runUnit_epochOk (f := fun s => s.blockSection tile) hs <|
      keepsEpochs_of_fixed fun _ => blockSection_fixed ..
  | prePassStart tile =>
    exact runUnit_epochOk (f := fun s => s.prePass tile) hs <|
      keepsEpochs_of_fixed fun _ => prePass_fixed ..
  | passComplete tile =>
    exact runUnit_epochOk (f := fun s => s.passComplete tile) hs <|
      keepsEpochs_of_fixed fun _ => passComplete_fixed ..
  | chunkConsumed chunk =>
    exact run_epochOk (f := fun s => s.chunkConsumed chunk) hs <|
      keepsEpochs_of_fixed fun _ => chunkConsumed_fixed ..
  | nop tile w =>
    exact runUnit_epochOk (f := fun s => s.issue tile w 0x00 fun s _ _ => (s, false)) hs <|
      keepsEpochs_of_fixed fun s => issue_fixed s tile w 0x00 _ (h := fun _ _ _ => rfl)
  | mov tile w =>
    exact runUnit_epochOk (f := fun s => s.lanes tile w 0x01 (false, true, false) fun _ b _ => f32Canon b) hs <|
      keepsEpochs_of_fixed fun _ => lanes_fixed ..
  | add tile w =>
    exact runUnit_epochOk (f := fun s => s.lanes tile w 0x02 (true, true, false) fun a b _ => f32Add a b) hs <|
      keepsEpochs_of_fixed fun _ => lanes_fixed ..
  | sub tile w =>
    exact runUnit_epochOk (f := fun s => s.lanes tile w 0x03 (true, true, false) fun a b _ => f32Sub a b) hs <|
      keepsEpochs_of_fixed fun _ => lanes_fixed ..
  | mul tile w =>
    exact runUnit_epochOk (f := fun s => s.lanes tile w 0x04 (true, true, false) fun a b _ => f32Mul a b) hs <|
      keepsEpochs_of_fixed fun _ => lanes_fixed ..
  | div tile w =>
    exact runUnit_epochOk (f := fun s => s.lanes tile w 0x05 (true, true, false) fun a b _ => f32Div a b) hs <|
      keepsEpochs_of_fixed fun _ => lanes_fixed ..
  | min tile w =>
    exact runUnit_epochOk (f := fun s => s.lanes tile w 0x06 (true, true, false) fun a b _ => f32Min a b) hs <|
      keepsEpochs_of_fixed fun _ => lanes_fixed ..
  | max tile w =>
    exact runUnit_epochOk (f := fun s => s.lanes tile w 0x07 (true, true, false) fun a b _ => f32Max a b) hs <|
      keepsEpochs_of_fixed fun _ => lanes_fixed ..
  | fma tile w =>
    exact runUnit_epochOk (f := fun s => s.lanes tile w 0x08 (true, true, true) f32Fma) hs <|
      keepsEpochs_of_fixed fun _ => lanes_fixed ..
  | fnma tile w =>
    exact runUnit_epochOk (f := fun s => s.lanes tile w 0x09 (true, true, true) fun a b c => f32Fma (f32Neg a) b c) hs <|
      keepsEpochs_of_fixed fun _ => lanes_fixed ..
  | sqrt tile w =>
    exact runUnit_epochOk (f := fun s => s.lanes tile w 0x0A (true, false, false) fun a _ _ => f32Sqrt a) hs <|
      keepsEpochs_of_fixed fun _ => lanes_fixed ..
  | abs tile w =>
    exact runUnit_epochOk (f := fun s => s.lanes tile w 0x0B (true, false, false) fun a _ _ => f32Canon (f32Abs a)) hs <|
      keepsEpochs_of_fixed fun _ => lanes_fixed ..
  | neg tile w =>
    exact runUnit_epochOk (f := fun s => s.lanes tile w 0x0C (true, false, false) fun a _ _ => f32Canon (f32Neg a)) hs <|
      keepsEpochs_of_fixed fun _ => lanes_fixed ..
  | clt tile w =>
    exact runUnit_epochOk (f := fun s => s.lanes tile w 0x0D (true, true, false) fun a b _ => if f32Lt a b then f32One else 0) hs <|
      keepsEpochs_of_fixed fun _ => lanes_fixed ..
  | sel tile w =>
    exact runUnit_epochOk (f := fun s => s.lanes tile w 0x0E (true, true, true) fun a b c => f32Canon (if f32IsZero c then b else a)) hs <|
      keepsEpochs_of_fixed fun _ => lanes_fixed ..
  | ld tile w =>
    exact runUnit_epochOk (f := fun s => s.loadStream tile w) hs <|
      keepsEpochs_of_fixed fun _ => loadStream_fixed ..
  | st tile w =>
    exact runUnit_epochOk (f := fun s => s.storeStream tile w) hs <|
      keepsEpochs_of_fixed fun _ => storeStream_fixed ..
  | ldx tile w =>
    exact runUnit_epochOk (f := fun s => s.loadX tile w) hs <|
      keepsEpochs_of_fixed fun _ => loadX_fixed ..
  | stx tile w =>
    exact runUnit_epochOk (f := fun s => s.storeX tile w) hs <|
      keepsEpochs_of_fixed fun _ => storeX_fixed ..
  | acc tile w =>
    exact runUnit_epochOk (f := fun s => s.accumulate tile w 0x14 id) hs <|
      keepsEpochs_of_fixed fun _ => accumulate_fixed ..
  | accsq tile w =>
    exact runUnit_epochOk (f := fun s => s.accumulate tile w 0x15 fun v => f32Mul v v) hs <|
      keepsEpochs_of_fixed fun _ => accumulate_fixed ..
  | fold tile w =>
    exact runUnit_epochOk (f := fun s => s.foldReg tile w) hs <|
      keepsEpochs_of_fixed fun _ => foldReg_fixed ..
  | commitApprove port value =>
    exact run_epochOk (f := fun s => if value.getLsbD 1 && !value.getLsbD 2 then s.wrCommitGate port value else s) hs <|
      KeepsEpochs.when (wrCommitGate_epochOk port value)
  | commitVeto port value =>
    exact run_epochOk (f := fun s => if value.getLsbD 2 then s.wrCommitGate port value else s) hs <|
      KeepsEpochs.when (wrCommitGate_epochOk port value)
  | buddyCopyComplete =>
    exact run_epochOk (f := State.copyComplete) hs <|
      keepsEpochs_of_fixed fun _ => copyComplete_fixed ..
  | buddyHeaderReceive hdr =>
    exact run_epochOk (f := fun s => if s.inReset then s else s.headerIn hdr) hs <|
      KeepsEpochs.unless (keepsEpochs_of_fixed fun _ => headerIn_fixed ..)
  | buddyTrailerReceive src data crc =>
    exact run_epochOk (f := fun s => s.trailerIn src data crc) hs <|
      keepsEpochs_of_fixed fun _ => trailerIn_fixed ..
  | scheduleLoad =>
    exact run_epochOk (f := fun s => if s.loadDue && s.portsUp then s.startSchedule else s) hs <|
      KeepsEpochs.when fun s _ => startSchedule_epochOk s
  | dataFrame p f =>
    exact run_epochOk (f := doDataFrame p f) hs <|
      keepsEpochs_of_fixed fun _ => doDataFrame_fixed ..
  | ackFrame p f =>
    exact run_epochOk (f := fun s => s.onFrame p.toNat 1 f fun s _ => s) hs <|
      keepsEpochs_of_fixed fun s => onFrame_fixed s p.toNat 1 f _ (h := fun _ _ => rfl)
  | retryFrame p f =>
    exact run_epochOk (f := fun s => s.onFrame p.toNat 2 f fun s _ => s.retryIn p.toNat (BitVec.ofNat 16 (natLE (f.payload.take 2)))) hs <|
      keepsEpochs_of_fixed fun s => onFrame_fixed s p.toNat 2 f _ (h := fun _ _ => retryIn_fixed ..)
  | creditFrame p f =>
    exact run_epochOk (f := fun s => s.onFrame p.toNat 3 f fun s _ => s.creditIn p.toNat f.payload) hs <|
      keepsEpochs_of_fixed fun s => onFrame_fixed s p.toNat 3 f _ (h := fun _ _ => creditIn_fixed ..)
  | identFrame p f =>
    exact run_epochOk (f := fun s => s.onFrame p.toNat 4 f fun s _ => s.identFrameIn p.toNat f.payload) hs <|
      keepsEpochs_of_fixed fun s => onFrame_fixed s p.toNat 4 f _ (h := fun _ _ => identFrameIn_fixed ..)
  | notReadyFrame p f =>
    exact run_epochOk (f := fun s => s.onFrame p.toNat 5 f fun s _ => if (s.port p.toNat).attempt = 2 then s.attemptFails p.toNat 3 else s) hs <|
      keepsEpochs_of_fixed fun s => onFrame_fixed s p.toNat 5 f _ (h := fun _ _ => by split <;> simp)
  | degradeFrame p f =>
    exact run_epochOk (f := fun s => s.onFrame p.toNat 6 f fun s _ => s.degradeIn p.toNat (bitAt (natLE (f.payload.take 1)) 0)) hs <|
      keepsEpochs_of_fixed fun s => onFrame_fixed s p.toNat 6 f _ (h := fun _ _ => degradeIn_fixed ..)
  | retryTimeout p =>
    exact run_epochOk (f := fun s => if (s.port p.toNat).rx.retryOut then s.askRetry p.toNat else s) hs <|
      KeepsEpochs.when (keepsEpochs_of_fixed fun _ => askRetry_fixed ..)
  | ackTimer p =>
    exact run_epochOk (f := fun s => if (s.port p.toNat).rx.ackDue then s.sendCtl p.toNat 1 0 else s) hs <|
      KeepsEpochs.when (keepsEpochs_of_fixed fun _ => sendCtl_fixed ..)
  | creditTimer p =>
    exact run_epochOk (f := fun s => if (s.port p.toNat).state = 4 ∨ (s.port p.toNat).state = 5 then s.sendCredit p.toNat else s) hs <|
      KeepsEpochs.when (keepsEpochs_of_fixed fun _ => sendCredit_fixed ..)
  | markerReceive p lane m =>
    exact run_epochOk (f := doMarkerReceive p lane m) hs <|
      keepsEpochs_of_fixed fun _ => doMarkerReceive_fixed ..
  | markerTransmit p gaps =>
    exact run_epochOk (f := fun s => s.sendBlocks p.toNat markerSlots gaps) hs <|
      keepsEpochs_of_fixed fun _ => sendBlocks_fixed ..
  | codewordDecode p second low high =>
    exact run_epochOk (f := doCodewordDecode p second (low ++ high)) hs <|
      keepsEpochs_of_fixed fun _ => doCodewordDecode_fixed ..
  | laneLos p lane =>
    exact run_epochOk (f := fun s => (s.setPort p.toNat fun q => { q with lanes := modifyNth (fun x => { x with los := true }) lane.toNat q.lanes }).laneFails p.toNat lane.toNat 2) hs <|
      keepsEpochs_of_fixed fun _ => laneFails_fixed ..
  | degradeRepeat p =>
    exact run_epochOk (f := fun s => if (s.port p.toNat).realign && (s.port p.toNat).lanes.any Lane.bad then s.sendCtl p.toNat 6 (b2n (s.port p.toNat).half) else s) hs <|
      KeepsEpochs.when (keepsEpochs_of_fixed fun _ => sendCtl_fixed ..)
  | degradeRealignTimeout p =>
    exact run_epochOk (f := fun s => s.realignTimeout p.toNat) hs <|
      keepsEpochs_of_fixed fun _ => realignTimeout_fixed ..
  | trainingAttempt p =>
    exact run_epochOk (f := doTrainingAttempt p) hs <|
      keepsEpochs_of_fixed fun _ => doTrainingAttempt_fixed ..
  | trainingAlignTimeout p =>
    exact run_epochOk (f := fun s => if (s.port p.toNat).attempt = 1 then s.attemptFails p.toNat 1 else s) hs <|
      KeepsEpochs.when (keepsEpochs_of_fixed fun _ => attemptFails_fixed ..)
  | trainingIdentTimeout p =>
    exact run_epochOk (f := fun s => if (s.port p.toNat).attempt = 2 then s.attemptFails p.toNat 2 else s) hs <|
      KeepsEpochs.when (keepsEpochs_of_fixed fun _ => attemptFails_fixed ..)
  | adaptDone p =>
    exact run_epochOk (f := fun s => s.setAdapt p.toNat false) hs <|
      keepsEpochs_of_fixed fun _ => setAdapt_fixed ..
  | bootWaitExpiry =>
    exact run_epochOk (f := State.bootWaitOver) hs <|
      fun _ => bootWaitOver_epochOk
  | qpContextLoad port value =>
    exact run_epochOk (f := fun s => if value.getLsbD 16 then s.wrSqDb port value else s) hs <|
      KeepsEpochs.when (keepsEpochs_of_fixed fun _ => wrSqDb_fixed ..)
  | sqDoorbell port value =>
    exact run_epochOk (f := fun s => if !value.getLsbD 16 && !value.getLsbD 17 then s.wrSqDb port value else s) hs <|
      KeepsEpochs.when (keepsEpochs_of_fixed fun _ => wrSqDb_fixed ..)
  | rqDoorbell port value =>
    exact run_epochOk (f := fun s => if !value.getLsbD 16 && value.getLsbD 17 then s.wrSqDb port value else s) hs <|
      KeepsEpochs.when (keepsEpochs_of_fixed fun _ => wrSqDb_fixed ..)
  | roceRequestPacket e pkt =>
    exact run_epochOk (f := fun s => s.roceIn e.toNat pkt) hs <|
      keepsEpochs_of_fixed fun _ => roceIn_fixed ..
  | roceAck rx qpn psn =>
    exact run_epochOk (f := fun s => s.macIn rx.eport.toNat rx.mac qpn fun s q => ((s.ackUpTo q psn).1.setQueue (s.ackUpTo q psn).2).kickAll) hs <|
      keepsEpochs_of_fixed fun s => macIn_fixed s _ rx.mac qpn _ (h := fun _ _ => by simp)
  | roceNak rx qpn psn code =>
    exact run_epochOk (f := fun s => s.macIn rx.eport.toNat rx.mac qpn fun s q => s.nakIn q psn code) hs <|
      keepsEpochs_of_fixed fun s => macIn_fixed s _ rx.mac qpn _ (h := fun _ _ => nakIn_fixed ..)
  | rnrNak rx qpn psn _timer =>
    exact run_epochOk (f := fun s => s.macIn rx.eport.toNat rx.mac qpn fun s q => s.rnrIn q psn) hs <|
      keepsEpochs_of_fixed fun s => macIn_fixed s _ rx.mac qpn _ (h := fun _ _ => rnrIn_fixed ..)
  | readResponse rx qpn psn b last =>
    exact run_epochOk (f := fun s => s.macIn rx.eport.toNat rx.mac qpn fun s q => s.readIn q psn b last) hs <|
      keepsEpochs_of_fixed fun s => macIn_fixed s _ rx.mac qpn _ (h := fun _ _ => readIn_fixed ..)
  | cnp rx qpn =>
    exact run_epochOk (f := fun s => s.macIn rx.eport.toNat rx.mac qpn fun s q => s.setQueue q.halve) hs <|
      keepsEpochs_of_fixed fun s => macIn_fixed s _ rx.mac qpn _ (h := fun _ _ => setQueue_fixed ..)
  | pfcFrame e enable quanta =>
    exact run_epochOk (f := fun s => s.pfcIn e.toNat enable quanta) hs <|
      keepsEpochs_of_fixed fun _ => pfcIn_fixed ..
  | roceAckTimeout num =>
    exact run_epochOk (f := fun s => match s.queue num.toNat with | some q => if q.state = 1 ∧ q.ops.any SqOp.started then (s.retryQueue q).kickAll else s | none => s) hs <|
      keepsEpochs_of_fixed fun s => ackTimeout_fixed s num.toNat
  | rnrTimerExpiry num =>
    exact run_epochOk (f := fun s => match s.queue num.toNat with | some q => if q.state = 1 ∧ q.rnrWait then (s.setQueue { q with rnrWait := false }).kickAll else s | none => s) hs <|
      keepsEpochs_of_fixed fun s => rnrExpiry_fixed s num.toNat
  | pfcXoffRepeat tick =>
    exact run_epochOk (f := fun s => s.xoffRepeat tick.eport.toNat tick.fillKiB) hs <|
      keepsEpochs_of_fixed fun _ => xoffRepeat_fixed ..
  | pageDone port value =>
    exact run_epochOk (f := fun s => if value.getLsbD 30 then s.wrPage port value else s) hs <|
      KeepsEpochs.when (keepsEpochs_of_fixed fun _ => wrPage_fixed ..)
  | ethLinkChange e locked =>
    exact run_epochOk (f := fun s => s.ethLink e.toNat locked) hs <|
      keepsEpochs_of_fixed fun _ => ethLink_fixed ..
  | pfcHoldTimeout e prio =>
    exact run_epochOk (f := fun s => if (s.eth e.toNat).paused.getLsbD prio.toNat then s.event (0x49 + e.toNat) 0x0804 1 [i1 e.toNat, i1 prio.toNat] else s) hs <|
      KeepsEpochs.when (keepsEpochs_of_fixed fun _ => event_fixed ..)
  | ethConfigLoad =>
    exact run_epochOk (f := State.ethConfig) hs <|
      keepsEpochs_of_fixed fun _ => ethConfig_fixed ..
  | moverStart port ch value =>
    exact run_epochOk (f := fun s => if value.getLsbD 0 then s.wrCtl port ch.toNat value else s) hs <|
      KeepsEpochs.when (keepsEpochs_of_fixed fun _ => wrCtl_fixed ..)
  | moverPause port ch value =>
    exact run_epochOk (f := fun s => if value.getLsbD 1 && !value.getLsbD 0 && !value.getLsbD 2 then s.wrCtl port ch.toNat value else s) hs <|
      KeepsEpochs.when (keepsEpochs_of_fixed fun _ => wrCtl_fixed ..)
  | moverUnpause port ch value =>
    exact run_epochOk (f := fun s => if !value.getLsbD 0 && !value.getLsbD 1 && !value.getLsbD 2 && (s.chan ch.toNat).pause then s.wrCtl port ch.toNat value else s) hs <|
      KeepsEpochs.when (keepsEpochs_of_fixed fun _ => wrCtl_fixed ..)
  | moverStop port ch value =>
    exact run_epochOk (f := fun s => if value.getLsbD 2 && !value.getLsbD 0 then s.wrCtl port ch.toNat value else s) hs <|
      KeepsEpochs.when (keepsEpochs_of_fixed fun _ => wrCtl_fixed ..)
  | moverDrained ch moved =>
    exact run_epochOk (f := fun s => s.moverDrained ch.toNat moved.toNat) hs <|
      keepsEpochs_of_fixed fun _ => moverDrained_fixed ..
  | moverComplete ch =>
    exact run_epochOk (f := fun s => s.moverComplete ch.toNat) hs <|
      keepsEpochs_of_fixed fun _ => moverComplete_fixed ..
  | memResponse req status late refresh =>
    exact run_epochOk (f := fun s => s.memResponse req status late refresh) hs <|
      keepsEpochs_of_fixed fun _ => memResponse_fixed ..
  | memRequestTimeout req =>
    exact run_epochOk (f := fun s => s.memTimeout req) hs <|
      keepsEpochs_of_fixed fun _ => memTimeout_fixed ..
  | pacingThreshold q fill =>
    exact run_epochOk (f := fun s => (s.fillIn q fill).repace q.toNat) hs <|
      keepsEpochs_of_fixed fun s => (repace_fixed ..).trans (fillIn_fixed s q fill)
  | offloadEntryComplete ch =>
    exact run_epochOk (f := fun s => s.offDone ch.toNat) hs <|
      keepsEpochs_of_fixed fun _ => offDone_fixed ..
  | kvBlockEncode t =>
    exact runUnit_epochOk (f := fun s => s.encodeBlock t) hs <|
      keepsEpochs_of_fixed fun _ => encodeBlock_fixed ..
  | kvBlockWritten region block =>
    exact run_epochOk (f := fun s => s.blockWritten region.toNat block.toNat) hs <|
      keepsEpochs_of_fixed fun _ => blockWritten_fixed ..
  | expanderSlot xe region block slot =>
    exact run_epochOk (f := fun s => s.expandSlot xe.xe.toNat region.toNat block.toNat slot xe.errReady) hs <|
      keepsEpochs_of_fixed fun _ => expandSlot_fixed ..
  | expanderFetchResponse xe line rest status =>
    exact run_epochOk (f := fun s => s.fetchDone xe.xe.toNat line rest status xe.errReady) hs <|
      keepsEpochs_of_fixed fun _ => fetchDone_fixed ..
  | xtConfigWrite =>
    exact run_epochOk (f := State.xtWrite) hs <|
      keepsEpochs_of_fixed fun _ => xtWrite_fixed ..
  | xtEpochAdvance =>
    exact run_epochOk (f := State.xtAdvance) hs <|
      keepsEpochs_of_fixed fun _ => xtAdvance_fixed ..
  | xrReport info =>
    exact run_epochOk (f := fun s => s.xrIn info.toNat) hs <|
      keepsEpochs_of_fixed fun _ => xrIn_fixed ..
  | jporNAssert =>
    exact run_epochOk (f := State.jporFalls) hs <|
      fun s _ => jporFalls_epochOk s
  | jporNRelease nvmMode twinSel =>
    exact run_epochOk (f := fun s => s.jporRises nvmMode twinSel) hs <|
      keepsEpochs_of_fixed fun _ => jporRises_fixed ..
  | jwrstNAssert =>
    exact run_epochOk (f := State.jwrstFalls) hs <|
      fun _ => jwrstFalls_epochOk
  | jwrstNRelease =>
    exact run_epochOk (f := State.jwrstRises) hs <|
      fun _ => jwrstRises_epochOk
  | inrushDone =>
    exact run_epochOk (f := State.inrushEnds) hs <|
      keepsEpochs_of_fixed fun _ => inrushEnds_fixed ..
  | bootVerifyComplete obs =>
    exact run_epochOk (f := fun s => s.bootEnds obs) hs <|
      keepsEpochs_of_eq fun _ => bootEnds_epochOk ..
  | nopCommand port =>
    exact run_epochOk (f := fun s => s.cmdNop port) hs <|
      keepsEpochs_of_fixed fun _ => cmdNop_fixed ..
  | quiesce port =>
    exact run_epochOk (f := fun s => s.cmdQuiesce port) hs <|
      keepsEpochs_of_fixed fun _ => cmdQuiesce_fixed ..
  | resume port =>
    exact run_epochOk (f := fun s => s.cmdResume port) hs <|
      keepsEpochs_of_fixed fun _ => cmdResume_fixed ..
  | liveSwap port flashOk =>
    exact run_epochOk (f := fun s => s.cmdLiveSwap port flashOk) hs <|
      cmdLiveSwap_epochOk port flashOk
  | unstage port =>
    exact run_epochOk (f := fun s => s.cmdUnstage port) hs <|
      cmdUnstage_epochOk port
  | clearDb port =>
    exact run_epochOk (f := fun s => s.cmdClearDb port) hs <|
      keepsEpochs_of_fixed fun _ => cmdClearDb_fixed ..
  | exportCmd port =>
    exact run_epochOk (f := fun s => s.cmdExport port) hs <|
      keepsEpochs_of_fixed fun _ => cmdExport_fixed ..
  | stagingTest port good =>
    exact run_epochOk (f := fun s => s.cmdStagingTest port good) hs <|
      keepsEpochs_of_fixed fun _ => cmdStagingTest_fixed ..
  | imageWrite port file flashOk =>
    exact run_epochOk (f := fun s => s.cmdImageWrite port (some file) flashOk) hs <|
      cmdImageWrite_epochOk port (some file) flashOk
  | imageCommit port flashOk =>
    exact run_epochOk (f := fun s => s.cmdImageCommit port flashOk) hs <|
      cmdImageCommit_epochOk port flashOk
  | tileRetire port =>
    exact run_epochOk (f := fun s => s.cmdTileRetire port) hs <|
      cmdTileRetire_epochOk port
  | tileTest port good =>
    exact run_epochOk (f := fun s => s.cmdTileTest port good) hs <|
      keepsEpochs_of_fixed fun _ => cmdTileTest_fixed ..
  | tileAdmit port =>
    exact run_epochOk (f := fun s => s.cmdTileAdmit port) hs <|
      cmdTileAdmit_epochOk port
  | portRetire port =>
    exact run_epochOk (f := fun s => s.cmdPortRetire port) hs <|
      cmdPortRetire_epochOk port
  | portAdmit port =>
    exact run_epochOk (f := fun s => s.cmdPortAdmit port) hs <|
      cmdPortAdmit_epochOk port
  | restoreSend port =>
    exact run_epochOk (f := fun s => s.cmdRestoreSend port) hs <|
      keepsEpochs_of_fixed fun _ => cmdRestoreSend_fixed ..
  | rollback port =>
    exact run_epochOk (f := fun s => s.cmdRollback port) hs <|
      keepsEpochs_of_fixed fun _ => cmdRollback_fixed ..
  | takeover port =>
    exact run_epochOk (f := fun s => s.cmdTakeover port) hs <|
      cmdTakeover_epochOk port
  | twinSwap port =>
    exact run_epochOk (f := fun s => s.cmdTwinSwap port) hs <|
      keepsEpochs_of_fixed fun _ => cmdTwinSwap_fixed ..
  | commandComplete =>
    exact run_epochOk (f := State.commandComplete) hs <|
      keepsEpochs_of_eq fun _ => commandComplete_epochOk ..
  | cmdArgWrite port index value =>
    exact run_epochOk (f := fun s => s.wrCmdArg port index.toNat value) hs <|
      keepsEpochs_of_fixed fun _ => wrCmdArg_fixed ..
  | take port value =>
    exact run_epochOk (f := fun s => if value.getLsbD 8 then s.wrLock port value else s) hs <|
      KeepsEpochs.when (wrLock_epochOk port value)
  | renew port value =>
    exact run_epochOk (f := fun s => if !value.getLsbD 8 && value.getLsbD 9 then s.wrLock port value else s) hs <|
      KeepsEpochs.when (wrLock_epochOk port value)
  | release port value =>
    exact run_epochOk (f := fun s => if !value.getLsbD 8 && !value.getLsbD 9 && value.getLsbD 10 then s.wrLock port value else s) hs <|
      KeepsEpochs.when (wrLock_epochOk port value)
  | leaseExpiry =>
    exact run_epochOk (f := State.leaseEnds) hs <|
      keepsEpochs_of_eq fun _ => leaseEnds_epochOk ..
  | lockLeaseWrite port value =>
    exact run_epochOk (f := fun s => s.wrLease port value) hs <|
      wrLease_epochOk port value
  | evTailWrite port value overwrite =>
    exact run_epochOk (f := fun s => s.wrTail port value overwrite) hs <|
      keepsEpochs_of_fixed fun _ => wrTail_fixed ..
  | smTransaction hdr data edges =>
    exact run_epochOk (f := fun s => s.smRun hdr data edges) hs <|
      smRun_epochOk hdr data edges
  | registerWrite port offset value be lost =>
    exact run_epochOk (f := fun s => s.busWrite port offset.toNat value be lost) hs <|
      busWrite_epochOk port offset.toNat value be lost
  | rcRead port offset =>
    exact run_epochOk (f := fun s => s.busRead port offset.toNat) hs <|
      keepsEpochs_of_fixed fun _ => busRead_fixed ..
  | latchedWindowRead port offset =>
    exact run_epochOk (f := fun s => match winOf offset.toNat with | some (_, 0) => s.busRead port offset.toNat | _ => s) hs <|
      keepsEpochs_of_fixed fun s => windowRead_fixed s port offset.toNat
  | duikerWatchdog fwAddr =>
    exact run_epochOk (f := fun s => s.watchdog fwAddr.toNat) hs <|
      keepsEpochs_of_eq fun _ => watchdog_epochOk ..
  | duikerRestartComplete =>
    exact run_epochOk (f := fun s => { s with js := { s.js with restarting := false } }) hs <|
      keepsEpochs_of_eq fun _ => epochOk_of_epoch rfl rfl
  | telemetrySample temp volt =>
    exact run_epochOk (f := fun s => s.sample temp volt) hs <|
      keepsEpochs_of_fixed fun _ => sample_fixed ..
  | nvmCommandTimeout opcode addr status =>
    exact run_epochOk (f := fun s => s.nvmTimeout opcode.toNat addr.toNat status.toNat) hs <|
      keepsEpochs_of_eq fun _ => nvmTimeout_epochOk ..
  | fuseAckTimeout addr =>
    exact run_epochOk (f := fun s => s.fuseMissed addr.toNat) hs <|
      keepsEpochs_of_fixed fun _ => fuseMissed_fixed ..
  | tileFailure loss =>
    exact runUnit_epochOk (f := fun s => s.tileFails loss.phys loss.cause.toNat) hs <|
      keepsEpochs_of_fixed fun _ => tileFails_fixed ..
  | tileWatchdog phys =>
    exact runUnit_epochOk (f := fun s => s.tileFails phys 3) hs <|
      keepsEpochs_of_fixed fun _ => tileFails_fixed ..
  | twinCheckReceive msg =>
    exact run_epochOk (f := fun s => s.twinIn msg) hs <|
      keepsEpochs_of_fixed fun _ => twinIn_fixed ..
  | twinSilenceTimeout =>
    exact run_epochOk (f := fun s => if s.inReset then s else s.twinFailed) hs <|
      KeepsEpochs.unless (keepsEpochs_of_fixed fun _ => twinFailed_fixed ..)
  | restoreAckTimeout =>
    exact run_epochOk (f := fun s => if s.cmdRuns 0x25 then s.cmdEnds 0x25 7 else s) hs <|
      KeepsEpochs.when (keepsEpochs_of_fixed fun _ => cmdEnds_fixed ..)
  | restoreDataReceive hdr data crc =>
    exact run_epochOk (f := fun s => s.restoreIn hdr data crc) hs <|
      keepsEpochs_of_eq fun _ => restoreIn_epochOk ..
  | pfcPauseExpiry e prio =>
    exact run_epochOk (f := fun s => if (s.eth e.toNat).paused.getLsbD prio.toNat then (((s.setEth e.toNat fun p => { p with paused := p.paused &&& ~~~ BitVec.ofNat 8 (2 ^ prio.toNat) }).releaseEth e.toNat).kickAll) else s) hs <|
      keepsEpochs_of_fixed fun s => pauseExpiry_fixed s e.toNat prio.toNat
  | unitFailure failed =>
    exact run_epochOk (f := fun s => if s.inReset then s else s.memberFail (match failed with | .array => 5 | .adderLane => 6 | .gazelle => 6)) hs <|
      KeepsEpochs.unless (keepsEpochs_of_fixed fun _ => memberFail_fixed ..)

/-- Settles O4: an idle step changes nothing, and every command keeps the epochs consecutive by `exec_epochOk`. -/
theorem epochsStayConsecutive : Obligations.EpochsStayConsecutive := by
  intro s t hs h
  cases hq : s.pending with
  | nil =>
    rw [step_idle s hq] at h
    cases h
    exact hs
  | cons c rest =>
    rw [step_front s c rest hq] at h
    exact exec_epochOk c (s := { s with pending := rest }) hs t h

end Sys2Proof.Machine
end

section
/-!
The block as a machine: every command is an effect between the start and the end of a command, or stops because its unit does
not exist, and the end of a command leaves no event unrecorded (R347).
-/

namespace Sys2Proof.Machine

/-- Settles O1. -/
theorem stepRunsTheFrontCommand : Obligations.StepRunsTheFrontCommand :=
  ⟨fun c s => step_front { s with pending := c :: s.pending } c s.pending rfl, step_idle⟩

/-! ### Completion -/

theorem foldl_ringPut_evq (slot : SlotNo) (step : StepNo) (l : List EvRec) (r : RingBlock) :
    (l.foldl (ringPut slot step) r).evq = r.evq := by
  induction l generalizing r with
  | nil => rfl
  | cons e l ih => exact ih _

/-- Every event is in the ring when a command ends (R347). -/
@[simp] theorem finish_eventsIn (s : State) : s.finish.eventsIn = true :=
  congrArg List.isEmpty (foldl_ringPut_evq s.jq.slot s.jq.step (sortBy evBefore s.js.ring.evq) { s.js.ring with evq := [] })

/-- Each of the block's commands runs an effect, or stops where its operand names a unit that does not exist (R5). -/
theorem exec_eq_runUnit (c : Instr) (s : State) : ∃ ok f, exec c s = runUnit ok f s ∧ (c.wf = true → ok = true) := by
  cases c
  case chunkPassStart t | blockSectionStart t | prePassStart t | passComplete t | kvBlockEncode t =>
    exact ⟨tileOk t, _, rfl, id⟩
  case nop t _ | mov t _ | add t _ | sub t _ | mul t _ | div t _ | min t _ | max t _ | fma t _ | fnma t _ | sqrt t _ | abs t _ |
      neg t _ | clt t _ | sel t _ | ld t _ | st t _ | ldx t _ | stx t _ | acc t _ | accsq t _ | fold t _ =>
    exact ⟨tileOk t, _, rfl, id⟩
  case tileFailure loss => exact ⟨decide (loss.phys < 48), _, rfl, id⟩
  case tileWatchdog p => exact ⟨decide (p < 48), _, rfl, id⟩
  all_goals exact ⟨true, _, rfl, fun _ => rfl⟩

/-- What a command that answers a next state leaves of the queue and of the recorded events. -/
theorem exec_next {c : Instr} {s t : State} (h : exec c s = .next t) : t.pending = s.pending ∧ t.eventsIn = true := by
  obtain ⟨ok, f, hrun, -⟩ := exec_eq_runUnit c s
  rw [hrun] at h
  obtain ⟨-, heq⟩ | ⟨-, heq⟩ := runUnit_cases ok f s
  · rw [heq, run_next] at h
    cases h
    exact ⟨rfl, finish_eventsIn _⟩
  · rw [heq] at h
    cases h

/-- A command that can be presented completes. -/
theorem exec_completes {c : Instr} (hc : c.wf = true) (s : State) : ∃ t, exec c s = .next t := by
  obtain ⟨ok, f, hrun, hok⟩ := exec_eq_runUnit c s
  rw [hrun, runUnit_next ok f s (hok hc)]
  exact ⟨_, run_next f s⟩

theorem exec_of_absent {c : Instr} {s : State} {ok : Bool} {f : State → State} (h : exec c s = runUnit ok f s)
    (hok : ok = false) : exec c s = .fault .noSuchUnit :=
  h.trans (runUnit_fault ok f s hok)

/-- Settles O2: `exec_completes` and `exec_next` for every command, and `exec_of_absent` for the units that do not exist. -/
theorem commandsComplete : Obligations.CommandsComplete := by
  refine ⟨fun c s hc _ => ?_, fun s t hs h => ?_, fun tile w s ht => ?_, fun p s hp => ?_⟩
  · obtain ⟨t, ht⟩ := exec_completes hc s
    exact ⟨t, ht, exec_next ht⟩
  · cases hq : s.pending with
    | nil =>
      rw [step_idle s hq] at h
      cases h
      exact ⟨hs, hq⟩
    | cons c rest =>
      rw [step_front s c rest hq] at h
      exact (exec_next h).symm
  · have hno : tileOk tile = false := decide_eq_false (Nat.not_lt.mpr ht)
    exact ⟨exec_of_absent rfl hno, exec_of_absent rfl hno, exec_of_absent rfl hno, exec_of_absent rfl hno,
      exec_of_absent rfl hno⟩
  · exact exec_of_absent rfl (decide_eq_false (Nat.not_lt.mpr hp))

/-! ### The state after reset -/

/-- Settles O3: each value is the one that the reset state holds. -/
theorem resetLeavesTheGivenValues : Obligations.ResetLeavesTheGivenValues := by
  have hquiet : (List.range 16).any (fun i =>
      State.reset.jm.irqEn.getLsbD (48 + i) && ((State.reset.jm.done.getLsbD (48 + i) &&
        ((State.reset.chan (48 + i)).ctl.getLsbD 17 || (State.reset.offloadOn && decide (60 ≤ 48 + i)))) ||
        ((State.reset.chan (48 + i)).halfSeen && (State.reset.chan (48 + i)).ctl.getLsbD 16))) = false := by decide
  exact ⟨rfl, rfl, rfl, rfl, rfl, rfl, rfl, rfl, rfl, rfl, rfl, rfl, rfl, rfl, rfl, rfl, rfl, rfl, rfl, rfl, rfl, rfl, rfl,
    rfl, rfl, rfl, hquiet, rfl, rfl, fun _ => rfl⟩

/-- Settles O5: no epoch has advanced, no memory holds a byte, nothing is recorded and nothing waits. -/
theorem resetMeetsTheInvariants : Obligations.ResetMeetsTheInvariants :=
  ⟨rfl, rfl, rfl, rfl⟩

end Sys2Proof.Machine
end

section
/-!
How a command's answer is read off its meaning: what it does to a state from which nothing has been driven.
-/

namespace Sys2Proof.Machine

/-- A command ends as its effect leaves a state from which nothing has been driven. -/
theorem does_run {c : Instr} {s : State} {f : State → State} (g : State → State) (hc : exec c s = run g s)
    (h : g s.begin_ = f s.begin_) : Does c s f := by
  rw [Does, hc, run_next, h]
  rfl

/-- A command that names a unit which exists. -/
theorem does_runUnit {c : Instr} {s : State} {f : State → State} (ok : Bool) (g : State → State)
    (hc : exec c s = runUnit ok g s) (hok : ok = true) (h : g s.begin_ = f s.begin_) : Does c s f :=
  does_run g (hc.trans (runUnit_next ok g s hok)) h

/-- What a command leaves in a part of the state that neither the end of a command nor the queue changes. -/
theorem exec_run {c : Instr} {s : State} {P : State → Prop} (g : State → State) (hc : exec c s = run g s)
    (h : P { (g s.begin_).finish with pending := s.pending }) : ∃ t, exec c s = .next t ∧ P t :=
  ⟨_, hc, h⟩

/-! ### Accesses that are served -/

theorem inReset_of_listening {s : State} (h : s.listening = true) : s.inReset = false := by
  simp only [State.listening, Bool.and_eq_true, Bool.not_eq_true'] at h
  exact h.1.1

theorem accessBusy_of_listening {s : State} (port : Mgmt) (offset : Nat) (write : Bool) (h : s.listening = true) :
    s.accessBusy port offset write = false := by
  simp only [State.listening, Bool.and_eq_true, Bool.not_eq_true', decide_eq_true_eq] at h
  obtain ⟨⟨hr, hd⟩, hb⟩ := h
  have hb' : ¬ s.js.boot.state.toNat < 4 := Nat.not_lt.mpr hb
  simp [State.accessBusy, State.booting, hr, hd, hb']

/-- An access that is served has the effect that its register gives it (R336). -/
theorem guarded_of_listening {s : State} (port : Mgmt) (offset : Nat) (f : State → State) (h : s.listening = true) :
    s.guarded port offset f = f s := by
  simp [State.guarded, inReset_of_listening h, accessBusy_of_listening port offset true h]

/-! ### A command that recorded one event (R347) -/

/-- The only event of a command enters the ring at its end. -/
theorem finish_ring_of_one {u : State} {r : RingBlock} {e : EvRec} (hr : r.evq = [])
    (h : u.js.ring = { r with evq := r.evq ++ [e] }) : u.finish.js.ring = ringPut u.jq.slot u.jq.step r e := by
  have hclear : { r with evq := [] } = r := by rw [← hr]
  rw [finish_eq_withRing, h, hr]
  show ringPut u.jq.slot u.jq.step { r with evq := [] } e = _
  rw [hclear]

/-- The entry written last stands just below HEAD. -/
theorem newest_of_ringPut {t : State} {slot : SlotNo} {step : StepNo} {r : RingBlock} {e : EvRec}
    (h : t.js.ring = ringPut slot step r e) :
    t.newest = some ⟨BitVec.ofNat 16 e.code, BitVec.ofNat 2 e.sev, slot, step, e.items⟩ := by
  have hw : t.newest = (t.withRing (ringPut slot step r e)).newest := by rw [State.newest, h]; rfl
  rw [hw, newest_withRing_ringPut]

theorem evq_of_eventsIn {s : State} (h : s.eventsIn = true) : s.js.ring.evq = [] := List.isEmpty_iff.mp h

/-! ### The interrupt bits that a command's events set (R349) -/

theorem mem_insertBy {α : Type} {lt : α → α → Bool} {x a : α} {l : List α} : x ∈ insertBy lt a l ↔ x = a ∨ x ∈ l := by
  induction l with
  | nil => simp [insertBy]
  | cons b l ih =>
    rw [insertBy]
    split
    · exact List.mem_cons
    · rw [List.mem_cons, ih, List.mem_cons]
      tauto

theorem mem_foldl_insertBy {α : Type} {lt : α → α → Bool} {x : α} (l acc : List α) :
    x ∈ l.foldl (fun acc a => insertBy lt a acc) acc ↔ x ∈ l ∨ x ∈ acc := by
  induction l generalizing acc with
  | nil => simp
  | cons a l ih =>
    rw [List.foldl_cons, ih, mem_insertBy, List.mem_cons]
    tauto

theorem mem_sortBy {α : Type} {lt : α → α → Bool} {x : α} {l : List α} : x ∈ sortBy lt l ↔ x ∈ l := by
  rw [sortBy, mem_foldl_insertBy]
  simp

theorem foldl_ringPut_irq (slot : SlotNo) (step : StepNo) (l : List EvRec) (r : RingBlock) :
    (l.foldl (ringPut slot step) r).irqErr = (r.irqErr || l.any fun e => e.sev == 1) ∧
      (l.foldl (ringPut slot step) r).irqFatal = (r.irqFatal || l.any fun e => e.sev == 2) := by
  induction l generalizing r with
  | nil => simp
  | cons e l ih =>
    obtain ⟨herr, hfatal⟩ := ih (ringPut slot step r e)
    exact ⟨by simp [herr, Bool.or_assoc], by simp [hfatal, Bool.or_assoc]⟩

/-- An error event of a command sets the error interrupt at the command's end. -/
theorem finish_irqErr {s : State} {e : EvRec} (he : e ∈ s.js.ring.evq) (hs : e.sev = 1) : s.finish.js.ring.irqErr = true := by
  rw [finish_eq_withRing]
  refine (foldl_ringPut_irq ..).1.trans (Bool.or_eq_true_iff.mpr (.inr (List.any_eq_true.mpr ⟨e, mem_sortBy.mpr he, ?_⟩)))
  rw [hs]; rfl

/-- A fatal event of a command sets the fatal interrupt at the command's end. -/
theorem finish_irqFatal {s : State} {e : EvRec} (he : e ∈ s.js.ring.evq) (hs : e.sev = 2) :
    s.finish.js.ring.irqFatal = true := by
  rw [finish_eq_withRing]
  refine (foldl_ringPut_irq ..).2.trans (Bool.or_eq_true_iff.mpr (.inr (List.any_eq_true.mpr ⟨e, mem_sortBy.mpr he, ?_⟩)))
  rw [hs]; rfl

theorem event_mem (s : State) (source code sev : Nat) (items : List EvItem) :
    (⟨source, code, sev, items⟩ : EvRec) ∈ (s.event source code sev items).js.ring.evq :=
  List.mem_append_right _ List.mem_cons_self

end Sys2Proof.Machine
end

section
namespace Sys2Proof.Machine

/-! ### Doorbells -/

theorem wrDbRing_refused {s : State} {port : Mgmt} {v : W32} (hl : s.listening = true) (hd : v.toNat % 4096 = 0) :
    s.wrDbRing port v = s.refuse port 0x010040 4 := by
  rw [State.wrDbRing, guarded_of_listening _ _ _ hl, hd]
  rfl

theorem wrDbRing_plain {s : State} {port : Mgmt} {v : W32} (hl : s.listening = true) (h0 : v.toNat % 4096 ≠ 0)
    (hd : v.toNat % 4096 < 4080 ∨ 4084 ≤ v.toNat % 4096) : s.wrDbRing port v = (s.ring (v.toNat % 4096)).ok port := by
  rw [State.wrDbRing, guarded_of_listening _ _ _ hl]
  exact (if_neg h0).trans (if_neg (by omega))

theorem wrDbRing_offload {s : State} {port : Mgmt} {v : W32} (hl : s.listening = true) (h1 : 4080 ≤ v.toNat % 4096)
    (h2 : v.toNat % 4096 < 4084) :
    s.wrDbRing port v = ((s.ring (v.toNat % 4096)).ok port).offTry (v.toNat % 4096 - 4020) := by
  have hn : 60 + (v.toNat % 4096 - 4080) = v.toNat % 4096 - 4020 := by omega
  rw [State.wrDbRing, guarded_of_listening _ _ _ hl]
  refine (if_neg (by omega)).trans ((if_pos ⟨h1, h2⟩).trans ?_)
  rw [hn]

theorem wrModeReq_listening {s : State} {port : Mgmt} {v : W32} (hl : s.listening = true) :
    s.wrModeReq port v = (({ s with jq := { s.jq with variantReq := v.getLsbD 0 } } : State).ring 0).ok port := by
  rw [State.wrModeReq, guarded_of_listening _ _ _ hl]

/-- Settles O10, by what the two registers' writes do where accesses are served. -/
theorem doorbellsCount : Obligations.DoorbellsCount := by
  intro s port v hl
  refine ⟨fun h0 hd => ?_, fun h1 h2 => ?_, fun hd => ?_, ?_⟩
  · exact does_run (fun s => s.wrDbRing port v) rfl (wrDbRing_plain hl h0 hd)
  · exact does_run (fun s => s.wrDbRing port v) rfl (wrDbRing_offload hl h1 h2)
  · exact does_run (fun s => s.wrDbRing port v) rfl (wrDbRing_refused hl hd)
  · exact does_run (fun s => s.wrModeReq port v) rfl (wrModeReq_listening hl)

/-! ### SLOT_COMPLETION_CHECK -/

/-- What a completion check leaves where nothing but the units' reports can slip the next slot (R15, R31). -/
theorem completionCheck_calm {s : State} {reports : List Incomplete} (hr : s.inReset = false) (hh : s.jp.holding = [])
    (hm : s.jg.tiles.remap = []) (hs : s.jq.remapSlot = false) (ht : s.jg.twin.diverged = none) :
    s.completionCheck reports =
      (let causes := reports.map s.slipCause
       let s := s.stallStep (reports.map fun r => r.unit.toNat)
       let s := { s with pins := { s.pins with stepDone := false }, jm := { s.jm with lateRef := [] } }
       if causes.isEmpty then { s with jq := { s.jq with slipEnd := s.jq.run.or s.jq.slipEnd, run := none } }
       else
         let cause := causes.foldl min 3
         (if cause = 3 && causes.contains 3 then s.fault else s).slipNext cause false) := by
  have hd : s.rampDefer = s := by simp [State.rampDefer, hh]
  simp only [State.completionCheck, hr, hd, hh, hm, hs, ht, List.isEmpty_nil, Bool.not_true, Bool.or_false, Bool.false_eq_true,
    if_false, List.append_nil, Bool.not_false, Bool.and_true]

theorem slipCause_le (s : State) (r : Incomplete) : s.slipCause r ≤ 3 := by
  have key : ∀ link ref : Bool, (if link then 1 else if ref then 2 else 3) ≤ 3 := by decide
  exact key _ _

/-- A fault is the slot's cause only where one of the units has it. -/
theorem mem_of_foldl_min {l : List Nat} {n : Nat} (hl : l ≠ []) (h : ∀ x ∈ l, x ≤ n) (hm : l.foldl min n = n) : n ∈ l := by
  obtain ⟨m, hmin⟩ := Option.isSome_iff_exists.mp (List.isSome_min?_of_ne_nil hl)
  have hmem : m ∈ l := List.min?_mem hmin
  have hle : n ≤ m := by
    rw [List.foldl_min, hmin] at hm
    exact min_eq_left_iff.mp hm
  rwa [Nat.le_antisymm hle (h m hmem)]

theorem fault_slip_contains {s : State} {reports : List Incomplete} (hne : reports ≠ [])
    (hc : (reports.map s.slipCause).foldl min 3 = 3) : (reports.map s.slipCause).contains 3 = true := by
  refine List.contains_iff_mem.mpr (mem_of_foldl_min (by simpa using hne) (fun x hx => ?_) hc)
  obtain ⟨r, -, rfl⟩ := List.mem_map.mp hx
  exact slipCause_le s r

theorem completionCheck_complete {s : State} (hr : s.inReset = false) (hh : s.jp.holding = [])
    (hm : s.jg.tiles.remap = []) (hs : s.jq.remapSlot = false) (ht : s.jg.twin.diverged = none) (hn : s.jq.slipping = false) :
    s.completionCheck [] =
      { s with jq := { s.jq with slipCount := 0, slipEnd := s.jq.run.or s.jq.slipEnd, run := none },
               pins := { s.pins with stepDone := false }, jm := { s.jm with lateRef := [] } } := by
  have hstall : s.stallStep [] = { s with jq := { s.jq with slipCount := 0 } } := by simp [State.stallStep, hn]
  rw [completionCheck_calm hr hh hm hs ht]
  simp only [List.map_nil, hstall]
  rfl

theorem completionCheck_slips {s : State} {reports : List Incomplete} (hr : s.inReset = false) (hh : s.jp.holding = [])
    (hm : s.jg.tiles.remap = []) (hs : s.jq.remapSlot = false) (ht : s.jg.twin.diverged = none) (hn : s.jq.slipping = false)
    (hne : reports ≠ []) {c : Nat} (hc : (reports.map s.slipCause).foldl min 3 = c) :
    s.completionCheck reports =
      { s with jq := { s.jq with slipCount := 0, forceSlip := true,
                                 verdict := { s.jq.verdict with fault := s.jq.verdict.fault || c == 3 },
                                 run := match s.jq.run with
                                   | none => some ⟨c, s.jq.slot + 1, 1, false⟩
                                   | some r => if r.cause = c then some { r with length := r.length + 1 }
                                     else some ⟨c, s.jq.slot + 1, 1, false⟩,
                                 slipEnd := match s.jq.run with
                                   | none => s.jq.slipEnd
                                   | some r => if r.cause = c then s.jq.slipEnd else some r },
               pins := { s.pins with stepDone := false }, jm := { s.jm with lateRef := [] } } := by
  have hstall : s.stallStep (reports.map fun r => r.unit.toNat) = { s with jq := { s.jq with slipCount := 0 } } := by
    simp [State.stallStep, hn]
  have hsome : (reports.map s.slipCause).isEmpty = false := by simpa using hne
  rw [completionCheck_calm hr hh hm hs ht, hstall]
  simp only [hsome, hc, Bool.false_eq_true, if_false]
  have hfault (u : State) : (if c = 3 && (reports.map s.slipCause).contains 3 then u.fault else u) =
      u.setVerdict fun v => { v with fault := v.fault || c == 3 } := by
    by_cases h3 : c = 3
    · have hcont := fault_slip_contains hne (hc.trans h3)
      simp only [h3, hcont, decide_true, Bool.and_self, if_true, beq_self_eq_true, Bool.or_true, State.fault]
    · simp only [h3, decide_false, Bool.false_and, Bool.false_eq_true, if_false, beq_false_of_ne h3, Bool.or_false]
      rfl
  rw [hfault]
  simp only [State.slipNext, State.setVerdict]
  cases s.jq.run with
  | none => rfl
  | some r =>
    by_cases hrc : r.cause = c
    · simp [hrc]
    · simp [hrc]

theorem slipNext_keeps (s : State) (cause : Nat) (remap : Bool) :
    (s.slipNext cause remap).js = s.js ∧ (s.slipNext cause remap).jq.slipCount = s.jq.slipCount ∧
      (s.slipNext cause remap).jq.verdict = s.jq.verdict := by
  unfold State.slipNext
  split
  · exact ⟨rfl, rfl, rfl⟩
  · split <;> exact ⟨rfl, rfl, rfl⟩

/-- The slot that brings the run of slipped slots to the limit (R32). -/
theorem completionCheck_stalls {s : State} {reports : List Incomplete} (hr : s.inReset = false) (hh : s.jp.holding = [])
    (hm : s.jg.tiles.remap = []) (hs : s.jq.remapSlot = false) (ht : s.jg.twin.diverged = none) (hn : s.jq.slipping = true)
    (hlim : s.jq.slipCount + 1 = s.jq.slipLimit.toNat) :
    ∃ items, (s.completionCheck reports).js = (s.event 0x3F 0x0105 1 items).js ∧
      (s.completionCheck reports).jq.slipCount = s.jq.slipLimit.toNat ∧
      (s.completionCheck reports).jq.verdict.fault = true := by
  have hstall : ∃ items, s.stallStep (reports.map fun r => r.unit.toNat) =
      (({ s with jq := { s.jq with slipCount := s.jq.slipCount + 1 } } : State).event 0x3F 0x0105 1 items).fault := by
    simp only [State.stallStep, hn, Bool.not_true, Bool.false_eq_true, if_false, hlim, ne_eq, not_true_eq_false]
    exact ⟨_, rfl⟩
  obtain ⟨items, hstall⟩ := hstall
  refine ⟨items, ?_⟩
  rw [completionCheck_calm hr hh hm hs ht, hstall]
  dsimp only
  split
  · exact ⟨rfl, hlim, rfl⟩
  · refine ⟨?_, ?_, ?_⟩
    · rw [(slipNext_keeps ..).1]
      split <;> rfl
    · rw [(slipNext_keeps ..).2.1]
      split <;> exact hlim
    · rw [(slipNext_keeps ..).2.2]
      split <;> rfl

/-- Settles O8: `completionCheck_complete`, `completionCheck_slips` and `completionCheck_stalls`, whose EV_STALL is the
command's only event. -/
theorem completionCheckSlipsTheSlot : Obligations.CompletionCheckSlipsTheSlot := by
  refine ⟨fun s reports hr hh hm hs ht hn => ⟨fun he => ?_, fun hne => ?_⟩,
    fun s reports hr hh hm hs ht hn hlim hin => ?_⟩
  · subst he
    exact does_run (fun s => s.completionCheck []) rfl (completionCheck_complete (s := s.begin_) hr hh hm hs ht hn)
  · exact does_run (fun s => s.completionCheck reports) rfl (completionCheck_slips (s := s.begin_) hr hh hm hs ht hn hne rfl)
  · obtain ⟨items, hjs, hcount, hfault⟩ := completionCheck_stalls (s := s.begin_) (reports := reports) hr hh hm hs ht hn hlim
    have hring := finish_ring_of_one (evq_of_eventsIn hin) (congrArg JsBlock.ring hjs)
    refine exec_run (fun s => s.completionCheck reports) rfl ⟨hfault, hcount, ?_, ?_⟩
    · exact congrArg (Option.map EvEntry.code) (newest_of_ringPut hring)
    · exact (congrArg RingBlock.irqErr hring).trans (Bool.or_true _)

end Sys2Proof.Machine
end

section
/-!
What the shared operations leave alone: a request to a memory port drives the port or waits for a tag (R292, R293).
-/

namespace Sys2Proof.Machine

/-- A measure of the state that each step of a fold keeps is kept by the fold. -/
theorem foldl_view {σ α β : Type} {g : σ → β} {f : σ → α → σ} (h : ∀ s a, g (f s a) = g s) (l : List α) (s : σ) :
    g (l.foldl f s) = g s := by
  induction l generalizing s with
  | nil => rfl
  | cons a l ih => exact (ih (f s a)).trans (h s a)

/-- The state without what is driven, and without the requests that the memory ports hold. -/
def State.noPorts (s : State) : State := { s with out := [], jm := { s.jm with asked := [], waiting := [] } }

section

variable (s : State)

@[simp] theorem emit_noPorts (o : Output) : (s.emit o).noPorts = s.noPorts := by rfl

@[simp] theorem driveReq_noPorts (r : PortReq) (tag : BitVec 9) : (s.driveReq r tag).noPorts = s.noPorts := by
  unfold State.driveReq
  dsimp only
  split
  · rw [foldl_view fun _ _ => emit_noPorts ..]
    rfl
  · rfl

@[simp] theorem request_noPorts (r : PortReq) : (s.request r).noPorts = s.noPorts := by
  unfold State.request
  dsimp only
  split
  · rfl
  · split
    · exact driveReq_noPorts ..
    · rfl

@[simp] theorem freePort_noPorts (p : MemPort) (tag : BitVec 9) : (s.freePort p tag).noPorts = s.noPorts := by
  unfold State.freePort
  dsimp only
  split
  · rfl
  · split
    · rfl
    · exact (driveReq_noPorts ..).trans rfl

@[simp] theorem portRead_noPorts (unit chan : Nat) (sp : Bool) (a n : Nat) :
    (s.portRead unit chan sp a n).noPorts = s.noPorts :=
  foldl_view (fun _ _ => request_noPorts ..) _ s

@[simp] theorem portWrite_noPorts (unit chan : Nat) (sp : Bool) (a : Nat) (b : List Byte) :
    (s.portWrite unit chan sp a b).noPorts = s.noPorts :=
  foldl_view (fun _ _ => request_noPorts ..) _ s

/-- A write to host memory, apart from the ports. -/
theorem hostWrite_noPorts (unit a : Nat) (b : List Byte) :
    (s.hostWrite unit a b).noPorts = { s with hostMem := memWrite s.hostMem a b }.noPorts :=
  congrArg (fun u : State => { u with hostMem := memWrite s.hostMem a b }) (portWrite_noPorts s unit 0 false a b)

/-- A write to the state tier, apart from the ports. -/
theorem stateWrite_noPorts (unit a : Nat) (b : List Byte) :
    (s.stateWrite unit a b).noPorts = { s with stateMem := memWrite s.stateMem a b }.noPorts :=
  congrArg (fun u : State => { u with stateMem := memWrite s.stateMem a b }) (portWrite_noPorts s unit 0 true a b)

end

/-! ### The ring at the end of a command (R347) -/

/-- The code of the entry written last, when a command recorded one event. -/
theorem newest_code_of_one {u : State} {r : RingBlock} {e : EvRec} (hr : r.evq = [])
    (h : u.js.ring = { r with evq := r.evq ++ [e] }) : u.finish.newest.map EvEntry.code = some (BitVec.ofNat 16 e.code) :=
  congrArg (Option.map EvEntry.code) (newest_of_ringPut (finish_ring_of_one hr h))

/-- A command that records no event leaves the ring. -/
theorem finish_ring_of_none {u : State} (h : u.js.ring.evq = []) : u.finish.js.ring = u.js.ring := by
  rw [finish_eq_withRing, h]
  show { u.js.ring with evq := [] } = u.js.ring
  rw [← h]

end Sys2Proof.Machine
end

section
/-!
What sending over the peer links leaves alone: it changes the two directions of a port, the staging buffers and what is driven.
-/

namespace Sys2Proof.Machine

/-- A port without its two directions. -/
def PeerPort.still (q : PeerPort) : PeerPort := { q with rx := PortRx.reset, tx := PortTx.reset }

/-- The state without the traffic of the memory ports and the peer links, and without what is staged for them. -/
def State.calm (s : State) : State :=
  { s.noPorts with jl := { s.jl with ports := s.jl.ports.map PeerPort.still }, jx := { s.jx with stage := [] } }

theorem map_modifyNth_of_eq {α β : Type} {g : α → β} {f : α → α} (h : ∀ a, g (f a) = g a) (n : Nat) (l : List α) :
    (modifyNth f n l).map g = l.map g := by
  induction l generalizing n with
  | nil => cases n <;> rfl
  | cons a l ih =>
    cases n with
    | zero => exact congrArg (· :: l.map g) (h a)
    | succ n => exact congrArg (g a :: ·) (ih n)

theorem calm_of_noPorts {s t : State} (h : t.noPorts = s.noPorts) : t.calm = s.calm :=
  congrArg (fun u : State => { u with jl := { u.jl with ports := u.jl.ports.map PeerPort.still },
                                      jx := { u.jx with stage := [] } }) h

theorem setPort_calm (s : State) (p : Nat) {f : PeerPort → PeerPort} (h : ∀ q, (f q).still = q.still) :
    (s.setPort p f).calm = s.calm :=
  congrArg (fun l : List PeerPort => { s.calm with jl := { s.jl with ports := l } }) (map_modifyNth_of_eq h p s.jl.ports)

/-- The part of a port that traffic leaves alone. -/
theorem still_of_ports {s t : State} (h : t.jl.ports.map PeerPort.still = s.jl.ports.map PeerPort.still) (p : Nat) :
    (t.port p).still = (s.port p).still := by
  have hg (u : State) : (u.port p).still = (u.jl.ports.map PeerPort.still).getD p PeerPort.reset.still :=
    (List.getD_map ..).symm
  rw [hg, hg, h]

/-- What traffic leaves alone, block by block. -/
theorem calm_fields {s t : State} (h : t.calm = s.calm) :
    t.jg = s.jg ∧ t.jq = s.jq ∧ t.ji = s.ji ∧ t.jz = s.jz ∧ t.jk = s.jk ∧ t.ju = s.ju ∧
    t.je = s.je ∧ t.jc = s.jc ∧ t.js = s.js ∧ t.jp = s.jp ∧ t.jt = s.jt ∧ t.tiles = s.tiles ∧
    t.nvm = s.nvm ∧ t.fuses = s.fuses ∧ t.imageHdr = s.imageHdr ∧ t.image = s.image ∧ t.live = s.live ∧ t.hostMem = s.hostMem ∧
    t.stateMem = s.stateMem ∧ t.scratch = s.scratch ∧ t.staging = s.staging ∧ t.ethBuf = s.ethBuf ∧ t.pins = s.pins ∧ t.freeCnt = s.freeCnt ∧
    t.pending = s.pending := by
  repeat' apply And.intro
  exacts [(congrArg State.jg h :), (congrArg State.jq h :), (congrArg State.ji h :), (congrArg State.jz h :), (congrArg State.jk h :), (congrArg State.ju h :), (congrArg State.je h :), (congrArg State.jc h :), (congrArg State.js h :), (congrArg State.jp h :), (congrArg State.jt h :), (congrArg State.tiles h :), (congrArg State.nvm h :), (congrArg State.fuses h :), (congrArg State.imageHdr h :), (congrArg State.image h :), (congrArg State.live h :), (congrArg State.hostMem h :), (congrArg State.stateMem h :), (congrArg State.scratch h :), (congrArg State.staging h :), (congrArg State.ethBuf h :), (congrArg State.pins h :), (congrArg State.freeCnt h :), (congrArg State.pending h :)]

section

variable (s : State)

@[simp] theorem emit_calm (o : Output) : (s.emit o).calm = s.calm := calm_of_noPorts (emit_noPorts ..)

@[simp] theorem portRead_calm (unit chan : Nat) (sp : Bool) (a n : Nat) :
    (s.portRead unit chan sp a n).calm = s.calm := calm_of_noPorts (portRead_noPorts ..)

@[simp] theorem driveFrame_calm (p typ vc : Nat) (first last : Bool) (fseq : W16) (payload : List Byte) (eof : Nat)
    (atBlock : Bool) : (s.driveFrame p typ vc first last fseq payload eof atBlock).calm = s.calm :=
  (emit_calm ..).trans (setPort_calm s p fun _ => rfl)

@[simp] theorem sendCtl_calm (p typ payload : Nat) : (s.sendCtl p typ payload).calm = s.calm :=
  driveFrame_calm ..

@[simp] theorem grantCredit_calm (p vc : Nat) : (s.grantCredit p vc).calm = s.calm :=
  (sendCtl_calm ..).trans (setPort_calm s p fun _ => rfl)

@[simp] theorem stageTake_calm (f : StageBuf → Bool) : (s.stageTake f).calm = s.calm := by rfl

@[simp] theorem freeChunk_calm (c : RxChunk) : (s.freeChunk c).calm = s.calm :=
  (grantCredit_calm ..).trans (stageTake_calm ..)

@[simp] theorem cellFree_calm (port : Nat) : (s.cellFree port).calm = s.calm := grantCredit_calm ..

@[simp] theorem sendData_calm (p vc : Nat) : (s.sendData p vc).calm = s.calm := by
  unfold State.sendData
  dsimp only
  split
  · rfl
  · rw [setPort_calm _ _ (by exact fun _ => rfl)]
    split
    · exact (stageTake_calm ..).trans (driveFrame_calm ..)
    · exact driveFrame_calm ..

@[simp] theorem pumpN_calm (p n : Nat) : (State.pumpN p n s).calm = s.calm := by
  induction n generalizing s with
  | zero => rfl
  | succ n ih =>
    rw [State.pumpN]
    split
    · rfl
    · exact (ih _).trans ((sendData_calm ..).trans (setPort_calm s p fun _ => rfl))

@[simp] theorem pump_calm (p : Nat) : (s.pump p).calm = s.calm := pumpN_calm ..

@[simp] theorem queueItem_calm (p vc : Nat) (bytes : List Byte) : (s.queueItem p vc bytes).calm = s.calm :=
  (pump_calm ..).trans (setPort_calm s p fun _ => rfl)

@[simp] theorem takeAck_calm (p : Nat) (h : FrameHdr) : (s.takeAck p h).calm = s.calm := by
  unfold State.takeAck
  split
  · exact (pump_calm ..).trans (setPort_calm s p fun _ => rfl)
  · rfl

@[simp] theorem passCopy_calm (p : Nat) (h : CopyHdr) (data : List Byte) (crc : W64) :
    (s.passCopy p h data crc).calm = s.calm :=
  (foldl_view (fun s _ => queueItem_calm s ..) _ _).trans (emit_calm ..)

@[simp] theorem takePieces_calm : s.takePieces.calm = s.calm := by
  refine foldl_view (g := State.calm) (fun s p => ?_) _ s
  exact (foldl_view (fun s _ => grantCredit_calm s ..) _ _).trans (setPort_calm s p fun _ => rfl)

@[simp] theorem emptyPorts_calm : s.emptyPorts.calm = s.calm := by
  refine foldl_view (g := State.calm) (fun s p => ?_) _ s
  exact (foldl_view (fun s _ => grantCredit_calm s ..) _ _).trans (setPort_calm s p fun _ => rfl)

end

end Sys2Proof.Machine
end

section
namespace Sys2Proof.Machine

/-! ### Answers -/

/-- What `respond` leaves. -/
@[simp] theorem respond_fields (s : State) (port : Mgmt) (code : Nat) (data : W32) :
    (s.respond port code data).jg = s.jg ∧ (s.respond port code data).jq = s.jq ∧ (s.respond port code data).ji = s.ji ∧
    (s.respond port code data).jx = s.jx ∧ (s.respond port code data).jz = s.jz ∧ (s.respond port code data).jk = s.jk ∧
    (s.respond port code data).ju = s.ju ∧ (s.respond port code data).jl = s.jl ∧ (s.respond port code data).je = s.je ∧
    (s.respond port code data).jm = s.jm ∧ (s.respond port code data).jc = s.jc ∧ (s.respond port code data).jp = s.jp ∧
    (s.respond port code data).jt = s.jt ∧ (s.respond port code data).tiles = s.tiles ∧
    (s.respond port code data).nvm = s.nvm ∧ (s.respond port code data).fuses = s.fuses ∧
    (s.respond port code data).imageHdr = s.imageHdr ∧ (s.respond port code data).image = s.image ∧
    (s.respond port code data).live = s.live ∧ (s.respond port code data).hostMem = s.hostMem ∧
    (s.respond port code data).stateMem = s.stateMem ∧ (s.respond port code data).staging = s.staging ∧
    (s.respond port code data).out = s.out ∧ (s.respond port code data).js.lock = s.js.lock ∧
    (s.respond port code data).js.cmd = s.js.cmd ∧ (s.respond port code data).js.boot = s.js.boot ∧
    (s.respond port code data).js.ring = s.js.ring ∧ (s.respond port code data).js.restarting = s.js.restarting := by
  cases port <;> (repeat' apply And.intro) <;> rfl

@[simp] theorem response_respond (s : State) (port : Mgmt) (code : Nat) (data : W32) :
    (s.respond port code data).response port = ⟨BitVec.ofNat 3 code, data⟩ := by
  cases port <;> rfl

/-- What the start of a command leaves, and what it writes (R342). -/
@[simp] theorem starts_fields (s : State) (port : Mgmt) (code : Nat) :
    (s.starts port code).jg = s.jg ∧ (s.starts port code).jq = s.jq ∧ (s.starts port code).ji = s.ji ∧
    (s.starts port code).jx = s.jx ∧ (s.starts port code).jz = s.jz ∧ (s.starts port code).jk = s.jk ∧
    (s.starts port code).ju = s.ju ∧ (s.starts port code).jl = s.jl ∧ (s.starts port code).je = s.je ∧
    (s.starts port code).jm = s.jm ∧ (s.starts port code).jc = s.jc ∧ (s.starts port code).jp = s.jp ∧
    (s.starts port code).jt = s.jt ∧ (s.starts port code).tiles = s.tiles ∧ (s.starts port code).nvm = s.nvm ∧
    (s.starts port code).fuses = s.fuses ∧ (s.starts port code).imageHdr = s.imageHdr ∧
    (s.starts port code).image = s.image ∧ (s.starts port code).live = s.live ∧
    (s.starts port code).hostMem = s.hostMem ∧ (s.starts port code).stateMem = s.stateMem ∧
    (s.starts port code).staging = s.staging ∧ (s.starts port code).out = s.out ∧
    (s.starts port code).js.lock = s.js.lock ∧ (s.starts port code).js.boot = s.js.boot ∧
    (s.starts port code).js.ring = s.js.ring ∧ (s.starts port code).js.restarting = s.js.restarting ∧
    (s.starts port code).js.cmd = { s.js.cmd with busy := true, code := BitVec.ofNat 8 code, latched := s.js.cmd.args,
                                                  outcome := none, port := port == Mgmt.sm, bytes := 0 } := by
  simp [State.starts, State.ok]

@[simp] theorem response_starts (s : State) (port : Mgmt) (code : Nat) : (s.starts port code).response port = ⟨0, 0⟩ :=
  response_respond ..

@[simp] theorem arg_starts (s : State) (port : Mgmt) (code n : Nat) : (s.starts port code).arg n = s.argNow n := by
  simp [State.arg, State.argNow]

@[simp] theorem bootSeq_starts (s : State) (port : Mgmt) (code : Nat) : (s.starts port code).bootSeq = s.bootSeq := by
  simp [State.bootSeq]

/-! ### The order of the answers to a write to `JS_CMD` (R342) -/

theorem giveCmd_of_busy {s : State} (port : Mgmt) (code : Nat) (allowed : Bool) (f : State → State) (hl : s.listening = true)
    (hb : s.js.cmd.busy = true) : s.giveCmd port code allowed f = s.refuse port 0x0B0010 1 := by
  rw [State.giveCmd, guarded_of_listening _ _ _ hl]
  exact if_pos hb

theorem giveCmd_of_unlocked {s : State} (port : Mgmt) {code : Nat} (allowed : Bool) (f : State → State)
    (hl : s.listening = true) (hb : s.js.cmd.busy = false) (hc : code ≠ 1) (hk : s.holdsLock port = false) :
    s.giveCmd port code allowed f = s.refuse port 0x0B0010 3 := by
  rw [State.giveCmd, guarded_of_listening _ _ _ hl]
  simp [hb, hc, hk]

/-- A command that the port may give starts; then it ends with STATE, or runs. -/
theorem giveCmd_starts {s : State} (port : Mgmt) {code : Nat} (allowed : Bool) (f : State → State)
    (hl : s.listening = true) (hb : s.js.cmd.busy = false) (hk : code = 1 ∨ s.holdsLock port = true) :
    s.giveCmd port code allowed f =
      if (s.js.boot.state == 6 && !safeAccepts code) || !allowed then (s.starts port code).result 2
      else f (s.starts port code) := by
  rw [State.giveCmd, guarded_of_listening _ _ _ hl]
  have hk' : ¬(code ≠ 1 ∧ (!s.holdsLock port) = true) := by
    rintro ⟨h1, h2⟩
    rcases hk with h | h
    · exact h1 h
    · simp [h] at h2
  dsimp only
  rw [if_neg (by simp [hb]), if_neg hk']
  have hboot : (s.starts port code).js.boot = s.js.boot := by simp
  show (if ((s.starts port code).js.boot.state == 6 && !safeAccepts code) || !allowed then (s.starts port code).result 2
    else f (s.starts port code)) = _
  rw [hboot]

theorem giveCmd_of_mayGive {s : State} {port : Mgmt} {code : Nat} {allowed : Bool} (f : State → State)
    (h : s.mayGive port code = true) (ha : allowed = true) : s.giveCmd port code allowed f = f (s.starts port code) := by
  simp only [State.mayGive, Bool.and_eq_true, Bool.or_eq_true, beq_iff_eq, bne_iff_ne, Bool.not_eq_true'] at h
  obtain ⟨⟨⟨hl, hb⟩, hk⟩, hs⟩ := h
  rw [giveCmd_starts port allowed f hl hb hk]
  refine if_neg ?_
  rcases hs with hs | hs
  · rw [beq_false_of_ne hs, ha]
    exact Bool.false_ne_true
  · simp [hs, ha]

/-- Every row of the command table is a write to `JS_CMD` with the row's code and its condition. -/
theorem exec_cmdTable (good : Bool) (file : SxiFile) : ∀ k ∈ cmdTable good file, ∃ f : State → State,
    ∀ port s, exec (k.cmd port) s = run (fun s => s.giveCmd port k.code (k.allowed s) f) s := by
  simp only [cmdTable, List.forall_mem_cons]
  exact ⟨⟨_, fun _ _ => rfl⟩, ⟨_, fun _ _ => rfl⟩, ⟨_, fun _ _ => rfl⟩, ⟨_, fun _ _ => rfl⟩, ⟨_, fun _ _ => rfl⟩,
    ⟨_, fun _ _ => rfl⟩, ⟨_, fun _ _ => rfl⟩, ⟨_, fun _ _ => rfl⟩, ⟨_, fun _ _ => rfl⟩, ⟨_, fun _ _ => rfl⟩,
    ⟨_, fun _ _ => rfl⟩, ⟨_, fun _ _ => rfl⟩, ⟨_, fun _ _ => rfl⟩, ⟨_, fun _ _ => rfl⟩, ⟨_, fun _ _ => rfl⟩,
    ⟨_, fun _ _ => rfl⟩, ⟨_, fun _ _ => rfl⟩, ⟨_, fun _ _ => rfl⟩, ⟨_, fun _ _ => rfl⟩, fun _ h => absurd h List.not_mem_nil⟩

theorem allowed_begin (good : Bool) (file : SxiFile) : ∀ k ∈ cmdTable good file, ∀ s : State, k.allowed s.begin_ = k.allowed s := by
  intro k hk s
  have hall : (cmdTable good file).map (fun k => k.allowed s.begin_) = (cmdTable good file).map fun k => k.allowed s := rfl
  exact List.map_inj_left.mp hall k hk

theorem wrCmdArg_of_busy {s : State} (port : Mgmt) (i : Nat) (v : W32) (hl : s.listening = true) (hb : s.js.cmd.busy = true) :
    s.wrCmdArg port i v = s.refuse port (0x0B0020 + 4 * i) 1 := by
  rw [State.wrCmdArg, guarded_of_listening _ _ _ hl]
  exact if_pos hb

theorem wrCmdArg_of_idle {s : State} (port : Mgmt) (i : Nat) (v : W32) (hl : s.listening = true) (hb : s.js.cmd.busy = false) :
    s.wrCmdArg port i v = if s.holdsLock port then
      ({ s with js := { s.js with cmd := { s.js.cmd with args := modifyNth (fun _ => v) i s.js.cmd.args } } } : State).ok port
      else s.refuse port (0x0B0020 + 4 * i) 3 := by
  rw [State.wrCmdArg, guarded_of_listening _ _ _ hl]
  dsimp only
  rw [if_neg (by simp [hb])]
  cases s.holdsLock port <;> rfl

/-- Settles O51, by the order of the answers in `giveCmd` and the rows of the command table. -/
theorem commandsAreAnsweredInOrder : Obligations.CommandsAreAnsweredInOrder := by
  intro s port hl
  refine ⟨fun good file k hk => ?_, fun index v => ⟨fun hb => ?_, fun hb hk => ?_, fun hb hk => ?_⟩⟩
  · obtain ⟨f, hf⟩ := exec_cmdTable good file k hk
    refine ⟨fun hb => ?_, fun hb hc hlock => ?_, fun hb hlock hno => ?_⟩
    · exact does_run _ (hf port s) (giveCmd_of_busy port k.code _ f hl hb)
    · exact does_run _ (hf port s) (giveCmd_of_unlocked port _ f hl hb hc hlock)
    · refine does_run _ (hf port s) ((giveCmd_starts (s := s.begin_) port _ f hl hb hlock).trans (if_pos ?_))
      rw [allowed_begin good file k hk]
      rcases hno with ⟨h6, hs⟩ | ha
      · exact Bool.or_eq_true_iff.mpr (.inl (by simp [h6, hs]))
      · simp [ha]
  · exact does_run (fun s => s.wrCmdArg port index.toNat v) rfl (wrCmdArg_of_busy port _ v hl hb)
  · exact does_run (fun s => s.wrCmdArg port index.toNat v) rfl
      ((wrCmdArg_of_idle (s := s.begin_) port _ v hl hb).trans (if_neg (ne_true_of_eq_false hk)))
  · exact does_run (fun s => s.wrCmdArg port index.toNat v) rfl
      ((wrCmdArg_of_idle (s := s.begin_) port _ v hl hb).trans (if_pos hk))

/-! ### What the ends of commands leave -/

/-- What the end of a command leaves and what it writes (R342). -/
@[simp] theorem cmdDone_fields (s : State) (r : BitVec 3) :
    (s.cmdDone r).jg = s.jg ∧ (s.cmdDone r).jq = s.jq ∧ (s.cmdDone r).ji = s.ji ∧ (s.cmdDone r).jx = s.jx ∧
    (s.cmdDone r).jc = s.jc ∧ (s.cmdDone r).live = s.live ∧ (s.cmdDone r).nvm = s.nvm ∧ (s.cmdDone r).fuses = s.fuses ∧
    (s.cmdDone r).js.lock = s.js.lock ∧ (s.cmdDone r).js.boot = s.js.boot ∧
    (s.cmdDone r).js.restarting = s.js.restarting ∧
    (s.cmdDone r).js.cmd = { s.js.cmd with busy := false, result := r, done := s.js.cmd.done + 1, outcome := none } := by
  unfold State.cmdDone
  dsimp only
  split <;> split <;> (repeat' apply And.intro) <;> rfl

theorem mem_evq_cmdDone {s : State} {r : BitVec 3} {e : EvRec} (h : e ∈ s.js.ring.evq) : e ∈ (s.cmdDone r).js.ring.evq := by
  unfold State.cmdDone
  dsimp only
  have hev (u : State) (hu : e ∈ u.js.ring.evq) (source code sev : Nat) (items : List EvItem) :
      e ∈ (u.event source code sev items).js.ring.evq := List.mem_append_left _ hu
  split <;> split
  · exact hev _ (hev _ h ..) ..
  · exact hev _ h ..
  · exact hev _ h ..
  · exact h

/-! ### Staging (R321, R346) -/

/-- What staging tables does: the staged copy is filled, and STAGED waits for the XT writes that fill the expanders'. -/
theorem stage_effect {s : State} (t : LiveTables) (hs : s.jg.epoch.staged = false) :
    (s.stage t).live = { s.live with staged := some t } ∧ (s.stage t).jq = s.jq ∧
      (s.stage t).jg.epoch.current = s.jg.epoch.current ∧ (s.stage t).jg.tiles = s.jg.tiles ∧
      ((s.stage t).jg.epoch.staged = true → (s.stage t).js.cmd.outcome = some 0) ∧
      ((s.stage t).jg.epoch.staged = false → (s.stage t).jc.xtDue ≠ []) := by
  unfold State.stage
  dsimp only
  split
  next hx =>
    refine ⟨rfl, rfl, rfl, rfl, fun h => absurd (hs.symm.trans h) Bool.false_ne_true, fun _ hnil => ?_⟩
    have hwords : xtTableWords t.prefixes = [] := hnil
    simp [hwords, State.xtDiffers] at hx
  next => exact ⟨rfl, rfl, rfl, rfl, fun _ => rfl, fun h => absurd h.symm Bool.false_ne_true⟩

theorem noneStaged_iff {s : State} : s.noneStaged = true ↔ s.jg.epoch.staged = false ∧ s.live.staged = none := by
  simp [State.noneStaged]

/-- Steps 2 to 5 of R346 with tables that are all live and pass the checks. -/
theorem swapFrom_stages {s : State} {f : SxiFile}
    (hlive : ((swapTypes (s.arg 1)).all fun x =>
      (entryOf f.entries x ((s.arg 2).toNat % 8)).any fun m => m.live && m.hashOk) = true)
    (hcheck : ((swapTypes (s.arg 1)).all fun x =>
      liveCheck s.img ((swapTypes (s.arg 1)).foldl (s.takeTable f ((s.arg 2).toNat % 8)) s.live.cur) x) = true) :
    s.swapFrom f = s.stage ((swapTypes (s.arg 1)).foldl (s.takeTable f ((s.arg 2).toNat % 8)) s.live.cur) := by
  have hentry : ∀ x ∈ swapTypes (s.arg 1), ∃ m, entryOf f.entries x ((s.arg 2).toNat % 8) = some m ∧
      m.live = true ∧ m.hashOk = true := by
    intro x hx
    have hany := List.all_eq_true.mp hlive x hx
    cases hm : entryOf f.entries x ((s.arg 2).toNat % 8) with
    | none => simp [hm] at hany
    | some m => exact ⟨m, rfl, by simpa [hm] using hany⟩
  have hall : (((swapTypes (s.arg 1)).map fun t => entryOf f.entries t ((s.arg 2).toNat % 8)).all
      fun m => (m.map ManEntry.live) == some true) = true := by
    rw [List.all_map, List.all_eq_true]
    intro x hx
    obtain ⟨m, hm, hl, -⟩ := hentry x hx
    simp [hm, hl]
  have hhash : ((((swapTypes (s.arg 1)).map fun t => entryOf f.entries t ((s.arg 2).toNat % 8)).filterMap id).all
      ManEntry.hashOk) = true := by
    rw [List.all_eq_true]
    intro m hm
    simp only [List.mem_filterMap, List.mem_map, id] at hm
    obtain ⟨_, ⟨x, hx, rfl⟩, hxm⟩ := hm
    obtain ⟨m', hm', -, hh⟩ := hentry x hx
    cases hm'.symm.trans hxm
    exact hh
  rw [State.swapFrom]
  dsimp only
  rw [hall, hhash, hcheck]
  rfl

theorem swapFrom_refuses {s : State} {f : SxiFile}
    (hlive : ((swapTypes (s.arg 1)).all fun x => (entryOf f.entries x ((s.arg 2).toNat % 8)).any ManEntry.live) = false) :
    s.swapFrom f = s.result 1 := by
  have hnot : (((swapTypes (s.arg 1)).map fun t => entryOf f.entries t ((s.arg 2).toNat % 8)).all
      fun m => (m.map ManEntry.live) == some true) = false := by
    rw [List.all_map, ← hlive]
    congr 1
    funext x
    show ((entryOf f.entries x _).map ManEntry.live == some true) = _
    cases entryOf f.entries x ((s.arg 2).toNat % 8) with
    | none => rfl
    | some m => cases hm : m.live <;> simp [hm]
  rw [State.swapFrom]
  dsimp only
  rw [hnot]
  rfl

theorem liveSwap_running {s : State} {f : SxiFile} (hf : s.nvm.bank ((s.arg 0).getLsbD 0) = some f)
    (hb : (s.arg 0).getLsbD 0 = s.js.boot.bank) : s.liveSwap true = s.swapFrom f := by
  rw [State.liveSwap]
  dsimp only
  rw [hf, hb]
  exact if_pos (beq_self_eq_true _)

/-! ### The commands over images (R330, R343, R346) -/

theorem imageWrite_good {s : State} (f : SxiFile) (hlen : (s.arg 2).toNat ≤ 100663296) (hseq : s.bootSeq ≠ 2 ^ 64 - 2) :
    s.imageWrite (some f) true = { s with
      nvm := (if (s.arg 3).getLsbD 0 then s.nvm.setRecord (!s.js.boot.cr) erasedRecord else s.nvm).setBank
        (!s.js.boot.bank) (some f) } := by
  rw [State.imageWrite]
  dsimp only
  rw [if_neg (Nat.not_lt.mpr hlen), if_neg (fun h => hseq (beq_iff_eq.mp (Bool.and_eq_true_iff.mp h).2)), if_pos rfl]
  cases (s.arg 3).getLsbD 0 <;> rfl

theorem commandComplete_of_outcome {s : State} {r : BitVec 3} (hb : s.js.cmd.busy = true) (hd : s.js.restarting = false)
    (hr : s.inReset = false) (ho : s.js.cmd.outcome = some r) : s.commandComplete = s.cmdDone r := by
  simp [State.commandComplete, hb, hd, hr, ho]

/-- IMAGE_COMMIT of a bank that does not read back well. -/
theorem commandComplete_of_bad_bank {s : State} {f : SxiFile} (hb : s.js.cmd.busy = true) (hd : s.js.restarting = false)
    (hr : s.inReset = false) (ho : s.js.cmd.outcome = none) (hc : s.js.cmd.code = 10)
    (hf : s.nvm.bank (!s.js.boot.bank) = some f) (hbad : f.readBackOk s.fuses = false) : s.commandComplete = s.cmdDone 3 := by
  have h : stagingCommand 10 = false := rfl
  have hn : s.js.cmd.code.toNat = 10 := by rw [hc]; rfl
  simp [State.commandComplete, State.imageStages, hb, hd, hr, ho, hn, h, hf, hbad]

/-! ### LIVE_SWAP, UNSTAGE, IMAGE_WRITE and IMAGE_COMMIT as they are given -/

section

variable {s : State} {port : Mgmt}

theorem cmdLiveSwap_running {f : SxiFile} (hg : s.mayGive port 4 = true) (hl : s.loaded = true) (hn : s.noneStaged = true)
    (hf : s.nvm.bank ((s.argNow 0).getLsbD 0) = some f) (hb : (s.argNow 0).getLsbD 0 = s.js.boot.bank) :
    s.cmdLiveSwap port true = (s.starts port 4).swapFrom f := by
  rw [State.cmdLiveSwap, giveCmd_of_mayGive _ hg (by rw [hl, hn]; rfl)]
  refine liveSwap_running ?_ ?_
  · simpa only [arg_starts, starts_fields] using hf
  · simpa only [arg_starts, starts_fields] using hb

theorem cmdLiveSwap_stages {f : SxiFile} (hg : s.mayGive port 4 = true) (hl : s.loaded = true) (hn : s.noneStaged = true)
    (hf : s.nvm.bank ((s.argNow 0).getLsbD 0) = some f) (hb : (s.argNow 0).getLsbD 0 = s.js.boot.bank)
    (hlive : ((swapTypes (s.argNow 1)).all fun x =>
      (entryOf f.entries x ((s.argNow 2).toNat % 8)).any fun m => m.live && m.hashOk) = true)
    (hcheck : ((swapTypes (s.argNow 1)).all fun x =>
      liveCheck s.img ((swapTypes (s.argNow 1)).foldl (s.takeTable f ((s.argNow 2).toNat % 8)) s.live.cur) x) = true) :
    s.cmdLiveSwap port true =
      (s.starts port 4).stage ((swapTypes (s.argNow 1)).foldl (s.takeTable f ((s.argNow 2).toNat % 8)) s.live.cur) := by
  have htake : (s.starts port 4).takeTable f ((s.argNow 2).toNat % 8) = s.takeTable f ((s.argNow 2).toNat % 8) := by
    funext t typ
    simp only [State.takeTable, starts_fields]
  have himg : (s.starts port 4).img = s.img := by simp only [State.img, starts_fields]
  rw [cmdLiveSwap_running hg hl hn hf hb]
  have hstage := swapFrom_stages (s := s.starts port 4) (f := f)
  simp only [arg_starts, htake, himg, starts_fields] at hstage
  exact hstage hlive hcheck

theorem cmdLiveSwap_refuses {f : SxiFile} (hg : s.mayGive port 4 = true) (hl : s.loaded = true) (hn : s.noneStaged = true)
    (hf : s.nvm.bank ((s.argNow 0).getLsbD 0) = some f) (hb : (s.argNow 0).getLsbD 0 = s.js.boot.bank)
    (hlive : ((swapTypes (s.argNow 1)).all fun x =>
      (entryOf f.entries x ((s.argNow 2).toNat % 8)).any ManEntry.live) = false) :
    s.cmdLiveSwap port true = (s.starts port 4).result 1 := by
  rw [cmdLiveSwap_running hg hl hn hf hb]
  exact swapFrom_refuses (by simpa only [arg_starts] using hlive)

theorem cmdUnstage_staged (hg : s.mayGive port 5 = true) (hst : s.jg.epoch.staged = true) :
    s.cmdUnstage port = (s.starts port 5).unstageAll.result 0 := by
  rw [State.cmdUnstage, giveCmd_of_mayGive _ hg hst]

theorem cmdImageWrite_good (f : SxiFile) (hg : s.mayGive port 9 = true) (hlen : (s.argNow 2).toNat ≤ 100663296)
    (hseq : s.bootSeq ≠ 2 ^ 64 - 2) :
    s.cmdImageWrite port (some f) true = { s.starts port 9 with
      nvm := (if (s.argNow 3).getLsbD 0 then s.nvm.setRecord (!s.js.boot.cr) erasedRecord else s.nvm).setBank
        (!s.js.boot.bank) (some f) } := by
  rw [State.cmdImageWrite, giveCmd_of_mayGive _ hg rfl,
    imageWrite_good f (by simpa only [arg_starts] using hlen) (by simpa only [bootSeq_starts] using hseq)]
  simp only [arg_starts, starts_fields]

theorem cmdImageCommit_running (hg : s.mayGive port 10 = true) (hb : (s.argNow 0).getLsbD 0 = s.js.boot.bank) :
    s.cmdImageCommit port true = (s.starts port 10).result 1 := by
  rw [State.cmdImageCommit, giveCmd_of_mayGive _ hg rfl, State.imageCommit]
  simp only [arg_starts, starts_fields, hb, beq_self_eq_true, if_true]

theorem cmdImageCommit_other (hg : s.mayGive port 10 = true) (hseq : s.bootSeq ≠ 2 ^ 64 - 2)
    (hb : (s.argNow 0).getLsbD 0 ≠ s.js.boot.bank) :
    s.cmdImageCommit port true = { s.starts port 10 with nvm := s.nvm.setRecord (!s.js.boot.cr) erasedRecord } := by
  rw [State.cmdImageCommit, giveCmd_of_mayGive _ hg rfl, State.imageCommit]
  simp only [arg_starts, bootSeq_starts, starts_fields, beq_false_of_ne hb, Bool.false_eq_true, if_false, if_neg hseq, if_true,
    State.eraseCopy]

end

/-- Settles O53: LIVE_SWAP is `cmdLiveSwap_stages` with `stage_effect`, or `cmdLiveSwap_refuses`; COMMAND_COMPLETE is
`commandComplete_of_outcome`, and what it does of a good or a bad bank. -/
theorem imagesAreWrittenAndSwapped : Obligations.ImagesAreWrittenAndSwapped := by
  intro s port
  refine ⟨fun f hg hl hn hf hb => ⟨fun hlive hcheck => ?_, fun hlive => ?_⟩, fun hg hst => ?_, fun f hg hlen hseq => ?_,
    fun hg hseq => ⟨fun hb => ?_, fun hb => ?_⟩, fun hb hd hr => ⟨fun r ho => ?_, fun f ho hc hf => ?_⟩⟩
  · have heq := cmdLiveSwap_stages (s := s.begin_) hg hl hn hf hb hlive hcheck
    obtain ⟨hst, hnone⟩ := noneStaged_iff.mp hn
    have hst' : (s.begin_.starts port 4).jg.epoch.staged = false := by simpa using hst
    obtain ⟨hlv, hjq, hcur, -, hdone, hdue⟩ := stage_effect
      ((swapTypes (s.argNow 1)).foldl (s.takeTable f ((s.argNow 2).toNat % 8)) s.live.cur) hst'
    simp only [starts_fields] at hlv hjq hcur
    refine exec_run (fun s => s.cmdLiveSwap port true) rfl ?_
    rw [heq]
    exact ⟨(congrArg LiveSet.cur hlv).trans rfl, (congrArg LiveSet.prev hlv).trans rfl, (congrArg LiveSet.staged hlv).trans rfl,
      hcur, hjq, hdone, hdue⟩
  · exact does_run (fun s => s.cmdLiveSwap port true) rfl (cmdLiveSwap_refuses (s := s.begin_) hg hl hn hf hb hlive)
  · refine exec_run (fun s => s.cmdUnstage port) rfl ?_
    rw [cmdUnstage_staged (s := s.begin_) hg hst]
    have hlive : (s.begin_.starts port 5).live = s.live := by simp
    exact ⟨rfl, congrArg (fun l : LiveSet => { l with staged := none }) hlive, rfl⟩
  · exact does_run (fun s => s.cmdImageWrite port (some f) true) rfl (cmdImageWrite_good (s := s.begin_) f hg hlen hseq)
  · exact does_run (fun s => s.cmdImageCommit port true) rfl (cmdImageCommit_running (s := s.begin_) hg hb)
  · exact does_run (fun s => s.cmdImageCommit port true) rfl (cmdImageCommit_other (s := s.begin_) hg hseq hb)
  · refine exec_run State.commandComplete rfl ?_
    rw [commandComplete_of_outcome (s := s.begin_) hb hd hr ho]
    obtain ⟨-, hjq, -, -, -, -, hnvm, -, -, -, -, hcmd⟩ := cmdDone_fields s.begin_ r
    exact ⟨congrArg CmdBlock.busy hcmd, congrArg CmdBlock.result hcmd, congrArg CmdBlock.done hcmd, hnvm, hjq⟩
  · refine exec_run State.commandComplete rfl ?_
    cases hgood : f.readBackOk s.fuses with
    | true =>
      rw [commandComplete_of_good_bank (s := s.begin_) hb hd hr ho hc hf hgood]
      obtain ⟨-, -, -, -, -, -, hnvm, -, -, -, -, hcmd⟩ := cmdDone_fields { s.begin_ with
        nvm := s.nvm.setRecord (!s.js.boot.cr) (CommitRec.mk (!s.js.boot.bank) (s.bootSeq + 1) f.imageLen f.mhash).pack } 0
      exact ⟨congrArg CmdBlock.busy hcmd, fun _ => ⟨congrArg CmdBlock.result hcmd, hnvm⟩, fun h => absurd h.symm Bool.false_ne_true⟩
    | false =>
      rw [commandComplete_of_bad_bank (s := s.begin_) hb hd hr ho hc hf hgood]
      obtain ⟨-, -, -, -, -, -, hnvm, -, -, -, -, hcmd⟩ := cmdDone_fields s.begin_ 3
      exact ⟨congrArg CmdBlock.busy hcmd, fun h => absurd h Bool.false_ne_true, fun _ => ⟨congrArg CmdBlock.result hcmd, hnvm⟩⟩

/-! ### The admission maps (R358–R361) -/

section

variable {s : State} {port : Mgmt}

theorem noneStaged_of_mapAllowed (h : s.mapAllowed = true) (hq : s.jq.quiesced = false) : s.noneStaged = true := by
  simp [State.mapAllowed, State.restful, hq] at h
  exact h.2

theorem argTiles_starts (code : Nat) : (s.starts port code).argTiles =
    BitVec.ofNat 48 ((s.argNow 0).toNat + (s.argNow 1).toNat % 65536 * 2 ^ 32) := by
  simp only [State.argTiles, arg_starts]

theorem tilesExist_starts (code : Nat) (m : BitVec 48) (h : m.toNat < 2 ^ gradeTiles s.js.boot.grade.toNat) :
    (s.starts port code).tilesExist m = true := by
  simp only [State.tilesExist, starts_fields, decide_eq_true h]

/-- A map change in a quiesced block is made at once, and otherwise staged (R358). -/
theorem changeMap_starts (code : Nat) (now : State → State) (staged : LiveTables → LiveTables) :
    (s.starts port code).changeMap now staged =
      if s.jq.quiesced then (now (s.starts port code)).result 0 else (s.starts port code).stage (staged s.live.cur) := by
  simp only [State.changeMap, starts_fields]

/-- A staged map change of a command that starts: the staged copy holds it, and the maps in force stay. -/
theorem stage_starts (code : Nat) (x : LiveTables) (h : s.mapAllowed = true) (hq : s.jq.quiesced = false) :
    ((s.starts port code).stage x).live.staged = some x ∧ ((s.starts port code).stage x).live.cur = s.live.cur ∧
      ((s.starts port code).stage x).jg.tiles = s.jg.tiles := by
  obtain ⟨hst, -⟩ := noneStaged_iff.mp (noneStaged_of_mapAllowed h hq)
  obtain ⟨hlv, -, -, htiles, -⟩ := stage_effect (s := s.starts port code) x (by simpa only [starts_fields] using hst)
  simp only [starts_fields] at hlv htiles
  exact ⟨(congrArg LiveSet.staged hlv).trans rfl, (congrArg LiveSet.cur hlv).trans rfl, htiles⟩

/-- TILE_RETIRE of tiles that the grade has (R359). -/
theorem cmdTileRetire_effect {m : BitVec 48}
    (hm : m = BitVec.ofNat 48 ((s.argNow 0).toNat + (s.argNow 1).toNat % 65536 * 2 ^ 32)) (hg : s.mayGive port 0x20 = true)
    (ha : s.mapAllowed = true) (hex : m.toNat < 2 ^ gradeTiles s.js.boot.grade.toNat) :
    s.cmdTileRetire port =
      if (List.range 48).any fun q => m.getLsbD q && (s.jg.tiles.change m 0).phys.getD q 3 == 0 then
        (s.starts port 0x20).result 2
      else if s.jq.quiesced then ((s.starts port 0x20).changeTiles m 0).result 0
      else (s.starts port 0x20).stage { s.live.cur with tileRetire := m, tileAdmit := 0 } := by
  rw [State.cmdTileRetire, giveCmd_of_mayGive _ hg ha, State.tileRetire]
  simp only [argTiles_starts, ← hm, tilesExist_starts _ _ hex, changeMap_starts, starts_fields, Bool.not_true, Bool.false_eq_true,
    if_false]

/-- TILE_ADMIT of tiles that the grade has (R360). -/
theorem cmdTileAdmit_effect {m : BitVec 48}
    (hm : m = BitVec.ofNat 48 ((s.argNow 0).toNat + (s.argNow 1).toNat % 65536 * 2 ^ 32)) (hg : s.mayGive port 0x22 = true)
    (ha : s.mapAllowed = true) (hex : m.toNat < 2 ^ gradeTiles s.js.boot.grade.toNat) :
    s.cmdTileAdmit port =
      if (List.range 48).any fun q => m.getLsbD q && (s.jg.tiles.phys.getD q 0 == 0 || !s.jg.tiles.tested.getLsbD q) then
        (s.starts port 0x22).result 2
      else if s.jq.quiesced then ((s.starts port 0x22).changeTiles 0 m).result 0
      else (s.starts port 0x22).stage { s.live.cur with tileRetire := 0, tileAdmit := m } := by
  rw [State.cmdTileAdmit, giveCmd_of_mayGive _ hg ha, State.tileAdmit]
  simp only [argTiles_starts, ← hm, tilesExist_starts _ _ hex, changeMap_starts, starts_fields, Bool.not_true, Bool.false_eq_true,
    if_false]

/-- TILE_TEST of a tile that the grade has (R360). -/
theorem cmdTileTest_effect (good : Bool) {p : Nat} (hp : p = (s.argNow 0).toNat % 64) (hg : s.mayGive port 0x21 = true)
    (hex : p < gradeTiles s.js.boot.grade.toNat) :
    s.cmdTileTest port good =
      if s.jg.tiles.phys.getD p 0 = 0 then (s.starts port 0x21).result 2
      else ({ s.starts port 0x21 with jg := { s.jg with tiles := { s.jg.tiles with
        tested := if good then s.jg.tiles.tested ||| BitVec.ofNat 48 (2 ^ p) else s.jg.tiles.tested &&& ~~~BitVec.ofNat 48 (2 ^ p) } } } :
          State).result (if good then 0 else 3) := by
  rw [State.cmdTileTest, giveCmd_of_mayGive _ hg rfl, State.tileTest]
  simp only [arg_starts, ← hp, starts_fields, decide_eq_true hex, Bool.not_true, Bool.false_eq_true, if_false]

theorem cmdPortRetire_effect (hg : s.mayGive port 0x23 = true) (ha : s.mapAllowed = true) :
    s.cmdPortRetire port =
      if s.jq.quiesced then ({ s.starts port 0x23 with live := { s.live with cur := { s.live.cur with
        portAdmit := s.live.cur.portAdmit &&& ~~~(s.argNow 0).setWidth 8 } } } : State).result 0
      else (s.starts port 0x23).stage { s.live.cur with portAdmit := s.live.cur.portAdmit &&& ~~~(s.argNow 0).setWidth 8 } := by
  rw [State.cmdPortRetire, giveCmd_of_mayGive _ hg ha, State.setAdmit]
  simp only [State.argPorts, arg_starts, changeMap_starts, starts_fields]

/-- PORT_ADMIT (R361). -/
theorem cmdPortAdmit_effect (hg : s.mayGive port 0x24 = true) (ha : s.mapAllowed = true) :
    s.cmdPortAdmit port =
      if (List.range 8).any fun q => ((s.argNow 0).setWidth 8 : BitVec 8).getLsbD q && !((s.port q).state == 4 || (s.port q).state == 5) then
        (s.starts port 0x24).result 2
      else if s.jq.quiesced then ({ s.starts port 0x24 with live := { s.live with cur := { s.live.cur with
        portAdmit := s.live.cur.portAdmit ||| (s.argNow 0).setWidth 8 } } } : State).result 0
      else (s.starts port 0x24).stage { s.live.cur with portAdmit := s.live.cur.portAdmit ||| (s.argNow 0).setWidth 8 } := by
  rw [State.cmdPortAdmit, giveCmd_of_mayGive _ hg ha, State.portAdmit]
  simp only [State.argPorts, State.setAdmit, State.port, arg_starts, changeMap_starts, starts_fields]

end

theorem gradeTiles_le (grade : Nat) : gradeTiles grade ≤ 48 := by
  unfold gradeTiles
  split
  · decide
  · split <;> decide

/-- A bit set or cleared by its mask reads back. -/
theorem getLsbD_setBit {w : Nat} (x : BitVec w) {p : Nat} (hp : p < w) (good : Bool) :
    (if good then x ||| BitVec.ofNat w (2 ^ p) else x &&& ~~~BitVec.ofNat w (2 ^ p)).getLsbD p = good := by
  have hbit : (BitVec.ofNat w (2 ^ p)).getLsbD p = true := by
    rw [BitVec.getLsbD_ofNat, Nat.testBit_two_pow_self, decide_eq_true hp]
    rfl
  generalize BitVec.ofNat w (2 ^ p) = bit at hbit ⊢
  cases good
  · simp only [Bool.false_eq_true, if_false, BitVec.getLsbD_and, BitVec.getLsbD_not, hbit, Bool.not_true, Bool.and_false]
  · simp only [if_true, BitVec.getLsbD_or, hbit, Bool.or_true]

theorem portsUp_iff {s : State} {m : BitVec 8} :
    (∀ q, q < 8 → m.getLsbD q = true → (s.port q).state = 4 ∨ (s.port q).state = 5) ↔
      ((List.range 8).any fun q => m.getLsbD q && !((s.port q).state == 4 || (s.port q).state == 5)) = false := by
  rw [List.any_eq_false]
  refine forall_congr' fun q => ?_
  rw [List.mem_range]
  refine imp_congr_right fun _ => ?_
  cases m.getLsbD q <;> simp [or_iff_not_imp_left]

/-- Settles O54, by what each of the five commands does when it is given. -/
theorem admissionMapsChange : Obligations.AdmissionMapsChange := by
  intro s port args m ports p staged keeps tested
  refine ⟨fun hg ha hex => ⟨fun hk hq => ?_, fun hk hq => ?_, fun hk => ?_⟩, fun good hg hex => ⟨fun hp => ?_, fun hp => ?_⟩,
    fun hg ha hex => ⟨fun hk hq => ?_, fun hk hq => ?_, fun hk => ?_⟩, fun hg ha => ⟨fun hq => ?_, fun hq => ?_⟩,
    fun hg ha => ⟨fun hu hq => ?_, fun hu hq => ?_, fun hu => ?_⟩⟩
  · exact does_run (fun s => s.cmdTileRetire port) rfl ((cmdTileRetire_effect (s := s.begin_) rfl hg ha hex).trans
      ((if_neg (ne_true_of_eq_false hk)).trans (if_pos hq)))
  · refine exec_run (fun s => s.cmdTileRetire port) rfl ?_
    rw [(cmdTileRetire_effect (s := s.begin_) rfl hg ha hex).trans
      ((if_neg (ne_true_of_eq_false hk)).trans (if_neg (ne_true_of_eq_false hq)))]
    exact stage_starts (s := s.begin_) _ _ ha hq
  · exact does_run (fun s => s.cmdTileRetire port) rfl ((cmdTileRetire_effect (s := s.begin_) rfl hg ha hex).trans
      (if_pos (Bool.eq_true_of_not_eq_false hk)))
  · exact does_run (fun s => s.cmdTileTest port good) rfl ((cmdTileTest_effect (s := s.begin_) good rfl hg hex).trans (if_pos hp))
  · refine exec_run (fun s => s.cmdTileTest port good) rfl ?_
    rw [(cmdTileTest_effect (s := s.begin_) good rfl hg hex).trans (if_neg hp)]
    refine ⟨getLsbD_setBit _ (Nat.lt_of_lt_of_le hex (gradeTiles_le _)) good, rfl, ?_⟩
    cases good <;> rfl
  · exact does_run (fun s => s.cmdTileAdmit port) rfl ((cmdTileAdmit_effect (s := s.begin_) rfl hg ha hex).trans
      ((if_neg (ne_true_of_eq_false hk)).trans (if_pos hq)))
  · refine exec_run (fun s => s.cmdTileAdmit port) rfl ?_
    rw [(cmdTileAdmit_effect (s := s.begin_) rfl hg ha hex).trans
      ((if_neg (ne_true_of_eq_false hk)).trans (if_neg (ne_true_of_eq_false hq)))]
    exact stage_starts (s := s.begin_) _ _ ha hq
  · exact does_run (fun s => s.cmdTileAdmit port) rfl ((cmdTileAdmit_effect (s := s.begin_) rfl hg ha hex).trans
      (if_pos (Bool.eq_true_of_not_eq_false hk)))
  · exact does_run (fun s => s.cmdPortRetire port) rfl ((cmdPortRetire_effect (s := s.begin_) hg ha).trans (if_pos hq))
  · refine exec_run (fun s => s.cmdPortRetire port) rfl ?_
    rw [(cmdPortRetire_effect (s := s.begin_) hg ha).trans (if_neg (ne_true_of_eq_false hq))]
    exact stage_starts (s := s.begin_) _ _ ha hq
  · exact does_run (fun s => s.cmdPortAdmit port) rfl ((cmdPortAdmit_effect (s := s.begin_) hg ha).trans
      ((if_neg (ne_true_of_eq_false (portsUp_iff.mp hu))).trans (if_pos hq)))
  · refine exec_run (fun s => s.cmdPortAdmit port) rfl ?_
    rw [(cmdPortAdmit_effect (s := s.begin_) hg ha).trans
      ((if_neg (ne_true_of_eq_false (portsUp_iff.mp hu))).trans (if_neg (ne_true_of_eq_false hq)))]
    exact stage_starts (s := s.begin_) _ _ ha hq
  · exact does_run (fun s => s.cmdPortAdmit port) rfl ((cmdPortAdmit_effect (s := s.begin_) hg ha).trans
      (if_pos (Bool.eq_true_of_not_eq_false fun h => hu (portsUp_iff.mpr h))))

/-! ### The service lock (R344, R345, R352) -/

section

variable {s : State} {port : Mgmt} {v : W32}

/-- An operation on the lock with OWNER 0 (R344). -/
theorem wrLock_ownerless (hl : s.listening = true) (hop : (v.getLsbD 8 || v.getLsbD 9 || v.getLsbD 10) = true)
    (ho : (v.setWidth 8 : Byte) = 0) : s.wrLock port v = s.refuse port 0x0B0044 4 := by
  rw [State.wrLock, guarded_of_listening _ _ _ hl]
  dsimp only
  rw [hop, ho]
  rfl

/-- The first of TAKE, RENEW and RELEASE that a write with a non-zero OWNER names. -/
theorem wrLock_owned (hl : s.listening = true) (ho : (v.setWidth 8 : Byte) ≠ 0) :
    s.wrLock port v =
      if v.getLsbD 8 then s.lockTake port (v.setWidth 8)
      else if v.getLsbD 9 then s.lockRenew port (v.setWidth 8)
      else if v.getLsbD 10 then s.lockRelease port (v.setWidth 8)
      else (s.setLock fun l => { l with tag := v.setWidth 8 }).ok port := by
  rw [State.wrLock, guarded_of_listening _ _ _ hl]
  dsimp only
  rw [beq_false_of_ne ho, Bool.and_false]
  exact if_neg Bool.false_ne_true

theorem wrLease_effect (hl : s.listening = true) :
    s.wrLease port v =
      if s.js.lock.held && !s.holdsLock port then s.refuse port 0x0B0048 3
      else if v.toNat % 65536 < 10 ∨ 60000 < v.toNat % 65536 then s.refuse port 0x0B0048 4
      else (s.setLock fun l => { l with lease := BitVec.ofNat 16 (v.toNat % 65536) }).ok port := by
  rw [State.wrLease, guarded_of_listening _ _ _ hl]
  rfl

end

theorem lease_mine {s : State} {port : Mgmt} (h : s.js.lock.held = false ∨ s.holdsLock port = true) :
    (s.js.lock.held && !s.holdsLock port) = false := by
  rcases h with h | h <;> simp [h]

/-- What the end of a lease does to a held lock (R345): the lock is free, nothing stays staged, EV_LEASE is recorded, and a
command that uses the flash or waits for its staged copy ends with ABORTED. -/
theorem leaseEnds_effect {s : State} (hr : s.inReset = false) (hh : s.js.lock.held = true) :
    s.leaseEnds.js.lock = { s.js.lock with held := false, remain := 0 } ∧ s.leaseEnds.live = { s.live with staged := none } ∧
      (∃ e ∈ s.leaseEnds.js.ring.evq, e.sev = 1) ∧
      s.leaseEnds.js.cmd = if s.js.cmd.busy && (s.js.cmd.code.toNat == 4 || s.js.cmd.code.toNat == 9 || s.js.cmd.code.toNat == 10 ||
          (stagingCommand s.js.cmd.code.toNat && s.js.cmd.outcome.isNone))
        then { s.js.cmd with busy := false, result := 6, done := s.js.cmd.done + 1, outcome := none } else s.js.cmd := by
  unfold State.leaseEnds
  rw [if_neg (by rw [hh, hr]; exact Bool.false_ne_true)]
  extract_lets l c code abort staged s1 s2 s3
  have hlock : s3.js = s2.js := by
    show (if staged then s2.unstageAll else s2 : State).js = _
    split <;> rfl
  have hlive : s3.live = { s.live with staged := none } := by
    show (if staged then s2.unstageAll else s2 : State).live = _
    split
    next => rfl
    next h =>
      have hnone : s.live.staged = none := by simpa [staged] using h
      show s.live = _
      rw [← hnone]
  have hev := event_mem s1 0x4D 0x0B04 1
    [i1 (b2n l.port), i1 l.owner.toNat, i1 (if abort then code else 0), i1 (b2n staged)]
  have hmem : ∃ e ∈ s3.js.ring.evq, e.sev = 1 := ⟨_, hlock ▸ hev, rfl⟩
  have hcmd : s3.js.cmd = s.js.cmd := by rw [hlock]; rfl
  have hlk : s3.js.lock = { s.js.lock with held := false, remain := 0 } := by rw [hlock]; rfl
  clear_value s3
  show (if abort then s3.cmdDone 6 else s3).js.lock = _ ∧ _ ∧ _ ∧ _ = if abort then _ else _
  cases abort with
  | true =>
    obtain ⟨e, he, hs⟩ := hmem
    simp only [if_true, cmdDone_fields, hlk, hlive, hcmd]
    exact ⟨rfl, rfl, ⟨e, mem_evq_cmdDone he, hs⟩, rfl⟩
  | false => exact ⟨hlk, hlive, hmem, hcmd⟩

/-- Settles O56: a write to `JS_LOCK` is `wrLock_ownerless` or `wrLock_owned`, one to `JS_LOCK_LEASE` is `wrLease_effect`,
and the end of a lease is `leaseEnds_effect`. -/
theorem theServiceLockIsHeld : Obligations.TheServiceLockIsHeld := by
  intro s port v owner l mine take renew release sets locked
  refine ⟨fun hl ho => ⟨fun ht => ?_, fun hn => ?_, fun hr => ?_⟩, fun hl ho => ⟨fun ht hfree => ?_, fun ht hh hm => ?_,
    fun hn => ⟨fun hm => ?_, fun hm => ?_⟩, fun hr => ⟨fun hm => ?_, fun hm => ?_⟩⟩, fun hr hh => ?_,
    fun hl => ⟨fun hh hk => ?_, fun hk => ⟨fun hn => ?_, fun hlo hhi => ?_⟩⟩⟩
  · refine does_run (fun s => if v.getLsbD 8 then s.wrLock port v else s) rfl ((if_pos ht).trans (wrLock_ownerless (s := s.begin_) hl ?_ ho))
    rw [show v.getLsbD 8 = true from ht]; rfl
  · obtain ⟨h8, h9⟩ := hn
    refine does_run (fun s => if !v.getLsbD 8 && v.getLsbD 9 then s.wrLock port v else s) rfl
      ((if_pos ?_).trans (wrLock_ownerless (s := s.begin_) hl ?_ ho)) <;> rw [h8, h9] <;> rfl
  · obtain ⟨h8, h9, h10⟩ := hr
    refine does_run (fun s => if !v.getLsbD 8 && !v.getLsbD 9 && v.getLsbD 10 then s.wrLock port v else s) rfl
      ((if_pos ?_).trans (wrLock_ownerless (s := s.begin_) hl ?_ ho)) <;> rw [h8, h9, h10] <;> rfl
  · refine does_run (fun s => if v.getLsbD 8 then s.wrLock port v else s) rfl
      ((if_pos ht).trans ((wrLock_owned (s := s.begin_) hl ho).trans ((if_pos ht).trans (if_pos ?_))))
    rcases hfree with hfree | hm
    · exact Bool.or_eq_true_iff.mpr (.inl (by rw [show s.begin_.js.lock.held = false from hfree]; rfl))
    · exact Bool.or_eq_true_iff.mpr (.inr hm)
  · refine does_run (fun s => if v.getLsbD 8 then s.wrLock port v else s) rfl
      ((if_pos ht).trans ((wrLock_owned (s := s.begin_) hl ho).trans ((if_pos ht).trans (if_neg ?_))))
    rw [show s.begin_.js.lock.held = true from hh]
    exact ne_true_of_eq_false hm
  · obtain ⟨h8, h9⟩ := hn
    exact does_run (fun s => if !v.getLsbD 8 && v.getLsbD 9 then s.wrLock port v else s) rfl
      ((if_pos (by rw [h8, h9]; rfl)).trans ((wrLock_owned (s := s.begin_) hl ho).trans
        ((if_neg (ne_true_of_eq_false h8)).trans ((if_pos h9).trans (if_pos hm)))))
  · obtain ⟨h8, h9⟩ := hn
    exact does_run (fun s => if !v.getLsbD 8 && v.getLsbD 9 then s.wrLock port v else s) rfl
      ((if_pos (by rw [h8, h9]; rfl)).trans ((wrLock_owned (s := s.begin_) hl ho).trans
        ((if_neg (ne_true_of_eq_false h8)).trans ((if_pos h9).trans (if_neg (ne_true_of_eq_false hm))))))
  · obtain ⟨h8, h9, h10⟩ := hr
    exact does_run (fun s => if !v.getLsbD 8 && !v.getLsbD 9 && v.getLsbD 10 then s.wrLock port v else s) rfl
      ((if_pos (by rw [h8, h9, h10]; rfl)).trans ((wrLock_owned (s := s.begin_) hl ho).trans
        ((if_neg (ne_true_of_eq_false h8)).trans ((if_neg (ne_true_of_eq_false h9)).trans ((if_pos h10).trans (if_pos hm))))))
  · obtain ⟨h8, h9, h10⟩ := hr
    exact does_run (fun s => if !v.getLsbD 8 && !v.getLsbD 9 && v.getLsbD 10 then s.wrLock port v else s) rfl
      ((if_pos (by rw [h8, h9, h10]; rfl)).trans ((wrLock_owned (s := s.begin_) hl ho).trans
        ((if_neg (ne_true_of_eq_false h8)).trans ((if_neg (ne_true_of_eq_false h9)).trans ((if_pos h10).trans
          (if_neg (ne_true_of_eq_false hm)))))))
  · obtain ⟨hlock, hlive, ⟨e, he, hs⟩, hcmd⟩ := leaseEnds_effect (s := s.begin_) hr hh
    refine exec_run State.leaseEnds rfl ⟨congrArg LockBlock.held hlock, congrArg LockBlock.remain hlock,
      (congrArg LiveSet.staged hlive).trans rfl, (congrArg LiveSet.cur hlive).trans rfl, finish_irqErr he hs,
      fun hb hc => ?_, fun hno => hcmd.trans (if_neg ?_)⟩
    · have habort : (s.js.cmd.busy && (s.js.cmd.code.toNat == 4 || s.js.cmd.code.toNat == 9 || s.js.cmd.code.toNat == 10 ||
          (stagingCommand s.js.cmd.code.toNat && s.js.cmd.outcome.isNone))) = true := by
        rcases hc with hc | hc | hc <;> rw [hb, hc] <;> rfl
      have hdone := hcmd.trans (if_pos habort)
      exact ⟨congrArg CmdBlock.busy hdone, congrArg CmdBlock.result hdone⟩
    · have hcode (n : Nat) (hn : n ∈ [2, 3, 6, 7, 8, 0x25, 0x26, 0x27]) (o : Bool) :
          (n == 4 || n == 9 || n == 10 || (stagingCommand n && o)) = false := by
        revert n o
        decide
      rcases hno with hb | hc
      · rw [show s.begin_.js.cmd.busy = false from hb]
        exact Bool.false_ne_true
      · exact ne_true_of_eq_false ((congrArg (s.js.cmd.busy && ·) (hcode _ hc _)).trans (Bool.and_false _))
  · refine does_run (fun s => s.wrLease port v) rfl ((wrLease_effect (s := s.begin_) hl).trans (if_pos ?_))
    rw [show s.begin_.js.lock.held = true from hh, show s.begin_.holdsLock port = false from hk]
    rfl
  · exact does_run (fun s => s.wrLease port v) rfl
      ((wrLease_effect (s := s.begin_) hl).trans ((if_neg (ne_true_of_eq_false (lease_mine hk))).trans (if_pos hn)))
  · exact does_run (fun s => s.wrLease port v) rfl
      ((wrLease_effect (s := s.begin_) hl).trans ((if_neg (ne_true_of_eq_false (lease_mine hk))).trans (if_neg (by omega))))

end Sys2Proof.Machine
end

section
namespace Sys2Proof.Machine

/-! ### Accesses to registers (R336, R381, R382) -/

/-! ### How a write answers (R336, R381) -/

theorem rwl_of_unlocked {s : State} {port : Mgmt} {offset : Nat} {changes inRange : Bool} {f : State → State}
    (hc : changes = true) (hk : s.holdsLock port = false) : s.rwl port offset changes inRange f = s.refuse port offset 3 := by
  simp [State.rwl, hc, hk]

theorem rwl_of_running {s : State} {port : Mgmt} {offset : Nat} {changes inRange : Bool} {f : State → State}
    (hc : changes = true) (hk : s.holdsLock port = true) (hq : s.jq.quiesced = false) :
    s.rwl port offset changes inRange f = s.refuse port offset 4 := by
  simp [State.rwl, hc, hk, hq]

theorem rwl_of_allowed {s : State} {port : Mgmt} {offset : Nat} {changes inRange : Bool} {f : State → State}
    (h : changes = false ∨ (s.holdsLock port = true ∧ s.jq.quiesced = true)) :
    s.rwl port offset changes inRange f = if inRange then (f s).ok port else s.refuse port offset 4 := by
  rcases h with h | ⟨hk, hq⟩
  · cases inRange <;> simp [State.rwl, h]
  · cases inRange <;> simp [State.rwl, hk, hq]

/-- A command that is a write to a field of type RWL answers as R336 and R381 say. -/
theorem answersRwl_run {c : Instr} {s : State} {port : Mgmt} {offset : Nat} {changes inRange : Bool} {f : State → State}
    (g : State → State) (hc : exec c s = run g s) (hg : g s.begin_ = s.begin_.rwl port offset changes inRange f) :
    AnswersRwl c s port offset changes inRange f :=
  ⟨fun h hk => does_run g hc (hg.trans (rwl_of_unlocked h hk)),
    fun h hk hq => does_run g hc (hg.trans (rwl_of_running h hk hq)),
    fun h => ⟨fun hr => does_run g hc (hg.trans ((rwl_of_allowed (s := s.begin_) h).trans (if_neg (ne_true_of_eq_false hr)))),
      fun hr => does_run g hc (hg.trans ((rwl_of_allowed (s := s.begin_) h).trans (if_pos hr)))⟩⟩

theorem plain_of_listening {s : State} (port : Mgmt) (offset : Nat) (f : State → State) (h : s.listening = true) :
    s.plain port offset f = (f s).ok port := guarded_of_listening port offset _ h

/-! ### A register reads the same once what the block drives has been dropped -/

/-- Block by block. -/
theorem regBlocks_begin (s : State) (o : Nat) :
    s.begin_.regJG o = s.regJG o ∧ s.begin_.regJQ o = s.regJQ o ∧ s.begin_.regJI o = s.regJI o ∧
    s.begin_.regJX o = s.regJX o ∧ s.begin_.regJZ o = s.regJZ o ∧ s.begin_.regJK o = s.regJK o ∧
    s.begin_.regJU o = s.regJU o ∧ s.begin_.regJL o = s.regJL o ∧ s.begin_.regJE o = s.regJE o ∧
    s.begin_.regJM o = s.regJM o ∧ s.begin_.regJC o = s.regJC o ∧ s.begin_.regJS o = s.regJS o ∧
    s.begin_.regJP o = s.regJP o ∧ s.begin_.regJT o = s.regJT o ∧ s.begin_.regEv o = s.regEv o := by
  refine ⟨?_, ?_, ?_, ?_, ?_, ?_, ?_, ?_, ?_, ?_, ?_, ?_, ?_, ?_, ?_⟩ <;> rfl

theorem regWord_begin (s : State) (off : Nat) : s.begin_.regWord off = s.regWord off := by
  simp only [State.regWord, regBlocks_begin]

theorem winWords_begin (s : State) (base : Nat) : s.begin_.winWords base = s.winWords base := by
  unfold State.winWords
  rfl

theorem readReg_begin (s : State) (off : Nat) : s.begin_.readReg off = s.readReg off := by
  simp only [State.readReg, regWord_begin, winWords_begin, begin_fields]

/-! ### The rules before a register's own -/

section

variable {s : State} {port : Mgmt} {off : Nat} {v : W32} {be : BitVec 4}

theorem busWrite_undecoded (lost : Bool) (hr : s.inReset = false)
    (h : (s.readReg off).isNone = true ∨ (port = .mw ∧ be ≠ 0xF)) : s.busWrite port off v be lost = s.refuse port off 5 := by
  have hd : ((s.readReg off).isNone || (port == .mw && be != 0xF)) = true := by
    rcases h with h | ⟨hp, hb⟩
    · rw [h]; rfl
    · subst hp
      rw [bne_iff_ne.mpr hb]
      exact Bool.or_true _
  rw [State.busWrite, if_neg (ne_true_of_eq_false hr), if_pos hd]

/-- A whole write that is served and decodes: the arbiter's conflict first, then the register's own rules. -/
theorem busWrite_served (lost : Bool) (hl : s.listening = true) (hd : (s.readReg off).isSome = true)
    (hb : port = .sm ∨ be = 0xF) (hc : (s.js.cmd.busy && cmdReg off) = false) :
    s.busWrite port off v be lost = if lost && port == .mw then s.refuse port off 2 else s.regWrite port off v := by
  have hwhole : (port == Mgmt.mw && be != 0xF) = false := by
    rcases hb with rfl | rfl
    · rfl
    · exact Bool.and_false _
  have hnone : (s.readReg off).isNone = false := by
    rw [Option.isNone_eq_false_iff]; exact hd
  rw [State.busWrite, if_neg (ne_true_of_eq_false (inReset_of_listening hl)), hnone, hwhole,
    accessBusy_of_listening port off true hl, hc]
  rfl

/-- A write of a register that reads back, and is none of the service command's. -/
theorem busWrite_of_register {n : Nat} (hl : s.listening = true) (hb : port = .sm ∨ be = 0xF)
    (hd : (s.readReg n).isSome = true) (hc : cmdReg n = false) : s.busWrite port n v be false = s.regWrite port n v := by
  rw [busWrite_served false hl hd hb (by rw [hc, Bool.and_false])]
  rfl

/-- A write of a register without a lock or a range. -/
theorem does_plain {off : BitVec 24} {f : State → State} (n : Nat) (hn : off.toNat = n) (hl : s.listening = true)
    (hb : port = .sm ∨ be = 0xF) (hd : (s.begin_.readReg n).isSome = true) (hc : cmdReg n = false)
    (h : s.begin_.regWrite port n v = s.begin_.plain port n f) :
    Does (.registerWrite port off v be false) s fun s => (f s).ok port := by
  refine does_run (fun s => s.busWrite port n v be false) (by rw [← hn]; rfl) ?_
  exact (busWrite_of_register (s := s.begin_) hl hb hd hc).trans (h.trans (plain_of_listening (s := s.begin_) _ _ _ hl))

/-- A write of a register under the lock. -/
theorem answersRwl_of_register {off : BitVec 24} {changes inRange : Bool} {f : State → State} (n : Nat) (hn : off.toNat = n)
    (hl : s.listening = true) (hb : port = .sm ∨ be = 0xF) (hd : (s.begin_.readReg n).isSome = true) (hc : cmdReg n = false)
    (h : s.begin_.regWrite port n v = s.begin_.guarded port n fun s => s.rwl port n changes inRange f) :
    AnswersRwl (.registerWrite port off v be false) s port n changes inRange f := by
  refine answersRwl_run (fun s => s.busWrite port n v be false) (by rw [← hn]; rfl) ?_
  exact (busWrite_of_register (s := s.begin_) hl hb hd hc).trans (h.trans (guarded_of_listening (s := s.begin_) _ _ _ hl))

end

section

variable (s : State) (port : Mgmt) (v : W32)

/-- The registers of O57 read back, those without a lock. -/
theorem plain_read_back :
    (s.readReg 0x060004).isSome = true ∧ (s.readReg 0x080004).isSome = true ∧ (s.readReg 0x0B0070).isSome = true ∧
    (s.readReg 0x0B006C).isSome = true ∧ (s.readReg 0x000004).isSome = true ∧ (s.readReg 0x010008).isSome = true ∧
    (s.readReg 0x0B0000).isSome = true :=
  ⟨rfl, rfl, rfl, rfl, rfl, rfl, rfl⟩

/-- The registers of O57 read back, those under the lock. -/
theorem rwl_read_back :
    (s.readReg 0x010030).isSome = true ∧ (s.readReg 0x010034).isSome = true ∧ (s.readReg 0x030010).isSome = true ∧
    (s.readReg 0x0A0000).isSome = true :=
  ⟨rfl, rfl, rfl, rfl⟩

theorem regWrite_clip : s.regWrite port 0x060004 v = s.plain port 0x060004 fun s => { s with ju := { s.ju with clip := v } } := rfl

theorem regWrite_pi :
    s.regWrite port 0x080004 v = s.plain port 0x080004 fun s => { s with je := { s.je with pi := v.setWidth 16 } } := rfl

theorem regWrite_irqEn : s.regWrite port 0x0B0070 v = s.plain port 0x0B0070 fun s =>
    { s with js := { s.js with ring := { s.js.ring with enErr := v.getLsbD 0, enFatal := v.getLsbD 1 } } } := rfl

theorem regWrite_irq : s.regWrite port 0x0B006C v = s.plain port 0x0B006C fun s =>
    { s with js := { s.js with ring := { s.js.ring with irqErr := s.js.ring.irqErr && !v.getLsbD 0,
                                                         irqFatal := s.js.ring.irqFatal && !v.getLsbD 1 } } } := rfl

theorem regWrite_epoch : s.regWrite port 0x000004 v = s.plain port 0x000004 fun s =>
    { s with jg := { s.jg with epoch := { s.jg.epoch with staleSeen := s.jg.epoch.staleSeen && !v.getLsbD 6 } } } := rfl

theorem regWrite_slot : s.regWrite port 0x010008 v = s.plain port 0x010008 id := rfl

theorem regWrite_part : s.regWrite port 0x0B0000 v = s.plain port 0x0B0000 id := rfl

end

/-- Settles O57: `busWrite_undecoded` and `busWrite_served`, then each register's own write. -/
theorem registersAreWritten : Obligations.RegistersAreWritten := by
  intro s port v be
  refine ⟨fun off hr h lost => ?_, fun off hw hb => ?_, fun hl hb => ?_⟩
  · refine does_run (fun s => s.busWrite port off.toNat v be lost) rfl (busWrite_undecoded (s := s.begin_) lost hr ?_)
    rw [readReg_begin]
    exact h
  · simp only [State.writable, Bool.and_eq_true] at hw
    obtain ⟨⟨hl, hd⟩, -⟩ := hw
    refine does_run (fun s => s.busWrite .mw off.toNat v 0xF true) rfl ?_
    rw [busWrite_served (s := s.begin_) true hl (by rw [readReg_begin]; exact hd) (.inr rfl)
      (by rw [show s.begin_.js.cmd.busy = false from hb, Bool.false_and])]
    exact if_pos rfl
  · obtain ⟨h1, h2, h3, h4, h5, h6, h7⟩ := plain_read_back s.begin_
    obtain ⟨k1, k2, k3, k4⟩ := rwl_read_back s.begin_
    exact ⟨does_plain 0x060004 rfl hl hb h1 rfl (regWrite_clip ..), does_plain 0x080004 rfl hl hb h2 rfl (regWrite_pi ..),
      does_plain 0x0B0070 rfl hl hb h3 rfl (regWrite_irqEn ..), does_plain 0x0B006C rfl hl hb h4 rfl (regWrite_irq ..),
      does_plain 0x000004 rfl hl hb h5 rfl (regWrite_epoch ..), does_plain (f := id) 0x010008 rfl hl hb h6 rfl (regWrite_slot ..),
      does_plain (f := id) 0x0B0000 rfl hl hb h7 rfl (regWrite_part ..),
      answersRwl_of_register 0x010030 rfl hl hb k1 rfl rfl, answersRwl_of_register 0x010034 rfl hl hb k2 rfl rfl,
      answersRwl_of_register 0x030010 rfl hl hb k3 rfl rfl, answersRwl_of_register 0x0A0000 rfl hl hb k4 rfl rfl⟩

/-! ### Reads (R336-R341, R381, R382) -/

section

variable {s : State} {port : Mgmt} {off : Nat}

theorem busRead_undecoded (hr : s.inReset = false) (h : s.readReg off = none) : s.busRead port off = s.refuse port off 5 := by
  rw [State.busRead, if_neg (ne_true_of_eq_false hr), h]

/-- A read that is served answers the register's word; then a window latches and the RC fields clear (R336, R339, R381). -/
theorem busRead_served {w : W32} (hl : s.listening = true) (h : s.readReg off = some w) :
    s.busRead port off = ((s.latch off).clearRc off).respond port 0 w := by
  rw [State.busRead, if_neg (ne_true_of_eq_false (inReset_of_listening hl)), h]
  exact if_neg (ne_true_of_eq_false (accessBusy_of_listening port off false hl))

end

section

variable (s : State) (n : Nat)

/-- What a read's side effects leave alone. -/
def State.readKept (s : State) : StepNo × Mem × List (Nat × List W32) := (s.jq.step, s.hostMem, s.js.latches)

@[simp] theorem setPort_readKept (f : PeerPort → PeerPort) : (s.setPort n f).readKept = s.readKept := by rfl
@[simp] theorem setChan_readKept (f : Chan → Chan) : (s.setChan n f).readKept = s.readKept := by rfl
@[simp] theorem setEth_readKept (f : EthPort → EthPort) : (s.setEth n f).readKept = s.readKept := by rfl
@[simp] theorem setWin_readKept (f : TileWin → TileWin) : (s.setWin n f).readKept = s.readKept := by rfl
@[simp] theorem withMover_readKept (m : JmBlock) : State.readKept { s with jm := m } = s.readKept := by rfl
@[simp] theorem withRdma_readKept (e : JeBlock) : State.readKept { s with je := e } = s.readKept := by rfl

@[simp] theorem clearJL_readKept : (s.clearJL n).readKept = s.readKept := by
  unfold State.clearJL
  split
  · split <;> simp
  · rfl

@[simp] theorem clearJM_readKept : (s.clearJM n).readKept = s.readKept := by
  simp [State.clearJM, apply_ite State.readKept]

@[simp] theorem clearJE_readKept : (s.clearJE n).readKept = s.readKept := by
  simp [State.clearJE, apply_ite State.readKept]

theorem clearRc_kept : (s.clearRc n).readKept = s.readKept := by
  unfold State.clearRc
  split
  case h_27 => simp [apply_ite State.readKept]
  all_goals rfl

theorem clearRc_step : (s.clearRc n).jq.step = s.jq.step ∧ (s.clearRc n).hostMem = s.hostMem :=
  ⟨congrArg (fun x => x.1) (clearRc_kept s n), congrArg (fun x => x.2.1) (clearRc_kept s n)⟩

theorem latch_kept : (s.latch n).jq.step = s.jq.step ∧ (s.latch n).hostMem = s.hostMem := by
  unfold State.latch
  split <;> exact ⟨rfl, rfl⟩

end

theorem readReg_of_window {s : State} {off base : Nat} (ha : off % 4 = 0) (h : winOf off = some (base, 0)) :
    s.readReg off = some ((s.winWords base).getD 0 0) := by
  simp only [State.readReg, if_neg (not_not_intro ha), h]

theorem readReg_of_latch {s : State} {off base k : Nat} {ws : List W32} (ha : off % 4 = 0)
    (h : winOf off = some (base, k + 1)) (hl : tabGet base s.js.latches = some ws) :
    s.readReg off = some (ws.getD (k + 1) 0) := by
  simp only [State.readReg, if_neg (not_not_intro ha), h]
  rw [hl]
  rfl

theorem latches_latch {s : State} {off base : Nat} (h : winOf off = some (base, 0)) :
    tabGet base (s.latch off).js.latches = some (s.winWords base) := by
  rw [State.latch, h]
  exact tabGet_tabSet_same ..

/-- A read that is served, what it answers and what it keeps. -/
theorem rcRead_served {s : State} (port : Mgmt) {off : BitVec 24} {w : W32} (hl : s.listening = true)
    (h : s.readReg off.toNat = some w) :
    ∃ t, exec (.rcRead port off) s = .next t ∧ t.response port = ⟨0, w⟩ ∧ t.jq.step = s.jq.step ∧ t.hostMem = s.hostMem := by
  refine exec_run (fun s => s.busRead port off.toNat) rfl ?_
  rw [busRead_served (s := s.begin_) hl ((readReg_begin ..).trans h)]
  obtain ⟨hstep, hmem⟩ := clearRc_step (s.begin_.latch off.toNat) off.toNat
  obtain ⟨lstep, lmem⟩ := latch_kept s.begin_ off.toNat
  refine ⟨response_respond .., ?_, ?_⟩
  · simp [hstep, lstep]
  · simp [hmem, lmem]

theorem latchedWindowRead_served {s : State} (port : Mgmt) {off : BitVec 24} {base : Nat} (hl : s.listening = true)
    (ha : off.toNat % 4 = 0) (h : winOf off.toNat = some (base, 0)) :
    ∃ t, exec (.latchedWindowRead port off) s = .next t ∧ t.response port = ⟨0, (s.winWords base).getD 0 0⟩ ∧
      ∀ k o, winOf o = some (base, k + 1) → o % 4 = 0 → t.readReg o = some ((s.winWords base).getD (k + 1) 0) := by
  have hx : exec (.latchedWindowRead port off) s = run (fun s => s.busRead port off.toNat) s := by
    simp only [exec, execLatchedWindowRead, h]
  refine exec_run (fun s => s.busRead port off.toNat) hx ?_
  rw [busRead_served (s := s.begin_) hl (readReg_of_window ha h), winWords_begin]
  refine ⟨response_respond .., fun k o hw ho => readReg_of_latch ho hw ?_⟩
  have hl := latches_latch (s := s.begin_) h
  rw [winWords_begin] at hl
  have hc := congrArg (fun x => x.2.2) (clearRc_kept (s.begin_.latch off.toNat) off.toNat)
  cases port <;> exact (congrArg (tabGet base) hc).trans hl

/-- A read of one register whose RC fields clear: `h` gives its word and `hc` its effect. -/
theorem does_rcRead {s : State} {port : Mgmt} {off : BitVec 24} {w : W32} {u : State} (hl : s.listening = true)
    (h : s.begin_.readReg off.toNat = some w) (hc : (s.begin_.latch off.toNat).clearRc off.toNat = u) :
    exec (.rcRead port off) s = .next { (u.respond port 0 w).finish with pending := s.pending } := by
  rw [← hc, ← busRead_served (s := s.begin_) hl h]
  rfl

/-! ### The event ring's TAIL (R382) -/

section

variable {s : State} (port : Mgmt) {v : W32}

theorem wrTail_refused {overwrite : Bool} (hl : s.listening = true)
    (h : overwrite = true ∨ (s.js.ring.head - s.js.ring.tail).toNat < (v.setWidth 12 - s.js.ring.tail).toNat) :
    s.wrTail port v overwrite = s.refuse port 0x0B0064 4 := by
  rw [State.wrTail, guarded_of_listening _ _ _ hl]
  refine if_pos ?_
  rcases h with rfl | h
  · rfl
  · rw [decide_eq_true h, Bool.or_true]

theorem wrTail_taken (hl : s.listening = true)
    (h : (v.setWidth 12 - s.js.ring.tail).toNat ≤ (s.js.ring.head - s.js.ring.tail).toNat) :
    s.wrTail port v false = ({ s with js := { s.js with ring := { s.js.ring with tail := v.setWidth 12 } } }).ok port := by
  rw [State.wrTail, guarded_of_listening _ _ _ hl]
  exact if_neg (by simpa using h)

end

/-! ### The serial target port (R338–R340) -/

section

variable {s : State} {hdr : W32} (data : W32)

theorem smRun_write (hr : s.inReset = false) (hp : hdrOk hdr = true) (hw : hdr.getLsbD 30 = true) :
    s.smRun hdr data 96 =
      let u := s.busWrite .sm (hdr.toNat % 2 ^ 24) data 0xF false
      { u with js := { u.js with smStatus := smWord u.js.smDone u.js.sm.code, smDone := u.js.smDone + 1 } } := by
  simp [State.smRun, State.smAccess, -BitVec.getLsbD_eq_getElem, hr, hp, hw]

theorem smRun_read (hr : s.inReset = false) (hp : hdrOk hdr = true) (hw : hdr.getLsbD 30 = false) :
    s.smRun hdr data 128 =
      let u := s.busRead .sm (hdr.toNat % 2 ^ 24)
      { u with js := { u.js with smStatus := smWord u.js.smDone u.js.sm.code, smDone := u.js.smDone + 1 } } := by
  simp [State.smRun, State.smAccess, -BitVec.getLsbD_eq_getElem, hr, hp, hw]

theorem smRun_short (hr : s.inReset = false) (hp : hdrOk hdr = true) (hw : hdr.getLsbD 30 = true) {edges : Nat}
    (he : edges < 64) :
    s.smRun hdr data edges = { s with js := { s.js with smPartial := stick s.js.smPartial 1 } } := by
  have h96 : edges < 96 := by omega
  have h64 : ¬ 64 ≤ edges := Nat.not_le.mpr he
  simp [State.smRun, State.smAccess, -BitVec.getLsbD_eq_getElem, hr, hp, hw, h64, h96]

theorem smRun_badHeader (hr : s.inReset = false) (hp : hdrOk hdr = false) (hw : hdr.getLsbD 30 = true) :
    s.smRun hdr data 96 =
      { s with js := { s.js with smFrame := stick s.js.smFrame 1, sm := ⟨6, 0⟩, smStatus := smWord s.js.smDone 6,
                                 smDone := s.js.smDone + 1 } } := by
  simp [State.smRun, State.smAccess, -BitVec.getLsbD_eq_getElem, State.respond, hr, hp, hw]

end

/-- Settles O58. -/
theorem registersAreRead : Obligations.RegistersAreRead := by
  intro s port
  refine ⟨fun off hr h => ?_, fun off w hl h => rcRead_served port hl h, fun hl => ⟨?_, ?_⟩,
    fun off base hl ha h => latchedWindowRead_served port hl ha h, fun v hl => ⟨fun h => ?_, fun h => ?_, ?_⟩,
    fun hdr data hr => ⟨fun hp hw => ?_, fun hp hw => ?_, fun hp hw edges he => ?_, fun hp hw => ?_⟩⟩
  · exact does_run (fun s => s.busRead port off.toNat) rfl (busRead_undecoded (s := s.begin_) hr ((readReg_begin ..).trans h))
  · exact does_rcRead hl rfl rfl
  · exact does_rcRead hl rfl rfl
  · exact does_run (fun s => s.wrTail port v false) rfl (wrTail_taken (s := s.begin_) port hl h)
  · exact does_run (fun s => s.wrTail port v false) rfl (wrTail_refused (s := s.begin_) port hl (.inr h))
  · exact does_run (fun s => s.wrTail port v true) rfl (wrTail_refused (s := s.begin_) port hl (.inl rfl))
  · exact does_run (fun s => s.smRun hdr data 96) rfl (smRun_write (s := s.begin_) data hr hp hw)
  · exact does_run (fun s => s.smRun hdr data 128) rfl (smRun_read (s := s.begin_) data hr hp hw)
  · exact does_run (fun s => s.smRun hdr data edges) rfl (smRun_short (s := s.begin_) data hr hp hw he)
  · exact does_run (fun s => s.smRun hdr data 96) rfl (smRun_badHeader (s := s.begin_) data hr hp hw)

/-! ### The Duiker (R335, R350, R351) -/

section

variable {s : State}

theorem dropStaging_kept (s : State) : s.dropStaging.js = s.js ∧ s.dropStaging.jq = s.jq := by
  unfold State.dropStaging
  split <;> exact ⟨rfl, rfl⟩

/-- The watchdog bites a Duiker that runs. -/
theorem watchdog_bites (fw : Nat) (hr : s.inReset = false) (hb : s.js.boot.state ≠ 0) (hd : s.js.restarting = false) :
    s.watchdog fw =
      let u := ({ s with js := { s.js with restarting := true } }).event 0x4D 0x0B05 1
        [i4 fw, i1 (if s.js.cmd.busy then s.js.cmd.code.toNat else 0)]
      if s.js.cmd.busy then u.dropStaging.cmdDone 6 else u := by
  have h : (s.inReset || s.js.boot.state == 0 || s.js.restarting) = false := by
    rw [hr, hd, beq_eq_false_iff_ne.mpr hb]
    rfl
  rw [State.watchdog, if_neg (ne_true_of_eq_false h)]

theorem sample_seen (temp volt : W16) (hr : s.inReset = false) (hb : s.js.boot.state ≠ 0) (hd : s.js.restarting = false)
    (hi : s.image.isSome = true) :
    s.sample temp volt =
      let u := { s with js := { s.js with temp := temp, volt := volt } }
      match rangeCrossed s.decl temp volt with
      | none => { u with js := { u.js with excursion := false } }
      | some k =>
        if u.js.excursion then u
        else ({ u with js := { u.js with excursion := true } }).event 0x4D 0x0B06 1 [i2 temp.toNat, i2 volt.toNat, i1 k] := by
  have h : (s.inReset || s.js.boot.state == 0 || s.js.restarting) = false := by
    rw [hr, hd, beq_eq_false_iff_ne.mpr hb]
    rfl
  have hn : s.image.isNone = false := Option.isNone_eq_false_iff.mpr hi
  rw [State.sample, if_neg (ne_true_of_eq_false h)]
  exact if_neg (ne_true_of_eq_false hn)

theorem nvmTimeout_boots (opcode addr status : Nat) (hb : s.bootRuns = true) :
    s.nvmTimeout opcode addr status = (s.event 0x4D 0x0B03 1 [i1 opcode, i4 addr, i1 status]).enterSafe 9 :=
  if_pos hb

theorem nvmTimeout_serves (opcode addr status : Nat) (hb : s.bootRuns = false) (hd : s.js.restarting = false)
    (hr : s.inReset = false) (hc : s.js.cmd.busy = true) (hs : s.jg.epoch.staged = false)
    (hcode : s.js.cmd.code = 4 ∨ s.js.cmd.code = 9 ∨ s.js.cmd.code = 10) :
    s.nvmTimeout opcode addr status =
      (s.event 0x4D 0x0B03 1 [i1 opcode, i4 addr, i1 status]).dropStaging.cmdDone 4 := by
  have hflash : (s.js.cmd.code.toNat == 4 || s.js.cmd.code.toNat == 9 || s.js.cmd.code.toNat == 10) = true := by
    rcases hcode with h | h | h <;> rw [h] <;> rfl
  have hidle : (s.js.restarting || s.inReset || !s.js.cmd.busy ||
      !(s.js.cmd.code.toNat == 4 || s.js.cmd.code.toNat == 9 || s.js.cmd.code.toNat == 10)) = false := by
    rw [hd, hr, hc, hflash]
    rfl
  unfold State.nvmTimeout
  dsimp only
  rw [if_neg (ne_true_of_eq_false hb), if_neg (ne_true_of_eq_false hidle), if_neg (ne_true_of_eq_false hs)]

end

/-- Settles O59. -/
theorem theDuikerAnswers : Obligations.TheDuikerAnswers := by
  intro s
  refine ⟨fun fw hr hb hd => ⟨fun hc => ?_, fun hc => ?_⟩, rfl,
    fun temp volt hr hb hd hi => ⟨fun h => ?_, fun k h hx => ?_, fun k h hx => ?_⟩,
    fun opcode addr status => ⟨fun hb => ?_, fun hb hd hr hc hs hcode => ?_⟩⟩
  · refine does_run (fun s => s.watchdog fw.toNat) rfl ((watchdog_bites (s := s.begin_) fw.toNat hr hb hd).trans ?_)
    rw [show s.begin_.js.cmd.busy = false from hc]
    rfl
  · refine exec_run (fun s => s.watchdog fw.toNat) rfl ?_
    rw [watchdog_bites (s := s.begin_) fw.toNat hr hb hd, show s.begin_.js.cmd.busy = true from hc]
    dsimp only
    rw [if_pos rfl]
    generalize hu : ({ s.begin_ with js := { s.begin_.js with restarting := true } } : State).event 0x4D 0x0B05 1
      [i4 fw.toNat, i1 (if true = true then s.begin_.js.cmd.code.toNat else 0)] = u
    have he : ∃ e ∈ u.js.ring.evq, e.sev = 1 := hu ▸ ⟨_, event_mem .., rfl⟩
    have hres : u.js.restarting = true := hu ▸ rfl
    have hjq : u.jq = s.jq := hu ▸ rfl
    obtain ⟨e, hmem, hsev⟩ := he
    obtain ⟨hdj, hdq⟩ := dropStaging_kept u
    obtain ⟨-, hq, -, -, -, -, -, -, -, -, hrs, hcmd⟩ := cmdDone_fields u.dropStaging 6
    refine ⟨hrs.trans (hdj ▸ hres), congrArg CmdBlock.busy hcmd, congrArg CmdBlock.result hcmd, ?_, hq.trans (hdq.trans hjq)⟩
    exact finish_irqErr (mem_evq_cmdDone (hdj ▸ hmem)) hsev
  · refine does_run (fun s => s.sample temp volt) rfl ((sample_seen (s := s.begin_) temp volt hr hb hd hi).trans ?_)
    rw [show rangeCrossed s.begin_.decl temp volt = none from h]
  · refine does_run (fun s => s.sample temp volt) rfl ((sample_seen (s := s.begin_) temp volt hr hb hd hi).trans ?_)
    rw [show rangeCrossed s.begin_.decl temp volt = some k from h]
    exact if_pos hx
  · refine does_run (fun s => s.sample temp volt) rfl ((sample_seen (s := s.begin_) temp volt hr hb hd hi).trans ?_)
    rw [show rangeCrossed s.begin_.decl temp volt = some k from h]
    exact if_neg (ne_true_of_eq_false hx)
  · refine exec_run (fun s => s.nvmTimeout opcode.toNat addr.toNat status.toNat) rfl ?_
    rw [nvmTimeout_boots (s := s.begin_) _ _ _ hb]
    exact ⟨rfl, rfl, finish_irqErr (event_mem ..) rfl⟩
  · refine exec_run (fun s => s.nvmTimeout opcode.toNat addr.toNat status.toNat) rfl ?_
    rw [nvmTimeout_serves (s := s.begin_) _ _ _ hb hd hr hc hs hcode]
    generalize hu : s.begin_.event 0x4D 0x0B03 1 [i1 opcode.toNat, i4 addr.toNat, i1 status.toNat] = u
    have he : ∃ e ∈ u.js.ring.evq, e.sev = 1 := hu ▸ ⟨_, event_mem .., rfl⟩
    have hjq : u.jq = s.jq := hu ▸ rfl
    have hst : u.jg.epoch.staged = false := hu ▸ hs
    obtain ⟨e, hmem, hsev⟩ := he
    obtain ⟨hdj, hdq⟩ := dropStaging_kept u
    obtain ⟨-, hq, -, -, -, hlive, -, -, -, -, -, hcmd⟩ := cmdDone_fields u.dropStaging 4
    refine ⟨congrArg CmdBlock.busy hcmd, congrArg CmdBlock.result hcmd, finish_irqErr (mem_evq_cmdDone (hdj ▸ hmem)) hsev,
      (congrArg LiveSet.staged hlive).trans ?_, hq.trans (hdq.trans hjq)⟩
    rw [State.dropStaging, if_neg (ne_true_of_eq_false hst)]

end Sys2Proof.Machine
end

section
namespace Sys2Proof.Machine

/-! ### Failures and the Twin (R353-R357, R362, R370-R373) -/

/-! What a tile's failure leaves: the tile map and the member block, through everything that the tile held. -/

/-- The tile map and the member block. -/
def State.tileSide (s : State) : TileMapBlock × MemberBlock := (s.jg.tiles, s.jg.member)

section

variable (s : State)

@[simp] theorem event_tileSide (source code sev : Nat) (items : List EvItem) :
    (s.event source code sev items).tileSide = s.tileSide := by rfl

@[simp] theorem fault_tileSide : s.fault.tileSide = s.tileSide := by rfl

@[simp] theorem incomplete_tileSide : s.incomplete.tileSide = s.tileSide := by rfl

@[simp] theorem showJob_tileSide (tile kind tensor : Nat) : (s.showJob tile kind tensor).tileSide = s.tileSide := by rfl

@[simp] theorem setTile_tileSide (t : Nat) (f : TileSt → TileSt) : (s.setTile t f).tileSide = s.tileSide := by rfl

@[simp] theorem consume_tileSide (i : Nat) : (s.consume i).tileSide = s.tileSide := by rfl

@[simp] theorem endSection_tileSide (tensor block : Nat) : (s.endSection tensor block).tileSide = s.tileSide := by rfl

@[simp] theorem withUpdate_tileSide (u : JuBlock) : State.tileSide { s with ju := u } = s.tileSide := by rfl

@[simp] theorem withIntake_tileSide (i : JiBlock) : State.tileSide { s with ji := i } = s.tileSide := by rfl

@[simp] theorem withMarkhor_tileSide (k : JkBlock) : State.tileSide { s with jk := k } = s.tileSide := by rfl

@[simp] theorem leaveInv_tileSide (tile : Nat) : (s.leaveInv tile).tileSide = s.tileSide := by
  unfold State.leaveInv
  dsimp only
  split <;> simp

@[simp] theorem progFault_tileSide (x : TileCtx) (cause addr : Nat) : (s.progFault x cause addr).tileSide = s.tileSide := by
  have hc := fun (s : State) i => consume_tileSide s i
  simp only [State.progFault, apply_ite State.tileSide, foldl_view hc, consume_tileSide, endSection_tileSide,
    withUpdate_tileSide, leaveInv_tileSide, event_tileSide, fault_tileSide, ite_self]

@[simp] theorem codeFault_tileSide (t : Nat) : (s.codeFault t).tileSide = s.tileSide := by
  unfold State.codeFault
  split <;> simp

@[simp] theorem nonFiniteIf_tileSide (c : Bool) (u : NfUnit) : (s.nonFiniteIf c u).tileSide = s.tileSide := by
  cases c <;> rfl

@[simp] theorem stateWrite_tileSide (unit a : Nat) (b : List Byte) : (s.stateWrite unit a b).tileSide = s.tileSide := by
  have h := congrArg State.tileSide (stateWrite_noPorts s unit a b)
  exact h

@[simp] theorem putResidual_tileSide (tensor : Nat) (c : CatEntry) (elem : Nat) (r : W32) :
    (s.putResidual tensor c elem r).tileSide = s.tileSide := by
  unfold State.putResidual
  dsimp only
  split <;> simp

theorem putResiduals_tileSide (tensor : Nat) (c : CatEntry) (l : List (Nat × W32)) :
    (s.putResiduals tensor c l).tileSide = s.tileSide := by
  induction l generalizing s with
  | nil => rfl
  | cons x l ih => exact (ih _).trans (putResidual_tileSide ..)

@[simp] theorem withheldGroup_tileSide (tensor : Nat) (c : CatEntry) (i group : Nat) (vals : List W32) :
    (s.withheldGroup tensor c i group vals).tileSide = s.tileSide := by
  unfold State.withheldGroup
  split
  · rfl
  · exact putResiduals_tileSide ..

@[simp] theorem poisonedGroup_tileSide (tensor : Nat) (c : CatEntry) (i group : Nat) (vals : List W32) :
    (s.poisonedGroup tensor c i group vals).tileSide = s.tileSide := by
  unfold State.poisonedGroup
  split
  · rfl
  · simp only [apply_ite State.tileSide, putResiduals_tileSide, ite_self]

@[simp] theorem storeGroup_tileSide (tensor : Nat) (c : CatEntry) (group : Nat) (g : List W32) :
    (s.storeGroup tensor c group g).tileSide = s.tileSide := by
  unfold State.storeGroup
  dsimp only
  split
  · rfl
  · split <;> simp [apply_ite State.tileSide, putResiduals_tileSide]

@[simp] theorem unmarkChunk_tileSide (i : Nat) : (s.unmarkChunk i).1.tileSide = s.tileSide := by
  unfold State.unmarkChunk
  split
  · dsimp only
    split
    · simp
    · rw [foldl_view fun s g => storeGroup_tileSide ..]
      simp
  · rfl

@[simp] theorem loseGroups_tileSide (t : Nat) : (s.loseGroups t).1.tileSide = s.tileSide :=
  foldl_view (g := fun a : State × Nat => a.1.tileSide)
    (f := fun a i => ((a.1.unmarkChunk i).1, a.2 + (a.1.unmarkChunk i).2)) (fun a i => unmarkChunk_tileSide a.1 i) _ (s, 0)

@[simp] theorem loseCarries_tileSide (t : Nat) : (s.loseCarries t).1.tileSide = s.tileSide := by rfl

@[simp] theorem loseRows_tileSide (t : Nat) : (s.loseRows t).1.tileSide = s.tileSide := by rfl

@[simp] theorem rerun_tileSide (t : Nat) : (s.rerun t).tileSide = s.tileSide := by rfl

@[simp] theorem rerunRefresh_tileSide (t : Nat) : (s.rerunRefresh t).tileSide = s.tileSide := by
  unfold State.rerunRefresh State.markhorQuiesce
  repeat' split
  all_goals rfl

@[simp] theorem rerunBlocks_tileSide (t : Nat) : (s.rerunBlocks t).tileSide = s.tileSide := by rfl

theorem rerunRefresh_tiles (t : Nat) : (s.rerunRefresh t).tiles = s.tiles := by
  unfold State.rerunRefresh State.markhorQuiesce
  repeat' split
  all_goals rfl

theorem rerun_inv (t : Nat) : ((s.rerun t).tile t).inv = none := by
  show ((modifyNth _ t s.tiles).getD t TileSt.reset).inv = none
  by_cases h : t < s.tiles.length
  · rw [modifyNth_getD_same _ _ _ _ h]
  · rw [List.getD_eq_default _ _ (by rw [modifyNth_length]; omega)]
    rfl

/-- What a member failure writes. -/
theorem memberFail_spec (cause : Nat) :
    (s.memberFail cause).jg.tiles = s.jg.tiles ∧ (s.memberFail cause).tiles = s.tiles ∧ (s.memberFail cause).jq = s.jq ∧
      (s.memberFail cause).stateMem = s.stateMem ∧ (s.memberFail cause).jg.twin = s.jg.twin ∧
      (s.memberFail cause).jg.member.state = 2 ∧ ∀ e ∈ s.js.ring.evq, e ∈ (s.memberFail cause).js.ring.evq := by
  unfold State.memberFail
  split
  next h => exact ⟨rfl, rfl, rfl, rfl, rfl, h, fun e he => he⟩
  next =>
    dsimp only
    split <;> exact ⟨rfl, rfl, rfl, rfl, rfl, rfl, fun e he => List.mem_append_left _ he⟩

/-- The first failure of a member gives its cause and its event. -/
theorem memberFail_first (cause : Nat) (h : s.jg.member.state ≠ 2) :
    (s.memberFail cause).jg.member.cause = BitVec.ofNat 4 cause ∧
      (s.memberFail cause).js.ring = (s.event 0x40 0x0003 2 [i1 cause, i1 (b2n (s.donorOk cause)), i8 s.jq.step.toNat,
        i8 s.jq.slot.toNat]).js.ring := by
  rw [State.memberFail, if_neg h]
  dsimp only
  split <;> exact ⟨rfl, rfl⟩

end

/-! ### A physical tile fails (R354) -/

/-- The tile map once a physical tile is fenced. -/
def TileMapBlock.fence (t : TileMapBlock) (p : Nat) : TileMapBlock :=
  { t.setPhys p 2 with lastPhys := BitVec.ofNat 6 p, lastLog := BitVec.ofNat 6 ((t.logical p).getD 63),
                       tested := t.tested &&& ~~~BitVec.ofNat 48 (2 ^ p) }

/-- What the failure of a tile in service does to the work of the logical tile that it carried. -/
def State.tileLost (s : State) (p cause l : Nat) : State × List EvItem :=
  let s := if cause = 2 then s.codeFault l else s
  let g := s.loseGroups l
  let c := g.1.loseCarries l
  let r := c.1.loseRows l
  let s := ((r.1.rerun l).rerunRefresh l).rerunBlocks l
  let lost : Nat := c.2 + r.2
  let s := if lost = 0 then s else s.incomplete
  (s, [i1 cause, i2 p, i2 l, i2 (s.jg.tiles.spare.getD 0xFFFF), i8 s.jq.step.toNat, i4 g.2, i4 c.2, i4 r.2])

theorem tileLost_tileSide (s : State) (p cause l : Nat) : (s.tileLost p cause l).1.tileSide = s.tileSide := by
  simp only [State.tileLost, apply_ite State.tileSide, rerunBlocks_tileSide, rerunRefresh_tileSide, rerun_tileSide,
    loseRows_tileSide, loseCarries_tileSide, loseGroups_tileSide, codeFault_tileSide, incomplete_tileSide, ite_self]

theorem tileLost_inv (s : State) (p cause l : Nat) : ((s.tileLost p cause l).1.tile l).inv = none := by
  unfold State.tileLost
  extract_lets s1 g c r s2 lost s3
  have h3 : s3.tiles = s2.tiles := by
    show (if lost = 0 then s2 else s2.incomplete : State).tiles = _
    split <;> rfl
  have h2 : s2.tiles = (r.1.rerun l).tiles := rerunRefresh_tiles ..
  rw [State.tile, h3, h2]
  exact rerun_inv r.1 l

/-- A tile in service or in reserve fails. -/
theorem tileFails_spec {s : State} (p cause : Nat) (hr : s.inReset = false) (hs : (s.jg.tiles.phys.getD p 3).toNat ≤ 1) :
    s.tileFails p cause =
      let u := { s with jg := { s.jg with tiles := s.jg.tiles.fence p } }
      match s.jg.tiles.logical p with
      | none => u.event 0x40 0x0002 1 [i1 cause, i2 p, i2 0xFFFF, i2 0xFFFF, i8 s.jq.step.toNat, i4 0, i4 0, i4 0]
      | some l =>
        let x := u.tileLost p cause l
        let v := x.1.event 0x40 0x0002 1 x.2
        if x.1.jg.tiles.spare.isSome then
          { v with jg := { v.jg with tiles := { v.jg.tiles with remap := v.jg.tiles.remap ++ [BitVec.ofNat 6 l] } } }
        else v.memberFail 1 := by
  have hc : (s.inReset || (s.jg.tiles.phys.getD p 3 != 0 && s.jg.tiles.phys.getD p 3 != 1)) = false := by
    generalize s.jg.tiles.phys.getD p 3 = st at hs
    rw [hr]
    revert hs
    revert st
    decide
  rw [State.tileFails, if_neg (ne_true_of_eq_false hc)]
  unfold TileMapBlock.fence State.tileLost
  generalize s.jg.tiles.logical p = log
  cases log with
  | none => rfl
  | some l => rfl

/-- What a failure leaves of the map, the event that it records, and the logical tile that it hits. -/
theorem tileFails_effect {s : State} (p cause : Nat) (hr : s.inReset = false) (hs : (s.jg.tiles.phys.getD p 3).toNat ≤ 1) :
    (s.tileFails p cause).jg.tiles.phys = (s.jg.tiles.fence p).phys ∧
    (s.tileFails p cause).jg.tiles.lastPhys = BitVec.ofNat 6 p ∧
    (∃ e ∈ (s.tileFails p cause).js.ring.evq, e.sev = 1) ∧
    ∀ l, s.jg.tiles.logical p = some l →
      (s.tileFails p cause).jg.tiles.lastLog = BitVec.ofNat 6 l ∧ ((s.tileFails p cause).tile l).inv = none ∧
      ((s.jg.tiles.fence p).spare.isSome = true →
        (s.tileFails p cause).jg.tiles.remap = s.jg.tiles.remap ++ [BitVec.ofNat 6 l] ∧
        (s.tileFails p cause).jg.member = s.jg.member) ∧
      ((s.jg.tiles.fence p).spare.isSome = false → (s.tileFails p cause).jg.member.state = 2) := by
  rw [tileFails_spec p cause hr hs]
  dsimp only
  generalize hu : ({ s with jg := { s.jg with tiles := s.jg.tiles.fence p } } : State) = u
  have hside : u.tileSide = (s.jg.tiles.fence p, s.jg.member) := hu ▸ rfl
  cases hl : s.jg.tiles.logical p with
  | none =>
    have htiles : u.jg.tiles = s.jg.tiles.fence p := congrArg Prod.fst hside
    exact ⟨congrArg TileMapBlock.phys htiles, congrArg TileMapBlock.lastPhys htiles, ⟨_, event_mem .., rfl⟩,
      fun l h => nomatch h⟩
  | some l =>
    have hlog : (s.jg.tiles.fence p).lastLog = BitVec.ofNat 6 l := by
      show BitVec.ofNat 6 ((s.jg.tiles.logical p).getD 63) = _
      rw [hl]
      rfl
    dsimp only
    have hx := (tileLost_tileSide u p cause l).trans hside
    have hinv := tileLost_inv u p cause l
    generalize hv : u.tileLost p cause l = x at hx hinv
    have htiles : x.1.jg.tiles = s.jg.tiles.fence p := congrArg Prod.fst hx
    have hmember : x.1.jg.member = s.jg.member := congrArg Prod.snd hx
    rw [htiles]
    generalize hw : x.1.event 0x40 0x0002 1 x.2 = v
    have htv : v.jg.tiles = s.jg.tiles.fence p := hw ▸ htiles
    have hmv : v.jg.member = s.jg.member := hw ▸ hmember
    have hiv : (v.tile l).inv = none := hw ▸ hinv
    have hev : (⟨0x40, 0x0002, 1, x.2⟩ : EvRec) ∈ v.js.ring.evq := hw ▸ event_mem ..
    cases hsp : (s.jg.tiles.fence p).spare.isSome with
    | true =>
      rw [if_pos rfl]
      have hphys : v.jg.tiles.phys = (s.jg.tiles.fence p).phys := congrArg TileMapBlock.phys htv
      have hlast : v.jg.tiles.lastPhys = BitVec.ofNat 6 p := congrArg TileMapBlock.lastPhys htv
      refine ⟨hphys, hlast, ⟨_, hev, rfl⟩, fun l' h => ?_⟩
      cases h
      have hlastLog : v.jg.tiles.lastLog = BitVec.ofNat 6 l := (congrArg TileMapBlock.lastLog htv).trans hlog
      refine ⟨hlastLog, hiv, fun _ => ⟨?_, hmv⟩, fun h => absurd h.symm Bool.false_ne_true⟩
      show v.jg.tiles.remap ++ _ = _
      rw [htv]
      rfl
    | false =>
      rw [if_neg Bool.false_ne_true]
      obtain ⟨mtiles, mtile, -, -, -, mstate, mev⟩ := memberFail_spec v 1
      have htm := mtiles.trans htv
      refine ⟨congrArg TileMapBlock.phys htm, congrArg TileMapBlock.lastPhys htm, ⟨_, mev _ hev, rfl⟩, fun l' h => ?_⟩
      cases h
      refine ⟨(congrArg TileMapBlock.lastLog htm).trans hlog, ?_, fun h => absurd h Bool.false_ne_true, fun _ => mstate⟩
      rw [State.tile, mtile]
      exact hiv

theorem tileFails_fenced {s : State} (p cause : Nat) (h : 2 ≤ (s.jg.tiles.phys.getD p 3).toNat) : s.tileFails p cause = s := by
  have hc : (s.inReset || (s.jg.tiles.phys.getD p 3 != 0 && s.jg.tiles.phys.getD p 3 != 1)) = true := by
    generalize s.jg.tiles.phys.getD p 3 = st at h
    generalize s.inReset = r
    revert h
    revert st r
    decide
  rw [State.tileFails, if_pos hc]

/-! ### The Twin (R371–R373) -/

section

variable {s : State} (i : Nat) (crc : W32)

theorem twinIn_chunk (hp : s.jg.twin.present = true) (hr : s.inReset = false) :
    s.twinIn (.chunkCrc i crc) = s.twinCompare (.chunk i crc) := by
  rw [State.twinIn, hp, hr]
  rfl

/-- The first divergence is latched and recorded. -/
theorem diverge_first (own other : TwinItem) (h : s.jg.twin.diverged = none) :
    (s.diverge own other).jg.twin =
        { s.jg.twin with diverged := some (s.jq.slot, own.shown.1, own.shown.2, other.shown.2) } ∧
      (s.diverge own other).js.ring = (s.event 0x40 0x0004 1 [i8 s.jq.slot.toNat, i4 own.shown.1, i4 own.shown.2.toNat,
        i4 other.shown.2.toNat, i1 (selfTestBits s.jg.twin.test)]).js.ring := by
  rw [State.diverge, h]
  exact ⟨rfl, rfl⟩

theorem twinFailed_unfenced (hp : s.jg.twin.present = true) (ho : s.jg.twin.peerOk = true) (hf : s.jg.twin.fenced = none) :
    s.twinFailed = { s with jg := { s.jg with twin := { s.jg.twin with peerOk := false, moveIn := some 2 } } } := by
  simp [State.twinFailed, State.setTwin, hp, ho, hf]

theorem twinFailed_fenced (hp : s.jg.twin.present = true) (ho : s.jg.twin.peerOk = true)
    (hf : s.jg.twin.fenced.isSome = true) :
    s.twinFailed = ({ s with jg := { s.jg with twin := { s.jg.twin with peerOk := false } } } : State).memberFail 7 := by
  simp [State.twinFailed, State.setTwin, hp, ho, hf]

end

/-- Settles O60: `tileFails_effect`, `memberFail_first` and the comparison of the Twin. -/
theorem failuresAreContained : Obligations.FailuresAreContained := by
  refine ⟨fun s p cause hp hr => ⟨?_, fun h => ?_, fun h => ?_⟩, fun s u hr hm he => ?_, fun s hp hr => ⟨fun i crc h => ?_,
    fun i crc h => ?_, fun i crc own h hne hd he => ?_, fun ho hf => ⟨?_, ?_⟩, fun ho hf hm => ?_⟩⟩
  · rfl
  · exact does_runUnit _ (fun s => s.tileFails p cause.toNat) rfl (decide_eq_true hp) (tileFails_fenced (s := s.begin_) p _ h)
  · obtain ⟨hphys, hlast, ⟨e, hmem, hsev⟩, hlog⟩ := tileFails_effect (s := s.begin_) p cause.toNat hr h
    refine exec_run (fun s => s.tileFails p cause.toNat) (runUnit_next _ _ s (decide_eq_true hp)) ?_
    exact ⟨hphys, hlast, finish_irqErr hmem hsev, congrArg Fixed.step (tileFails_fixed s.begin_ p cause.toNat), hlog⟩
  · have hfirst (c : Nat) (hx : exec (.unitFailure u) s = run (fun s => if s.inReset then s else s.memberFail c) s) :
        ∃ t, exec (.unitFailure u) s = .next t ∧ t.jg.member.state = 2 ∧ t.silent = true ∧
          t.jg.member.cause = BitVec.ofNat 4 c ∧ t.newest.map EvEntry.code = some 0x0003 ∧ t.js.ring.irqFatal = true ∧
          t.stateMem = s.stateMem ∧ t.jq = s.jq := by
      refine exec_run (fun s => if s.inReset then s else s.memberFail c) hx ?_
      rw [show s.begin_.inReset = false from hr, if_neg Bool.false_ne_true]
      obtain ⟨-, -, hjq, hmem, -, hstate, -⟩ := memberFail_spec s.begin_ c
      obtain ⟨hcause, hring⟩ := memberFail_first s.begin_ c hm
      refine ⟨hstate, ?_, hcause, ?_, ?_, hmem, hjq⟩
      · show ((s.begin_.memberFail c).jg.member.state == 2 || (s.begin_.memberFail c).jg.member.state == 1) = true
        rw [hstate]
        rfl
      · exact congrArg (Option.map EvEntry.code)
          (newest_of_ringPut (finish_ring_of_one (r := s.begin_.js.ring) (evq_of_eventsIn he) hring))
      · exact finish_irqFatal (hring ▸ event_mem ..) rfl
    cases u
    · exact hfirst 5 rfl
    · exact hfirst 6 rfl
    · exact hfirst 6 rfl
  · refine does_run (fun s => s.twinIn (.chunkCrc i crc)) rfl ((twinIn_chunk (s := s.begin_) i crc hp hr).trans ?_)
    rw [State.twinCompare, show (s.begin_.jg.twin.sent.find? fun x => x.sameAs (.chunk i crc)) = none from h]
    rfl
  · refine does_run (fun s => s.twinIn (.chunkCrc i crc)) rfl ((twinIn_chunk (s := s.begin_) i crc hp hr).trans ?_)
    rw [State.twinCompare, show (s.begin_.jg.twin.sent.find? fun x => x.sameAs (.chunk i crc)) = some (.chunk i crc) from h]
    exact if_pos rfl
  · refine exec_run (fun s => s.twinIn (.chunkCrc i crc)) rfl ?_
    rw [twinIn_chunk (s := s.begin_) i crc hp hr, State.twinCompare,
      show (s.begin_.jg.twin.sent.find? fun x => x.sameAs (.chunk i crc)) = some (.chunk i own) from h]
    dsimp only
    rw [if_neg (fun hx => hne (by cases hx; rfl))]
    obtain ⟨htwin, hring⟩ := diverge_first
      (s := s.begin_.setTwin fun t => { t with sent := dropOne (fun x => x.sameAs (.chunk i crc)) t.sent })
      (.chunk i own) (.chunk i crc) hd
    exact ⟨congrArg TwinBlock.diverged htwin, congrArg (Option.map EvEntry.code)
      (newest_of_ringPut (finish_ring_of_one (r := s.begin_.js.ring) (evq_of_eventsIn he) hring)),
      (congrArg TwinBlock.fenced htwin).trans rfl⟩
  · refine does_run (fun s => s.twinIn .memberFailed) rfl (.trans ?_ (twinFailed_unfenced (s := s.begin_) hp ho hf))
    rw [State.twinIn, show s.begin_.jg.twin.present = true from hp, show s.begin_.inReset = false from hr]
    rfl
  · exact does_run (fun s => if s.inReset then s else s.twinFailed) rfl
      ((if_neg (ne_true_of_eq_false hr)).trans (twinFailed_unfenced (s := s.begin_) hp ho hf))
  · refine exec_run (fun s => if s.inReset then s else s.twinFailed) rfl ?_
    rw [show s.begin_.inReset = false from hr, if_neg Bool.false_ne_true, twinFailed_fenced (s := s.begin_) hp ho hf]
    generalize hu : ({ s.begin_ with jg := { s.begin_.jg with twin := { s.begin_.jg.twin with peerOk := false } } } : State) = u
    obtain ⟨-, -, -, -, htwin, hstate, -⟩ := memberFail_spec u 7
    obtain ⟨hcause, -⟩ := memberFail_first u 7 (hu ▸ hm)
    exact ⟨hstate, hcause, (congrArg TwinBlock.peerOk htwin).trans (hu ▸ rfl)⟩

end Sys2Proof.Machine
end

section
namespace Sys2Proof.Machine

/-! ### Resets and boot (R328-R334, R389-R399) -/

section

variable {s : State}

theorem jwrstFalls_of_jporHigh (h : s.js.boot.jporLow = false) :
    s.jwrstFalls =
      let r := { s with js := { s.js with boot := { s.js.boot with jwrstLow := true } } }.toReset
      { r with
        jp := { r.jp with inrushDone := s.jp.inrushDone },
        js := { r.js with
          boot := { r.js.boot with nvmMode := s.js.boot.nvmMode, twinSel := s.js.boot.twinSel, inrush := s.js.boot.inrush },
          ring := { r.js.ring with head := s.js.ring.head, tail := s.js.ring.tail, ring := s.js.ring.ring },
          rejCount := s.js.rejCount, rejPort := s.js.rejPort, rejCode := s.js.rejCode, rejOffset := s.js.rejOffset } } :=
  if_neg (ne_true_of_eq_false h)

theorem jporRises_of_low (nvmMode twinSel : Bool) (h : s.js.boot.jporLow = true) :
    s.jporRises nvmMode twinSel =
      ({ s with js := { s.js with boot := { s.js.boot with jporLow := false, nvmMode := nvmMode, twinSel := twinSel,
                                                           inrush := true } } }).portsStart := by
  rw [State.jporRises, h]
  rfl

theorem jwrstRises_of_low (h : s.js.boot.jwrstLow = true) (hp : s.js.boot.jporLow = false) :
    s.jwrstRises = { s with
      js := { s.js with boot := { s.js.boot with jwrstLow := false, state := if s.jp.inrushDone then 1 else s.js.boot.state } },
      pins := { s.pins with adaptReq := 0xFF }, je := { s.je with ports := s.je.ports.map fun p => { p with xoffSent := 0xFF } } } := by
  cases hi : s.jp.inrushDone <;> simp [State.jwrstRises, State.portsStart, holdAll, h, hp, hi]

theorem fuseMissed_boots {addr : Nat} (hb : s.bootRuns = true) (ha : addr < 26) (hn : s.js.boot.fuseMiss.contains addr = false) :
    s.fuseMissed addr = { s with js := { s.js with boot := { s.js.boot with fuseMiss := addr :: s.js.boot.fuseMiss } } } := by
  have h : (!s.bootRuns || decide (26 ≤ addr) || s.js.boot.fuseMiss.contains addr) = false := by
    rw [hb, hn, decide_eq_false (Nat.not_le.mpr ha)]
    rfl
  simp only [State.fuseMissed]
  exact if_neg (by simpa using h)

theorem inrushEnds_first (hp : s.js.boot.jporLow = false) (hi : s.jp.inrushDone = false) :
    s.inrushEnds =
      let u := { s with jp := { s.jp with inrushDone := true } }
      if s.js.boot.jwrstLow then u else { u with js := { u.js with boot := { u.js.boot with state := 1, inrush := false } } } := by
  rw [State.inrushEnds, hp, hi]
  rfl

end

/-- Settles O48. -/
theorem resetsClearAndRelease : Obligations.ResetsClearAndRelease := by
  refine ⟨fun s => ⟨?_, fun hp => ?_, fun nvmMode twinSel hp => ?_, fun hj hp => ?_, fun addr hb ha hn => ?_⟩,
    fun s hp hi => ⟨fun hj => ?_, fun hj => ?_⟩⟩
  · exact exec_run State.jporFalls rfl
      ⟨rfl, rfl, rfl, rfl, rfl, rfl, rfl, rfl, rfl, rfl, rfl, rfl, rfl, rfl, rfl, rfl⟩
  · refine exec_run State.jwrstFalls rfl ?_
    rw [jwrstFalls_of_jporHigh (s := s.begin_) hp]
    exact ⟨Bool.or_true _, rfl, rfl, rfl, rfl, rfl, rfl, rfl, rfl, rfl, rfl, rfl, rfl, rfl, rfl, rfl, rfl, rfl⟩
  · exact does_run (fun s => s.jporRises nvmMode twinSel) rfl ((jporRises_of_low (s := s.begin_) nvmMode twinSel hp).trans rfl)
  · exact does_run State.jwrstRises rfl (jwrstRises_of_low (s := s.begin_) hj hp)
  · exact does_run (fun s => s.fuseMissed addr.toNat) rfl (fuseMissed_boots (s := s.begin_) hb ha hn)
  · exact does_run State.inrushEnds rfl ((inrushEnds_first (s := s.begin_) hp hi).trans (if_neg (ne_true_of_eq_false hj)))
  · exact does_run State.inrushEnds rfl ((inrushEnds_first (s := s.begin_) hp hi).trans (if_pos hj))

/-! ### The end of boot (R328–R333) -/

section

variable {s : State} {o : BootObs}

/-- The state in which boot checks what the flash holds. -/
def State.bootFrom (s : State) (o : BootObs) (cr : Bool) (r : CommitRec) : State :=
  { s.bootSeen o with js := { (s.bootSeen o).js with boot := { (s.bootSeen o).js.boot with cr := cr, bank := r.bank } } }

theorem bootEnds_no_flash (hb : s.bootRuns = true) (hd : s.js.restarting = false) (hn : o.nvmOk = false) :
    s.bootEnds o = (s.bootSeen o).enterSafe 9 := by
  rw [State.bootEnds, hb, hd, hn]
  rfl

theorem bootEnds_no_record (hb : s.bootRuns = true) (hd : s.js.restarting = false) (hn : o.nvmOk = true)
    (hc : bootCopy s.nvm = none) : s.bootEnds o = (s.bootSeen o).imageInvalid false ⟨1, 0, 0, 0⟩ := by
  have hnvm : (s.bootSeen o).nvm = s.nvm := rfl
  simp only [State.bootEnds, hb, hd, hn, Bool.not_true, Bool.or_false, Bool.false_eq_true, if_false, hnvm, hc]

theorem fusesSeen_none_missed (h : s.js.boot.fuseMiss = []) :
    s.fusesSeen o = (List.range 26).map fun i => o.fuses.getD i 0 := by
  rw [State.fusesSeen, h]
  rfl

theorem bootEnds_checked {cr : Bool} {r : CommitRec} {f : SxiFile} (hb : s.bootRuns = true) (hd : s.js.restarting = false)
    (hn : o.nvmOk = true) (hc : bootCopy s.nvm = some (cr, r)) (hf : s.nvm.bank r.bank = some f)
    (hok : f.bootFail (s.fusesSeen o) = none) (hm : f.mhash = r.mhash) : s.bootEnds o = (s.bootFrom o cr r).bootFile o f := by
  have hnvm : (s.bootSeen o).nvm = s.nvm := rfl
  have hfuses : (s.bootSeen o).fuses = s.fusesSeen o := rfl
  simp only [State.bootEnds, hb, hd, hn, Bool.not_true, Bool.or_false, Bool.false_eq_true, if_false, hnvm, hfuses, hc, hf, hok]
  exact if_neg (not_not_intro hm)

/-- Declarations that fail record events, and change nothing else. -/
theorem mismatches_kept (l : List (Nat × Nat × Nat)) (s : State) :
    (l.foldl (fun s x => s.declMismatch x.1 x.2.1 x.2.2) s).image = s.image ∧
      ∀ e ∈ s.js.ring.evq, e ∈ (l.foldl (fun s x => s.declMismatch x.1 x.2.1 x.2.2) s).js.ring.evq := by
  induction l generalizing s with
  | nil => exact ⟨rfl, fun e he => he⟩
  | cons x l ih =>
    obtain ⟨himg, hev⟩ := ih (s.declMismatch x.1 x.2.1 x.2.2)
    exact ⟨himg, fun e he => hev e (List.mem_append_left _ he)⟩

theorem mismatches_recorded {l : List (Nat × Nat × Nat)} (h : l ≠ []) (s : State) :
    ∃ e ∈ (l.foldl (fun s x => s.declMismatch x.1 x.2.1 x.2.2) s).js.ring.evq, e.sev = 2 := by
  cases l with
  | nil => exact absurd rfl h
  | cons x l => exact ⟨_, (mismatches_kept l _).2 _ (event_mem s 0x4D 0x0B02 2 _), rfl⟩

theorem bootFile_bad {f : SxiFile} (h : declFails f.tables.decl o s.js.boot.twinSel ≠ []) :
    s.bootFile o f =
      ((declFails f.tables.decl o s.js.boot.twinSel).foldl (fun s x => s.declMismatch x.1 x.2.1 x.2.2) s).enterSafe 10 :=
  if_neg (by simpa using h)

theorem bootFile_good {f : SxiFile} (h : declFails f.tables.decl o s.js.boot.twinSel = []) : s.bootFile o f = s.verify f o.ms :=
  if_pos (by simpa using h)

end

/-- Settles O49. -/
theorem bootEndsInSafeOrWithAnImage : Obligations.BootEndsInSafeOrWithAnImage := by
  intro s o hb hd hm fuses safe
  refine ⟨fun hn => ?_, fun hn hc he => ?_, fun cr r f hn hc hf hok hh => ⟨fun hx => ?_, fun hx => ?_⟩⟩
  · refine exec_run (fun s => s.bootEnds o) rfl ?_
    rw [bootEnds_no_flash (s := s.begin_) hb hd hn]
    exact ⟨rfl, rfl, rfl, rfl, rfl, rfl⟩
  · refine exec_run (fun s => s.bootEnds o) rfl ?_
    rw [bootEnds_no_record (s := s.begin_) hb hd hn hc]
    have hring : ((s.begin_.bootSeen o).imageInvalid false ⟨1, 0, 0, 0⟩).js.ring =
        (s.begin_.event 0x4D 0x0B01 2 [i1 (b2n false), i1 1, i2 0, i1 0, i4 0]).js.ring := rfl
    exact ⟨⟨rfl, rfl, rfl, rfl, rfl, rfl⟩, newest_code_of_one (r := s.begin_.js.ring) (evq_of_eventsIn he) hring,
      finish_irqFatal (event_mem ..) rfl⟩
  · refine exec_run (fun s => s.bootEnds o) rfl ?_
    rw [bootEnds_checked (s := s.begin_) hb hd hn hc hf ((congrArg f.bootFail (fusesSeen_none_missed (s := s.begin_) hm)).trans hok) hh,
      bootFile_bad (s := s.begin_.bootFrom o cr r) hx]
    obtain ⟨himg, -⟩ := mismatches_kept (declFails f.tables.decl o s.js.boot.twinSel) (s.begin_.bootFrom o cr r)
    obtain ⟨e, he, hs⟩ := mismatches_recorded hx (s.begin_.bootFrom o cr r)
    exact ⟨⟨rfl, rfl, rfl, rfl, rfl, himg⟩, finish_irqFatal he hs⟩
  · refine exec_run (fun s => s.bootEnds o) rfl ?_
    rw [bootEnds_checked (s := s.begin_) hb hd hn hc hf ((congrArg f.bootFail (fusesSeen_none_missed (s := s.begin_) hm)).trans hok) hh,
      bootFile_good (s := s.begin_.bootFrom o cr r) hx]
    refine ⟨rfl, rfl, rfl, rfl, rfl, rfl, rfl, rfl, rfl, rfl, rfl, rfl, fun he => ?_⟩
    exact congrArg RingBlock.head (finish_ring_of_none (evq_of_eventsIn he))

/-! ### Sequence numbers and run counts back at 0 (R138, R146) -/

/-- The state without the ring exchange and the Gazelle path, and without the replica comparison and the copy that waits for it. -/
def State.settled (s : State) : State :=
  { s.calm with jx := JxBlock.reset, jz := JzBlock.reset,
                ju := { s.ju with rep := Replica.reset, ownCopy := none, outSt := 0 } }

theorem settled_of_calm {s t : State} (h : t.calm = s.calm) : t.settled = s.settled := by
  have hs := congrArg (fun u : State => { u with jx := JxBlock.reset, jz := JzBlock.reset,
                                                 ju := { u.ju with rep := Replica.reset, ownCopy := none, outSt := 0 } }) h
  exact hs

section

variable (s : State)

@[simp] theorem dropWaiting_settled : s.dropWaiting.settled = s.settled := by
  have h : ((s.jx.rx ++ s.jx.early).foldl State.freeChunk s).calm = s.calm := foldl_view (fun s c => freeChunk_calm s c) _ s
  unfold State.dropWaiting
  dsimp only
  generalize (s.jx.rx ++ s.jx.early).foldl State.freeChunk s = u at h
  calc
    _ = u.settled := rfl
    _ = s.settled := settled_of_calm h

@[simp] theorem copyJudged_settled (agreed : Bool) : (s.copyJudged agreed).settled = s.settled := by
  unfold State.copyJudged
  cases agreed <;> split <;> rfl

@[simp] theorem gzReset_settled : s.gzReset.settled = s.settled := by
  have h : ((s.jz.held ++ s.jz.early).foldl (fun s c => s.cellFree c.port) s).calm = s.calm :=
    foldl_view (f := fun (s : State) (c : GzHeld) => s.cellFree c.port) (fun s c => cellFree_calm s c.port) _ s
  unfold State.gzReset
  dsimp only
  generalize (s.jz.held ++ s.jz.early).foldl (fun s c => s.cellFree c.port) s = u at h
  calc
    _ = u.settled := rfl
    _ = s.settled := settled_of_calm h

@[simp] theorem resetSeq_settled : s.resetSeq.settled = s.settled := by
  have h : s.dropWaiting.emptyPorts.settled = s.settled := (settled_of_calm (emptyPorts_calm _)).trans (dropWaiting_settled s)
  unfold State.resetSeq
  dsimp only
  generalize s.dropWaiting.emptyPorts = u at h
  generalize hv : ({ u with ju := { u.ju with rep := { u.ju.rep with cmp := none, minRes := none, maxRes := none } } } : State) = v
  have hvu : v.settled = u.settled := hv ▸ rfl
  generalize hw : v.copyJudged false = w
  have hwv : w.settled = v.settled := hw ▸ copyJudged_settled v false
  rw [gzReset_settled]
  calc
    _ = w.settled := rfl
    _ = s.settled := hwv.trans (hvu.trans h)

end

/-! ### The state tier as a schedule load leaves it (R184, R403) -/

theorem memGet_of_above {m : Mem} {a k : Nat} (hw : Memory.wf m = true) (h : memAbove k m = true) (ha : a ≤ k) : memGet m a = 0 := by
  cases m with
  | nil => rfl
  | cons p rest =>
    simp only [memAbove, decide_eq_true_eq] at h
    rw [memGet, if_pos (by omega)]

/-- A run cleared reads as zeros, and every other byte stays. -/
theorem memGet_memClear {m : Mem} (hw : Memory.wf m = true) (b n a : Nat) :
    memGet (memClear m b n) a = if b ≤ a ∧ a < b + n then 0 else memGet m a := by
  induction m with
  | nil => simp [memClear, memGet]
  | cons p rest ih =>
    obtain ⟨k, v⟩ := p
    simp only [Memory.wf, Bool.and_eq_true] at hw
    obtain ⟨⟨-, habove⟩, hrest⟩ := hw
    have hih := ih hrest
    unfold memClear at hih ⊢
    rw [List.filter_cons]
    have hlow (h : a ≤ k) : memGet rest a = 0 := memGet_of_above hrest habove h
    split
    next hk =>
      simp only [Bool.or_eq_true, decide_eq_true_eq] at hk
      rw [memGet, memGet, hih]
      split
      next => simp
      next hak =>
        split
        next heq => rw [if_neg (by omega)]
        next => rfl
    next hk =>
      simp only [Bool.or_eq_true, decide_eq_true_eq, not_or] at hk
      rw [hih, memGet]
      split
      next => rfl
      next hin =>
        split
        next hak => exact hlow (by omega)
        next hak => rw [if_neg (by omega)]

/-- Bytes written one by one leave every other byte. -/
theorem memGet_foldl_write {α : Type} (at_ : α → Nat) (v : α → Byte) (l : List α) {m : Mem} (hw : Memory.wf m = true) {a : Nat}
    (h : ∀ x ∈ l, a ≠ at_ x) :
    memGet (l.foldl (fun m x => memWrite m (at_ x) [v x]) m) a = memGet m a ∧
      Memory.wf (l.foldl (fun m x => memWrite m (at_ x) [v x]) m) = true := by
  induction l generalizing m with
  | nil => exact ⟨rfl, hw⟩
  | cons x l ih =>
    have hx := h x List.mem_cons_self
    obtain ⟨hget, hwf⟩ := ih (wf_memWrite [v x] m (at_ x) hw) fun y hy => h y (List.mem_cons_of_mem x hy)
    refine ⟨hget.trans (memGet_memWrite_out _ _ _ _ hw ?_), hwf⟩
    rw [List.length_singleton]
    omega

theorem wf_foldl {α : Type} {f : Mem → α → Mem} (h : ∀ m x, Memory.wf m = true → Memory.wf (f m x) = true) (l : List α) {m : Mem}
    (hw : Memory.wf m = true) : Memory.wf (l.foldl f m) = true := by
  induction l generalizing m with
  | nil => exact hw
  | cons x l ih => exact ih (h m x hw)

/-- The state without the state tier, the roots' slots and queue, and the memory ports. -/
def State.untiered (s : State) : State := { s.noPorts with stateMem := [] }

theorem setRoot_untiered (s : State) (tensor block : Nat) (e : RootEntry) : (s.setRoot tensor block e).untiered = s.untiered := by
  have h := congrArg (fun u : State => { u with stateMem := [] }) (stateWrite_noPorts s 0x2A (s.rootAddr tensor block) e.bytes)
  exact h

theorem rootEntry_bytes_length (e : RootEntry) : e.bytes.length = 16 := by
  simp [RootEntry.bytes, bytesLE]

/-- The entry of a block with both VALID bits cleared (R185). -/
def State.invalidate (s : State) (b : Nat × Nat) : State :=
  s.setRoot b.1 b.2 { s.rootEntry b.1 b.2 with lValid := false, rValid := false }

theorem rootAddr_of_untiered {s t : State} (h : t.untiered = s.untiered) (tensor block : Nat) :
    t.rootAddr tensor block = s.rootAddr tensor block := by
  have hi : t.image = s.image := (congrArg State.image h :)
  simp only [State.rootAddr, State.blockBase, State.cat, State.decl, State.img, hi]

/-- Clearing the VALID bits of blocks writes their directory entries alone. -/
theorem invalidate_effect (l : List (Nat × Nat)) (s : State) :
    (l.foldl State.invalidate s).untiered = s.untiered ∧
      (Memory.wf s.stateMem = true → ∀ a, (∀ b ∈ l, a < s.rootAddr b.1 b.2 ∨ s.rootAddr b.1 b.2 + 16 ≤ a) →
        memGet (l.foldl State.invalidate s).stateMem a = memGet s.stateMem a) := by
  induction l generalizing s with
  | nil => exact ⟨rfl, fun _ _ _ => rfl⟩
  | cons b l ih =>
    obtain ⟨hview, hget⟩ := ih (s.invalidate b)
    have hb : (s.invalidate b).untiered = s.untiered := setRoot_untiered ..
    refine ⟨hview.trans hb, fun hw a ha => ?_⟩
    have hwb : Memory.wf (s.invalidate b).stateMem = true := wf_memWrite _ _ _ hw
    refine (hget hwb a fun c hc => ?_).trans (memGet_memWrite_out _ _ _ _ hw ?_)
    · rw [rootAddr_of_untiered hb]
      exact ha c (List.mem_cons_of_mem b hc)
    · rw [rootEntry_bytes_length]
      exact ha b List.mem_cons_self

/-- What the schedule load leaves of the state tier: the factors are zeros, apart from the directory's and the scale records' bytes. -/
theorem loadUnbanked_effect (s : State) :
    ∃ m : Mem, s.loadUnbanked.noPorts =
        { s with stateMem := m, jk := { s.jk with merges := [], pool := [], finished := [], current := none, queue := [] },
                 jx := { s.jx with gatherCnt := [], gathers := [], xferCnt := [], xfers := [] }, jc := { s.jc with written := [] },
                 ju := { s.ju with heldCopies := [], inSt := 0, inStep := 0, ownCopy := none, outSt := 0, scans := [] } }.noPorts ∧
      (Memory.wf s.stateMem = true → ∀ a, s.decl.factBase ≤ a → a < s.decl.factBase + s.factRegion →
        (∀ b ∈ s.allBlocks, a < s.rootAddr b.1 b.2 ∨ s.rootAddr b.1 b.2 + 16 ≤ a) →
        (∀ n, n < s.img.catalogue.length → a ≠ s.scaleRec n + 64) → memGet m a = 0) := by
  unfold State.loadUnbanked
  extract_lets d cat n m1 m2 m3 m4 m5 k x c w u
  have hroots : u.clearRoots =
      let v := u.allBlocks.foldl State.invalidate u
      { v with jk := { v.jk with pool := [], finished := [], current := none, queue := [] } } := rfl
  obtain ⟨hview, hget⟩ := invalidate_effect u.allBlocks u
  refine ⟨u.clearRoots.stateMem, ?_, fun hw a hlo hhi hr hs => ?_⟩
  · rw [hroots]
    generalize u.allBlocks.foldl State.invalidate u = v at hview
    have h := congrArg (fun x : State => { x with
      stateMem := v.stateMem, jk := { x.jk with pool := [], finished := [], current := none, queue := [] } }) hview
    exact h
  · have hwm : Memory.wf m3 = true := by
      refine wf_memClear _ _ _ (wf_memClear _ _ _ (wf_memClear _ _ _ ?_))
      refine wf_foldl (fun m c h => wf_memClear _ _ _ h) _ (wf_foldl (fun m c h => wf_memClear _ _ _ h) _ hw)
    have hfact : memGet m4 a = 0 := by
      show memGet (memClear (memClear m3 d.factBase s.factRegion) d.rootBase (16 * s.allBlocks.length)) a = 0
      rw [memGet_memClear (wf_memClear _ _ _ hwm), memGet_memClear hwm, if_pos (And.intro hlo hhi), ite_self]
    obtain ⟨hm5, hw5⟩ := memGet_foldl_write (fun t => s.scaleRec t + 64) (fun t => BitVec.ofInt 8 (s.dirEntry t).eInit)
      (List.range n) (m := m4) (wf_memClear _ _ _ (wf_memClear _ _ _ hwm)) (a := a) fun t ht => hs t (List.mem_range.mp ht)
    exact (hget hw5 a hr).trans (hm5.trans hfact)

/-! ### Working copies (R208, R221) -/

/-- The state without host memory, the non-finite bits, the working copies' exponents and the memory ports. -/
def State.uncopied (s : State) : State :=
  { s.noPorts with hostMem := [], jg := { s.jg with nf := ⟨0, 0⟩ }, ju := { s.ju with wcExp := [] } }

section

variable (s : State)

theorem hostWrite_uncopied (unit a : Nat) (b : List Byte) : (s.hostWrite unit a b).uncopied = s.uncopied := by
  have h := congrArg (fun u : State => { u with hostMem := [], jg := { u.jg with nf := ⟨0, 0⟩ }, ju := { u.ju with wcExp := [] } })
    (hostWrite_noPorts s unit a b)
  exact h

theorem nonFiniteIf_uncopied (c : Bool) (u : NfUnit) : (s.nonFiniteIf c u).uncopied = s.uncopied := by
  cases c <;> rfl

theorem rewriteWc_uncopied (tensor : Nat) (c : CatEntry) : (s.rewriteWc tensor c).uncopied = s.uncopied := by
  refine foldl_view (g := State.uncopied) (fun s i => ?_) _ s
  split
  · rfl
  · dsimp only
    split
    · rfl
    · split <;> rw [nonFiniteIf_uncopied, hostWrite_uncopied]

theorem rewriteWcs_uncopied : s.rewriteWcs.uncopied = s.uncopied := by
  unfold State.rewriteWcs
  dsimp only
  split
  · rfl
  · have h : (s.img.catalogue.zipIdx.foldl (fun s p => s.rewriteWc p.2 p.1) s).uncopied = s.uncopied :=
      foldl_view (f := fun (s : State) (p : CatEntry × Nat) => s.rewriteWc p.2 p.1) (fun s p => rewriteWc_uncopied s p.2 p.1) _ s
    generalize s.img.catalogue.zipIdx.foldl (fun s p => s.rewriteWc p.2 p.1) s = u at h
    calc
      _ = u.uncopied := rfl
      _ = s.uncopied := h

end

/-! ### The schedule load (R21, R35–R37, R403) -/

/-- The state in which a schedule load writes the state tier: tables, epochs and step as they start. -/
def State.loadStarts (s : State) : State :=
  let cur := { s.live.cur with tileAdmit := 0, tileRetire := 0 }
  ({ s with live := ⟨cur, cur, none⟩,
            jg := { s.jg with epoch := { s.jg.epoch with current := 0, previous := 3, staged := false } },
            jq := { s.jq with step := s.decl.startStep, gen := false },
            js := { s.js with boot := { s.js.boot with state := 5 } } }).changeTiles
    (~~~s.live.cur.tileAdmit &&& BitVec.ofNat 48 (2 ^ gradeTiles s.js.boot.grade.toNat - 1)) 0

theorem loadTables_eq (s : State) :
    s.loadTables = s.loadStarts.loadUnbanked.resetSeq.maskRestart.densRestart.latchCoefs.rewriteWcs := rfl

/-- A coefficient depends on the curves, the bias origin and CLIP (R216). -/
theorem coef_congr {s t : State} (hc : t.live.cur.coefCurves = s.live.cur.coefCurves) (hi : t.image = s.image)
    (hk : t.ju.clip = s.ju.clip) : t.coef = s.coef := by
  funext n e
  unfold State.coef State.decl State.img
  rw [hc, hi, hk]

theorem phase_setPhase_same (s : State) {code : Nat} (h : code < 8) : (s.setPhase code true).phase code = true := by
  show (s.jq.phases ||| BitVec.ofNat 8 (2 ^ code)).getLsbD code = true
  rw [BitVec.getLsbD_or, BitVec.getLsbD_ofNat, Nat.testBit_two_pow_self, decide_eq_true h]
  exact Bool.or_true _

theorem phase_setPhase_of (s : State) {code k : Nat} (h : s.phase k = true) : (s.setPhase code true).phase k = true := by
  show (s.jq.phases ||| BitVec.ofNat 8 (2 ^ code)).getLsbD k = true
  rw [BitVec.getLsbD_or, show s.jq.phases.getLsbD k = true from h]
  exact Bool.true_or _

/-- What of the loaded state a schedule load leaves: the part that no obligation of the load's own speaks of. -/
structure Loaded (s t : State) : Prop where
  boot : t.js.boot = { s.js.boot with state := 5 }
  step : t.jq.step = s.decl.startStep
  gen : t.jq.gen = false
  epoch : t.jg.epoch = { s.jg.epoch with current := 0, previous := 3, staged := false }
  member : t.jg.member = s.jg.member
  roots : t.jk.merges = [] ∧ t.jk.pool = [] ∧ t.jk.finished = [] ∧ t.jk.current = none
  factors : Memory.wf s.stateMem = true → ∀ a, s.decl.factBase ≤ a → a < s.decl.factBase + s.factRegion →
    (∀ b ∈ s.allBlocks, a < s.rootAddr b.1 b.2 ∨ s.rootAddr b.1 b.2 + 16 ≤ a) →
    (∀ n, n < s.img.catalogue.length → a ≠ s.scaleRec n + 64) → memGet t.stateMem a = 0
  coefs : t.ju.kfile = s.live.cur.coefSets.map fun p => CoefFile.mk p.1 (p.2.map (s.coef s.decl.startStep.toNat))
  ports : ∀ p, (t.port p).state = (s.port p).state

theorem loadTables_loaded (s : State) : Loaded s s.loadTables := by
  rw [loadTables_eq]
  obtain ⟨m, hview, hzero⟩ := loadUnbanked_effect s.loadStarts
  generalize s.loadStarts.loadUnbanked = u at hview
  have hs := resetSeq_settled u
  generalize u.resetSeq = v at hs
  have hw := rewriteWcs_uncopied v.maskRestart.densRestart.latchCoefs
  generalize hl : v.maskRestart.densRestart.latchCoefs = x at hw
  generalize x.rewriteWcs = w at hw
  have hjs : w.js = { s.js with boot := { s.js.boot with state := 5 } } :=
    (congrArg State.js hw :).trans ((hl ▸ rfl : x.js = v.js).trans ((congrArg State.js hs :).trans (congrArg State.js hview :)))
  have hjq : v.jq = { s.jq with step := s.decl.startStep, gen := false } :=
    (congrArg State.jq hs :).trans (congrArg State.jq hview :)
  have hstep : w.jq.step = v.jq.step := (congrArg (fun u : State => u.jq.step) hw :).trans (hl ▸ rfl)
  have hgen : w.jq.gen = v.jq.gen := (congrArg (fun u : State => u.jq.gen) hw :).trans (hl ▸ rfl)
  have hjg : v.jg = s.loadStarts.jg := (congrArg State.jg hs :).trans (congrArg State.jg hview :)
  have hepoch : w.jg.epoch = v.jg.epoch := (congrArg (fun u : State => u.jg.epoch) hw :).trans (hl ▸ rfl)
  have hmember : w.jg.member = v.jg.member := (congrArg (fun u : State => u.jg.member) hw :).trans (hl ▸ rfl)
  have hjk : w.jk = { s.jk with merges := [], pool := [], finished := [], current := none, queue := [] } :=
    (congrArg State.jk hw :).trans ((hl ▸ rfl : x.jk = v.jk).trans ((congrArg State.jk hs :).trans (congrArg State.jk hview :)))
  have hmem : w.stateMem = m :=
    (congrArg State.stateMem hw :).trans ((hl ▸ rfl : x.stateMem = v.stateMem).trans
      ((congrArg State.stateMem hs :).trans (congrArg State.stateMem hview :)))
  have hlive : v.live = s.loadStarts.live := (congrArg State.live hs :).trans (congrArg State.live hview :)
  have himg : v.image = s.image := (congrArg State.image hs :).trans (congrArg State.image hview :)
  have hclip : v.ju.clip = s.ju.clip :=
    (congrArg (fun u : State => u.ju.clip) hs :).trans (congrArg (fun u : State => u.ju.clip) hview :)
  have hcoef : v.maskRestart.densRestart.coef = s.coef :=
    coef_congr (congrArg (fun l : LiveSet => l.cur.coefCurves) hlive :) himg hclip
  have hports (p : Nat) : (w.port p).state = (s.port p).state := by
    have h1 : (w.port p).state = (v.port p).state := (congrArg (fun u : State => (u.port p).state) hw :).trans (hl ▸ rfl)
    have h2 : (v.port p).state = (u.port p).state :=
      (congrArg PeerPort.state (still_of_ports (s := u) (t := v) (congrArg (fun u : State => u.jl.ports) hs :) p) :)
    exact h1.trans (h2.trans (congrArg (fun u : State => (u.port p).state) hview :))
  refine ⟨congrArg JsBlock.boot hjs, hstep.trans (congrArg JqBlock.step hjq), hgen.trans (congrArg JqBlock.gen hjq),
    hepoch.trans (congrArg JgBlock.epoch hjg :), hmember.trans (congrArg JgBlock.member hjg :), ?_, ?_, ?_, hports⟩
  · rw [hjk]
    exact ⟨rfl, rfl, rfl, rfl⟩
  · rw [hmem]
    exact hzero
  · have hk : w.ju.kfile = v.live.cur.coefSets.map fun p => CoefFile.mk p.1 (p.2.map (v.maskRestart.densRestart.coef v.jq.step.toNat)) :=
      (congrArg (fun u : State => u.ju.kfile) hw :).trans (hl ▸ rfl)
    rw [hk, hcoef, hlive, hjq]
    rfl

/-- What a schedule load leaves: the tables, and LEARN with ROOTS and INTAKE active. -/
structure Started (s t : State) : Prop where
  loaded : Loaded s t
  running : t.jq.running = true
  quiesced : t.jq.quiesced = false
  intake : t.phase 0 = true
  roots : t.phase 5 = true

theorem startSchedule_started (s : State) : Started s s.startSchedule := by
  have h := loadTables_loaded s
  unfold State.startSchedule
  generalize s.loadTables = u at h
  refine ⟨?_, rfl, rfl, phase_setPhase_same _ (by decide), phase_setPhase_of _ (phase_setPhase_same _ (by decide))⟩
  exact ⟨h.boot, h.step, h.gen, h.epoch, h.member, h.roots, h.factors, h.coefs, h.ports⟩

/-! ### Ports that are not UP at the end of BOOT_WAIT (R263, R362) -/

/-- The state without the ports, the member, the ring and what is driven. -/
def State.unlinked (s : State) : State :=
  { s with out := [], jl := { s.jl with ports := [] }, jx := { s.jx with stage := [] },
           jg := { s.jg with member := State.reset.jg.member }, js := { s.js with ring := EvBlockReset } }

theorem memberFail_unlinked (s : State) (cause : Nat) : (s.memberFail cause).unlinked = s.unlinked := by
  unfold State.memberFail
  split
  · rfl
  · dsimp only
    split <;> rfl

theorem bootPortFail_unlinked (s : State) (p : Nat) : (s.bootPortFail p).unlinked = s.unlinked := by
  unfold State.bootPortFail
  dsimp only
  split
  · rfl
  · rw [memberFail_unlinked]
    split <;> rfl

theorem memberFail_jl (s : State) (cause : Nat) : (s.memberFail cause).jl = s.jl := by
  unfold State.memberFail
  split
  · rfl
  · dsimp only
    split <;> rfl

/-- The state of a port that has not come UP in BOOT_WAIT. -/
def bootState (x : BitVec 3) : BitVec 3 := if x = 4 ∨ x = 5 ∨ x = 6 then x else 7

theorem bootState_bootState (x : BitVec 3) : bootState (bootState x) = bootState x := by
  revert x
  decide

theorem bootPortFail_port (s : State) (p q : Nat) (hq : q < s.jl.ports.length) :
    ((s.bootPortFail p).port q).state = if q = p then bootState (s.port q).state else (s.port q).state := by
  unfold State.bootPortFail
  dsimp only
  split
  next h =>
    split
    next hqp =>
      subst hqp
      rcases h with h | h <;> rw [h] <;> rfl
    next => rfl
  next h =>
    have hp (u : State) : ((u.memberFail 2).port q) = u.port q := by rw [State.port, memberFail_jl]; rfl
    rw [hp]
    split
    next h6 =>
      split
      next hqp =>
        subst hqp
        rw [h6]
        rfl
      next => rfl
    next h6 =>
      split
      next hqp =>
        subst hqp
        have hset := modifyNth_getD_same (fun x : PeerPort => { x.fresh with state := 7, attempt := 0, partnerValid := false }) q
          s.jl.ports PeerPort.reset hq
        refine (congrArg PeerPort.state hset :).trans ?_
        have hx : ¬ ((s.port q).state = 4 ∨ (s.port q).state = 5 ∨ (s.port q).state = 6) := by tauto
        rw [bootState, if_neg hx]
      next hqp =>
        exact (congrArg PeerPort.state (modifyNth_getD_ne (fun x : PeerPort =>
          { x.fresh with state := 7, attempt := 0, partnerValid := false }) p q s.jl.ports PeerPort.reset hqp) :)

theorem bootPortFail_length (s : State) (p : Nat) : (s.bootPortFail p).jl.ports.length = s.jl.ports.length := by
  unfold State.bootPortFail
  dsimp only
  split
  · rfl
  · rw [memberFail_jl]
    split
    · rfl
    · exact modifyNth_length ..

theorem bootPortFail_failed (s : State) (p : Nat) (h : s.jg.member.state = 2) : (s.bootPortFail p).jg.member.state = 2 := by
  unfold State.bootPortFail
  dsimp only
  split
  · exact h
  · exact (memberFail_spec _ 2).2.2.2.2.2.1

theorem bootPorts_unlinked (l : List Nat) (s : State) : (l.foldl State.bootPortFail s).unlinked = s.unlinked :=
  foldl_view (fun s p => bootPortFail_unlinked s p) l s

theorem bootPorts_failed (l : List Nat) (s : State) (h : s.jg.member.state = 2) :
    (l.foldl State.bootPortFail s).jg.member.state = 2 := by
  induction l generalizing s with
  | nil => exact h
  | cons p l ih => exact ih _ (bootPortFail_failed s p h)

theorem bootPorts_up (l : List Nat) (s : State) (h : ∀ p ∈ l, (s.port p).state = 4 ∨ (s.port p).state = 5) :
    l.foldl State.bootPortFail s = s := by
  induction l generalizing s with
  | nil => rfl
  | cons p l ih =>
    have hp : s.bootPortFail p = s := if_pos (h p List.mem_cons_self)
    rw [List.foldl_cons, hp]
    exact ih s fun q hq => h q (List.mem_cons_of_mem p hq)

theorem bootPorts_port (l : List Nat) (s : State) (q : Nat) (hq : q < s.jl.ports.length) :
    ((l.foldl State.bootPortFail s).port q).state = if q ∈ l then bootState (s.port q).state else (s.port q).state := by
  induction l generalizing s with
  | nil => rfl
  | cons p l ih =>
    rw [List.foldl_cons, ih _ (by rw [bootPortFail_length]; exact hq), bootPortFail_port s p q hq]
    by_cases hqp : q = p
    · subst hqp
      simp [bootState_bootState]
    · simp [hqp]

/-- A port of the list that is not UP fails the member. -/
theorem bootPorts_member (l : List Nat) (s : State) (q : Nat) (hq : q ∈ l)
    (h : ¬((s.port q).state = 4 ∨ (s.port q).state = 5)) : (l.foldl State.bootPortFail s).jg.member.state = 2 := by
  induction l generalizing s with
  | nil => exact absurd hq (by simp)
  | cons p l ih =>
    rw [List.foldl_cons]
    by_cases hqp : q = p
    · subst hqp
      refine bootPorts_failed l _ ?_
      rw [State.bootPortFail, if_neg h]
      exact (memberFail_spec _ 2).2.2.2.2.2.1
    · by_cases hp : (s.port p).state = 4 ∨ (s.port p).state = 5
      · rw [show s.bootPortFail p = s from if_pos hp]
        exact ih s ((List.mem_cons.mp hq).resolve_left hqp) h
      · refine bootPorts_failed l _ ?_
        rw [State.bootPortFail, if_neg hp]
        exact (memberFail_spec _ 2).2.2.2.2.2.1

theorem loadDue_up {s : State} (h : s.portsUp = true) {d : PeerDecl} (hd : d ∈ s.decl.peers) :
    (s.port d.port).state = 4 ∨ (s.port d.port).state = 5 := by
  have hx := List.all_eq_true.mp h d hd
  simpa using hx

/-- A load on a state that differs from `s` in its ports, member, ring and traffic alone. -/
theorem loaded_of_unlinked {s u t : State} (hview : u.unlinked = s.unlinked) (h : Loaded u t) :
    t.jq.step = s.decl.startStep ∧
      (Memory.wf s.stateMem = true → ∀ a, s.decl.factBase ≤ a → a < s.decl.factBase + s.factRegion →
        (∀ b ∈ s.allBlocks, a < s.rootAddr b.1 b.2 ∨ s.rootAddr b.1 b.2 + 16 ≤ a) →
        (∀ n, n < s.img.catalogue.length → a ≠ s.scaleRec n + 64) → memGet t.stateMem a = 0) ∧
      t.ju.kfile = s.live.cur.coefSets.map fun p => CoefFile.mk p.1 (p.2.map (s.coef s.decl.startStep.toNat)) := by
  have hdecl : u.decl = s.decl := (congrArg State.decl hview :)
  have hcoef : u.coef = s.coef := (congrArg State.coef hview :)
  have hlive : u.live = s.live := (congrArg State.live hview :)
  have hmem : u.stateMem = s.stateMem := (congrArg State.stateMem hview :)
  have hregion : u.factRegion = s.factRegion := (congrArg State.factRegion hview :)
  have hblocks : u.allBlocks = s.allBlocks := (congrArg State.allBlocks hview :)
  have haddr : u.rootAddr = s.rootAddr := (congrArg State.rootAddr hview :)
  have himg : u.img = s.img := (congrArg State.img hview :)
  have hscale : u.scaleRec = s.scaleRec := (congrArg State.scaleRec hview :)
  have hstep := h.step
  have hfact := h.factors
  have hcoefs := h.coefs
  rw [hdecl] at hstep hcoefs hfact
  rw [hcoef, hlive] at hcoefs
  rw [hmem, hregion, hblocks, haddr, himg, hscale] at hfact
  exact ⟨hstep, hfact, hcoefs⟩

theorem bootWaitOver_due {s : State} (h : s.loadDue = true) :
    s.bootWaitOver = ((s.decl.peers.map PeerDecl.port).foldl State.bootPortFail s).startSchedule := by
  rw [State.bootWaitOver, h]
  rfl

/-- Settles O50: every load is `startSchedule` on a state that differs from the first in its ports, member and ring alone. -/
theorem theScheduleLoads : Obligations.TheScheduleLoads := by
  intro s hdue loads
  have hload (c : Instr) (u : State) (g : State → State) (hc : exec c s = run g s) (hg : g s.begin_ = u.startSchedule)
      (hview : u.unlinked = s.unlinked) (hup : s.portsUp = true → u.jg.member = s.jg.member)
      (hpeers : ∀ d ∈ s.decl.peers, (s.port d.port).state ≠ 4 → (s.port d.port).state ≠ 5 → u.jg.member.state = 2 ∧
        (d.port < s.jl.ports.length → (u.port d.port).state = if (s.port d.port).state = 6 then 6 else 7)) : loads c := by
    obtain ⟨h, hrun, hq, h0, h5⟩ := startSchedule_started u
    obtain ⟨hstep, hfact, hcoefs⟩ := loaded_of_unlinked hview h
    obtain ⟨hmerges, hpool, hfin, hcur⟩ := h.roots
    refine exec_run g hc ?_
    rw [hg]
    generalize u.startSchedule = t at *
    refine ⟨congrArg BootBlock.state h.boot, hstep, h.gen, hrun, hq, congrArg EpochBlock.current h.epoch,
      congrArg EpochBlock.previous h.epoch, congrArg EpochBlock.staged h.epoch, h0, h5, hmerges, hpool, hfin, hcur, hfact, hcoefs,
      fun hu => h.member.trans (hup hu), fun d hd h4 h5 => ?_⟩
    obtain ⟨hm, hp⟩ := hpeers d hd h4 h5
    exact ⟨(congrArg MemberBlock.state h.member).trans hm, fun hl => (h.ports d.port).trans (hp hl)⟩
  have hall (hup : s.portsUp = true) (d : PeerDecl) (hd : d ∈ s.decl.peers) (h4 : (s.port d.port).state ≠ 4)
      (h5 : (s.port d.port).state ≠ 5) : False := absurd (loadDue_up hup hd) (not_or.mpr ⟨h4, h5⟩)
  have hfails := bootPorts_unlinked (s.decl.peers.map PeerDecl.port) s.begin_
  have hwait := bootWaitOver_due (s := s.begin_) hdue
  refine ⟨fun hup => ⟨?_, ?_⟩, fun hup => ?_⟩
  · refine hload .scheduleLoad s.begin_ (fun s => if s.loadDue && s.portsUp then s.startSchedule else s) rfl (if_pos ?_) rfl
      (fun _ => rfl) (fun d hd h4 h5 => (hall hup d hd h4 h5).elim)
    exact Bool.and_eq_true_iff.mpr ⟨hdue, hup⟩
  · have hu := bootPorts_up (s.decl.peers.map PeerDecl.port) s.begin_ fun p hp => by
      obtain ⟨d, hd, rfl⟩ := List.mem_map.mp hp
      exact loadDue_up hup hd
    exact hload .bootWaitExpiry _ State.bootWaitOver rfl hwait hfails
      (fun _ => (congrArg (fun u : State => u.jg.member) hu :).trans rfl) (fun d hd h4 h5 => (hall hup d hd h4 h5).elim)
  · refine hload .bootWaitExpiry _ State.bootWaitOver rfl hwait hfails
      (fun h => absurd (hup.symm.trans h) Bool.false_ne_true) fun d hd h4 h5 => ?_
    have hmem : d.port ∈ s.decl.peers.map PeerDecl.port := List.mem_map_of_mem hd
    refine ⟨bootPorts_member _ s.begin_ d.port hmem (not_or.mpr ⟨h4, h5⟩), fun hl => ?_⟩
    refine (bootPorts_port _ s.begin_ d.port hl).trans ((if_pos hmem).trans ?_)
    show bootState (s.port d.port).state = _
    rw [bootState]
    split <;> split <;> simp_all

end Sys2Proof.Machine
end

section
namespace Sys2Proof.Machine

/-! ### State copies (R229-R232, R365, R366) -/

/-! ### A restore (R232) -/

/-- The state without the memories, the memory ports, and what rewriting the working copies marks. -/
def State.bare (s : State) : State := { s.uncopied with stateMem := [] }

theorem bare_of_uncopied {s t : State} (h : t.uncopied = s.uncopied) : t.bare = s.bare :=
  (congrArg (fun u : State => { u with stateMem := [] }) h :)

theorem stateWrite_bare (s : State) (unit a : Nat) (b : List Byte) : (s.stateWrite unit a b).bare = s.bare :=
  (congrArg (fun u : State => { u with stateMem := [], hostMem := [], jg := { u.jg with nf := ⟨0, 0⟩ },
                                       ju := { u.ju with wcExp := [] } }) (stateWrite_noPorts s unit a b) :)

theorem hostWrite_stateMem (s : State) (unit a : Nat) (b : List Byte) : (s.hostWrite unit a b).stateMem = s.stateMem :=
  (congrArg State.stateMem (hostWrite_noPorts s unit a b) :)

/-- Cutting a stream into areas writes the memories alone, and keeps the state tier canonical. -/
theorem writeAreas_effect (l : List (Bool × Nat × Nat)) (s : State) (data : List Byte) :
    (s.writeAreas data l).1.bare = s.bare ∧
      (Memory.wf s.stateMem = true → Memory.wf (s.writeAreas data l).1.stateMem = true) := by
  induction l generalizing s data with
  | nil => exact ⟨rfl, id⟩
  | cons a l ih =>
    rw [State.writeAreas]
    obtain ⟨hview, hwf⟩ := ih (if a.1 then s.hostWrite 0x31 a.2.1 (data.take a.2.2) else s.stateWrite 0x31 a.2.1 (data.take a.2.2))
      (data.drop a.2.2)
    refine ⟨hview.trans ?_, fun hw => hwf ?_⟩
    · split
      · exact bare_of_uncopied (hostWrite_uncopied ..)
      · exact stateWrite_bare ..
    · split
      · rw [hostWrite_stateMem]
        exact hw
      · exact wf_memWrite _ _ _ hw

/-- Clearing every root leaves no root in the pool, and every byte outside the directory's entries. -/
theorem clearRoots_effect (s : State) :
    s.clearRoots.untiered = { s with jk := { s.jk with pool := [], finished := [], current := none, queue := [] } }.untiered ∧
      (Memory.wf s.stateMem = true → ∀ a, (∀ b ∈ s.allBlocks, a < s.rootAddr b.1 b.2 ∨ s.rootAddr b.1 b.2 + 16 ≤ a) →
        memGet s.clearRoots.stateMem a = memGet s.stateMem a) := by
  have hroots : s.clearRoots =
      let v := s.allBlocks.foldl State.invalidate s
      { v with jk := { v.jk with pool := [], finished := [], current := none, queue := [] } } := rfl
  obtain ⟨hview, hget⟩ := invalidate_effect s.allBlocks s
  rw [hroots]
  generalize s.allBlocks.foldl State.invalidate s = v at hview hget
  exact ⟨(congrArg (fun x : State => { x with jk := { x.jk with pool := [], finished := [], current := none, queue := [] } }) hview :),
    hget⟩

/-- A reset of the Gazelle path empties its runs, and grants the credits of what it held. -/
theorem gzReset_calm (s : State) :
    s.gzReset.calm = { s with jz := { s.jz with runs := [], reds := [], held := [], early := [] } }.calm := by
  have h : ((s.jz.held ++ s.jz.early).foldl (fun s c => s.cellFree c.port) s).calm = s.calm :=
    foldl_view (f := fun (s : State) (c : GzHeld) => s.cellFree c.port) (fun s c => cellFree_calm s c.port) _ s
  unfold State.gzReset
  dsimp only
  generalize (s.jz.held ++ s.jz.early).foldl (fun s c => s.cellFree c.port) s = v at h
  exact (congrArg (fun u : State => { u with jz := { u.jz with runs := [], reds := [], held := [], early := [] } }) h :)

/-- The ring exchange with its sequence numbers at 0 and nothing received, carried or held. -/
def State.seqZero (s : State) : State :=
  { s with jx := { s.jx with
    seqTx := [], seqRx := [], rx := [], early := [], late := [], ownNow := 0, upNow := List.replicate 6 0, carries := [], hold := [],
    stage := [], gathers := s.jx.gathers.filter GatherRun.flagged, xfers := s.jx.xfers.filter XferRun.flagged } }

/-- A block whose traffic is given up, and whose replica comparison with it. -/
def State.givenUp (s : State) : State :=
  let u := s.dropWaiting.emptyPorts
  State.copyJudged { u with ju := { u.ju with rep := { u.ju.rep with cmp := none, minRes := none, maxRes := none } } } false

theorem resetSeq_eq (s : State) : s.resetSeq = s.givenUp.seqZero.gzReset := by
  unfold State.resetSeq State.seqZero State.givenUp
  with_reducible rfl

/-- A reset of the sequence numbers empties the counters of the ring exchange and the runs of the Gazelle path. -/
theorem resetSeq_empties (s : State) :
    s.resetSeq.jx.seqTx = [] ∧ s.resetSeq.jx.seqRx = [] ∧ s.resetSeq.jx.rx = [] ∧ s.resetSeq.jz.runs = [] ∧
      s.resetSeq.jz.held = [] := by
  rw [resetSeq_eq]
  generalize s.givenUp = v
  have h := gzReset_calm v.seqZero
  exact ⟨(congrArg (fun s : State => s.jx.seqTx) h :), (congrArg (fun s : State => s.jx.seqRx) h :),
    (congrArg (fun s : State => s.jx.rx) h :), (congrArg (fun s : State => s.jz.runs) h :),
    (congrArg (fun s : State => s.jz.held) h :)⟩

/-- The part of a restore that reads the copied bytes into the new bank, with the working copies made from it. -/
def State.restoreBank (s : State) (h : CopyHdr) (data : List Byte) : State :=
  let r := (s.writeAreas data (s.copyAreas ((h.step + 1).toNat % 2))).1
  State.rewriteWcs { r with jq := { r.jq with step := h.step + 1 } }

/-- The part that brings residuals and factors back, or zeros them. -/
def State.restoreSide (s : State) (ext : Bool) (rest : List Byte) : State :=
  if ext then (s.writeAreas rest (s.resAreas ++ s.factAreas)).1
  else
    { s with stateMem := memClear (s.img.catalogue.foldl (fun m c => memClear m c.resBase (c.resBytes * c.elems)) s.stateMem)
                                  s.decl.factBase s.factRegion }

/-- The part that starts the member anew. -/
def State.restoreStarts (s : State) : State :=
  (State.clearRoots { s with jk := { s.jk with merges := [] }, ju := { s.ju with scans := [], outSt := 0, ownCopy := none },
                             ji := { s.ji with sketches := [] } }).resetSeq.maskRestart.densRestart.latchCoefs

theorem restore_eq (s : State) (h : CopyHdr) (data : List Byte) :
    s.restore h data = ((s.restoreBank h data).restoreSide h.ext
      (s.writeAreas data (s.copyAreas ((h.step + 1).toNat % 2))).2).restoreStarts := rfl

theorem restoreBank_effect (s : State) (h : CopyHdr) (data : List Byte) :
    (s.restoreBank h data).bare = { s with jq := { s.jq with step := h.step + 1 } }.bare ∧
      (Memory.wf s.stateMem = true → Memory.wf (s.restoreBank h data).stateMem = true) := by
  obtain ⟨hr, hrw⟩ := writeAreas_effect (s.copyAreas ((h.step + 1).toNat % 2)) s data
  unfold State.restoreBank
  extract_lets r
  have hc := rewriteWcs_uncopied { r with jq := { r.jq with step := h.step + 1 } }
  generalize State.rewriteWcs _ = c at hc
  refine ⟨(bare_of_uncopied hc).trans (congrArg (fun u : State => { u with jq := { u.jq with step := h.step + 1 } }) hr :), fun hw => ?_⟩
  have hm : c.stateMem = r.stateMem := (congrArg State.stateMem hc :)
  rw [hm]
  exact hrw hw

theorem restoreSide_effect (s : State) (ext : Bool) (rest : List Byte) :
    (s.restoreSide ext rest).bare = s.bare ∧
      (ext = false → Memory.wf s.stateMem = true → Memory.wf (s.restoreSide ext rest).stateMem = true ∧
        ∀ a, s.decl.factBase ≤ a → a < s.decl.factBase + s.factRegion → memGet (s.restoreSide ext rest).stateMem a = 0) := by
  cases ext with
  | true => exact ⟨(writeAreas_effect _ s rest).1, fun h => absurd h.symm Bool.false_ne_true⟩
  | false =>
    refine ⟨rfl, fun _ hw => ?_⟩
    have hm := wf_foldl (f := fun m (c : CatEntry) => memClear m c.resBase (c.resBytes * c.elems)) (fun m c h => wf_memClear _ _ _ h)
      s.img.catalogue hw
    refine ⟨wf_memClear _ _ _ hm, fun a hlo hhi => (memGet_memClear hm ..).trans (if_pos ⟨hlo, hhi⟩)⟩

theorem restoreStarts_effect (s : State) :
    s.restoreStarts.jq.step = s.jq.step ∧ s.restoreStarts.js = s.js ∧ s.restoreStarts.jg.member = s.jg.member ∧
      s.restoreStarts.jx.seqTx = [] ∧ s.restoreStarts.jx.seqRx = [] ∧ s.restoreStarts.jz.runs = [] ∧
      s.restoreStarts.jk.merges = [] ∧ s.restoreStarts.jk.pool = [] ∧ s.restoreStarts.jk.finished = [] ∧
      (Memory.wf s.stateMem = true → ∀ a, (∀ b ∈ s.allBlocks, a < s.rootAddr b.1 b.2 ∨ s.rootAddr b.1 b.2 + 16 ≤ a) →
        memGet s.restoreStarts.stateMem a = memGet s.stateMem a) := by
  unfold State.restoreStarts
  obtain ⟨hroots, hmem⟩ := clearRoots_effect { s with
    jk := { s.jk with merges := [] }, ju := { s.ju with scans := [], outSt := 0, ownCopy := none }, ji := { s.ji with sketches := [] } }
  generalize State.clearRoots _ = u at hroots hmem
  have hs := resetSeq_settled u
  obtain ⟨htx, hrx, -, hruns, -⟩ := resetSeq_empties u
  generalize u.resetSeq = v at hs htx hrx hruns
  have hjq : v.jq = s.jq := (congrArg State.jq hs :).trans (congrArg State.jq hroots :)
  have hjs : v.js = s.js := (congrArg State.js hs :).trans (congrArg State.js hroots :)
  have hjg : v.jg = s.jg := (congrArg State.jg hs :).trans (congrArg State.jg hroots :)
  have hjk : v.jk = { s.jk with merges := [], pool := [], finished := [], current := none, queue := [] } :=
    (congrArg State.jk hs :).trans (congrArg State.jk hroots :)
  have hv : v.stateMem = u.stateMem := (congrArg State.stateMem hs :)
  exact ⟨(congrArg JqBlock.step hjq :), hjs, (congrArg JgBlock.member hjg :), htx, hrx, hruns, congrArg JkBlock.merges hjk,
    congrArg JkBlock.pool hjk, congrArg JkBlock.finished hjk, fun hw a ha => (congrArg (memGet · a) hv).trans (hmem hw a ha)⟩

/-- A restore: the step of its copy, and what R232 empties. -/
theorem restore_effect (s : State) (h : CopyHdr) (data : List Byte) :
    (s.restore h data).jq.step = h.step + 1 ∧ (s.restore h data).js = s.js ∧ (s.restore h data).jg.member = s.jg.member ∧
      (s.restore h data).jx.seqTx = [] ∧ (s.restore h data).jx.seqRx = [] ∧ (s.restore h data).jz.runs = [] ∧
      (s.restore h data).jk.merges = [] ∧ (s.restore h data).jk.pool = [] ∧ (s.restore h data).jk.finished = [] ∧
      (h.ext = false → Memory.wf s.stateMem = true → ∀ a, s.decl.factBase ≤ a → a < s.decl.factBase + s.factRegion →
        (∀ b ∈ s.allBlocks, a < s.rootAddr b.1 b.2 ∨ s.rootAddr b.1 b.2 + 16 ≤ a) → memGet (s.restore h data).stateMem a = 0) := by
  rw [restore_eq]
  obtain ⟨hb, hbw⟩ := restoreBank_effect s h data
  generalize s.restoreBank h data = b at hb hbw
  obtain ⟨hd, hdm⟩ := restoreSide_effect b h.ext (s.writeAreas data (s.copyAreas ((h.step + 1).toNat % 2))).2
  generalize b.restoreSide h.ext _ = d at hd hdm
  have hdb := hd.trans hb
  obtain ⟨hstep, hjs, hmember, htx, hrx, hruns, hmerges, hpool, hfin, hmem⟩ := restoreStarts_effect d
  have hblocks : d.allBlocks = s.allBlocks := (congrArg State.allBlocks hdb :)
  have haddr : d.rootAddr = s.rootAddr := (congrArg State.rootAddr hdb :)
  have hdecl : b.decl = s.decl := (congrArg State.decl hb :)
  have hregion : b.factRegion = s.factRegion := (congrArg State.factRegion hb :)
  refine ⟨hstep.trans (congrArg (fun u : State => u.jq.step) hdb :), hjs.trans (congrArg State.js hdb :),
    hmember.trans (congrArg (fun u : State => u.jg.member) hdb :), htx, hrx, hruns, hmerges, hpool, hfin, fun he hw a hlo hhi ha => ?_⟩
  obtain ⟨hdw, hzero⟩ := hdm he (hbw hw)
  rw [hmem hdw a (by rw [hblocks, haddr]; exact ha)]
  exact hzero a (by rw [hdecl]; exact hlo) (by rw [hdecl, hregion]; exact hhi)

/-! ### Copies that arrive (R230, R365, R366) -/

theorem takePieces_fields (s : State) :
    s.takePieces.jg = s.jg ∧ s.takePieces.jq = s.jq ∧ s.takePieces.ji = s.ji ∧ s.takePieces.jz = s.jz ∧
    s.takePieces.jk = s.jk ∧ s.takePieces.ju = s.ju ∧ s.takePieces.je = s.je ∧ s.takePieces.jc = s.jc ∧
    s.takePieces.js = s.js ∧ s.takePieces.jp = s.jp ∧ s.takePieces.jt = s.jt ∧ s.takePieces.tiles = s.tiles ∧
    s.takePieces.nvm = s.nvm ∧ s.takePieces.fuses = s.fuses ∧ s.takePieces.imageHdr = s.imageHdr ∧ s.takePieces.image = s.image ∧
    s.takePieces.live = s.live ∧ s.takePieces.hostMem = s.hostMem ∧ s.takePieces.stateMem = s.stateMem ∧ s.takePieces.scratch = s.scratch ∧
    s.takePieces.staging = s.staging ∧ s.takePieces.ethBuf = s.ethBuf ∧ s.takePieces.pins = s.pins ∧ s.takePieces.freeCnt = s.freeCnt ∧
    s.takePieces.pending = s.pending :=
  calm_fields (takePieces_calm s)

theorem takePieces_me (s : State) : s.takePieces.me = s.me := by
  simp only [State.me, State.decl, State.img, takePieces_fields]

section

variable {s : State}

theorem headerIn_eq (h : CopyHdr) :
    s.headerIn h = { s.takePieces with ju := { s.ju with inSt := 1, inStep := h.step.setWidth 32,
                                                         heldCopies := ⟨h, [], 1⟩ :: s.ju.heldCopies.filter fun x => x.hdr.src != h.src } } := by
  simp only [State.headerIn, State.holdCopy, takePieces_fields]

theorem trailerIn_good {c : HeldCopy} {src : W16} {data : List Byte} {crc : W64}
    (h : s.ju.heldCopies.find? (fun c => c.hdr.src == src && c.st == 1) = some c) (hc : crc64 data = crc) :
    s.trailerIn src data crc = { s.takePieces with
      ju := { s.ju with inSt := 2, inStep := c.hdr.step.setWidth 32,
                        heldCopies := ⟨c.hdr, data, 2⟩ :: s.ju.heldCopies.filter fun x => x.hdr.src != c.hdr.src } } := by
  simp only [State.trailerIn, h, hc, if_true, State.holdCopy, takePieces_fields]

theorem trailerIn_bad {c : HeldCopy} {src : W16} {data : List Byte} {crc : W64}
    (h : s.ju.heldCopies.find? (fun c => c.hdr.src == src && c.st == 1) = some c) (hc : crc64 data ≠ crc) :
    s.trailerIn src data crc = State.event { s.takePieces with
      ju := { s.ju with inSt := 3, inStep := c.hdr.step.setWidth 32,
                        heldCopies := ⟨c.hdr, [], 3⟩ :: s.ju.heldCopies.filter fun x => x.hdr.src != c.hdr.src,
                        fails := stick s.ju.fails 1 } } 0x31 0x0603 1 [i2 src.toNat, i8 c.hdr.step.toNat, i1 1] := by
  simp only [State.trailerIn, h, if_neg hc, State.holdCopy, takePieces_fields]

variable {h : CopyHdr} {data : List Byte} {crc : W64}

theorem relaysCopy_takePieces : s.takePieces.relaysCopy h = (h.src.toNat != s.me && s.jq.quiesced && s.jg.member.state != 2) := by
  simp only [State.relaysCopy, takePieces_me, takePieces_fields]

theorem cmdRuns_takePieces (code : Nat) : s.takePieces.cmdRuns code = s.cmdRuns code := by
  simp only [State.cmdRuns, takePieces_fields]

theorem restoreIn_passes (hr : s.inReset = false) (hm : h.src.toNat ≠ s.me) (hq : s.jq.quiesced = true)
    (hs : s.jg.member.state ≠ 2) :
    s.restoreIn h data crc = s.takePieces.passCopy (s.takePieces.copyPort h.src.toNat) h data crc := by
  rw [State.restoreIn, if_neg (ne_true_of_eq_false hr)]
  refine if_pos ?_
  rw [relaysCopy_takePieces, hq, bne_iff_ne.mpr hm, bne_iff_ne.mpr hs]
  rfl

theorem restoreIn_counts (hr : s.inReset = false)
    (hm : if h.src.toNat = s.me then s.cmdRuns 0x26 = false ∨ h.step ≠ s.js.cmd.argStep
      else s.jq.quiesced = false ∨ s.jg.member.state = 2) :
    s.restoreIn h data crc = { s.takePieces with
      jg := { s.jg with member := { s.jg.member with restoreDiscard := stick s.jg.member.restoreDiscard 1 } } } := by
  rw [State.restoreIn, if_neg (ne_true_of_eq_false hr)]
  simp only [relaysCopy_takePieces, cmdRuns_takePieces, takePieces_fields, takePieces_me]
  split at hm
  next hsrc =>
    rw [if_neg (by simp [hsrc]), if_pos ?_]
    rcases hm with hm | hm <;> simp [hm]
  next hsrc =>
    rw [if_neg (by rcases hm with hm | hm <;> simp [hm]), if_pos (by simp [hsrc])]

/-- A copy for a member that runs ROLLBACK for its step. -/
theorem restoreIn_own (hr : s.inReset = false) (hc : s.cmdRuns 0x26 = true) (hstep : h.step = s.js.cmd.argStep)
    (hsrc : h.src.toNat = s.me) :
    s.restoreIn h data crc =
      let u := s.takePieces
      if crc64 data ≠ crc then u.cmdEnds 0x26 3
      else
        let s := (u.restore h data).cmdEnds 0x26 0
        { s with jg := { s.jg with member := { s.jg.member with restores := stick s.jg.member.restores 1 } },
                 js := { s.js with cmd := { s.js.cmd with bytes := data.length } } } := by
  rw [State.restoreIn, if_neg (ne_true_of_eq_false hr)]
  simp only [relaysCopy_takePieces, cmdRuns_takePieces, takePieces_fields, takePieces_me]
  rw [if_neg (by simp [hsrc]), if_neg (by simp [hc, hstep, hsrc])]

/-- A command that runs has its result. -/
theorem cmdEnds_runs {code result : Nat} (hc : s.cmdRuns code = true) :
    s.cmdEnds code result = { s with js := { s.js with cmd := { s.js.cmd with outcome := some (BitVec.ofNat 3 result) } } } := by
  simp only [State.cmdRuns, Bool.and_eq_true] at hc
  exact if_pos (Bool.and_eq_true_iff.mpr hc.1)

end

/-- Settles O47: a copy that arrives is `headerIn_eq`, `trailerIn_good` and `trailerIn_bad`, one that comes back is
`restoreIn_passes`, `restoreIn_counts` or, for the member's own, `restore_effect`. -/
theorem copiesAreHeldAndRestored : Obligations.CopiesAreHeldAndRestored := by
  intro s
  refine ⟨fun ho => ?_, fun h hr => ?_, fun c src data crc hf => ⟨fun hc => ?_, fun hc => ?_⟩,
    fun h data crc hr => ⟨fun hm hq hs => ?_, fun hm => ?_, fun hc hstep hsrc hbad => ?_, fun hc hstep hsrc hgood => ?_⟩, fun hc => ?_⟩
  · exact does_run State.copyComplete rfl (if_neg (not_not_intro ho))
  · exact does_run (fun s => if s.inReset then s else s.headerIn h) rfl ((if_neg (ne_true_of_eq_false hr)).trans (headerIn_eq h))
  · exact does_run (fun s => s.trailerIn src data crc) rfl (trailerIn_good (s := s.begin_) hf hc)
  · exact does_run (fun s => s.trailerIn src data crc) rfl (trailerIn_bad (s := s.begin_) hf hc)
  · exact does_run (fun s => s.restoreIn h data crc) rfl (restoreIn_passes (s := s.begin_) hr hm hq hs)
  · exact does_run (fun s => s.restoreIn h data crc) rfl (restoreIn_counts (s := s.begin_) hr hm)
  · refine does_run (fun s => s.restoreIn h data crc) rfl ((restoreIn_own (s := s.begin_) hr hc hstep hsrc).trans ((if_pos hbad).trans ?_))
    rw [cmdEnds_runs ((cmdRuns_takePieces (s := s.begin_) _).trans hc)]
    simp only [takePieces_fields]
    rfl
  · refine exec_run (fun s => s.restoreIn h data crc) rfl ?_
    rw [restoreIn_own (s := s.begin_) hr hc hstep hsrc]
    dsimp only
    rw [if_neg (not_not_intro hgood)]
    have hrun := (cmdRuns_takePieces (s := s.begin_) 0x26).trans hc
    have hview := (takePieces_calm s.begin_).trans (rfl : s.begin_.calm = s.calm)
    generalize s.begin_.takePieces = u at hrun hview
    obtain ⟨hst, hjs, hmember, htx, hrx, hruns, hmerges, hpool, hfin, hmem⟩ := restore_effect u h data
    generalize u.restore h data = v at *
    have hrv : v.cmdRuns 0x26 = true := by
      simp only [State.cmdRuns, hjs]
      exact hrun
    rw [cmdEnds_runs hrv]
    refine ⟨hst, rfl, congrArg (fun m : MemberBlock => stick m.restores 1)
      (hmember.trans (congrArg (fun u : State => u.jg.member) hview :)), htx, hrx, hruns, hmerges, hpool, hfin, ?_⟩
    have hsm : u.stateMem = s.stateMem := (congrArg State.stateMem hview :)
    have hregion : u.factRegion = s.factRegion := (congrArg State.factRegion hview :)
    have hblocks : u.allBlocks = s.allBlocks := (congrArg State.allBlocks hview :)
    have haddr : u.rootAddr = s.rootAddr := (congrArg State.rootAddr hview :)
    have hdecl : u.decl = s.decl := (congrArg State.decl hview :)
    rw [hsm, hregion, hblocks, haddr, hdecl] at hmem
    exact hmem
  · exact does_run (fun s => if s.cmdRuns 0x25 then s.cmdEnds 0x25 7 else s) rfl ((if_pos hc).trans (cmdEnds_runs (s := s.begin_) hc))

end Sys2Proof.Machine
end

section
namespace Sys2Proof.Machine

/-! ### What the Gazelle path leaves alone (R141–R156) -/

/-- The state without what a reduction changes: its own block and memory, the traffic, the verdict's decision and FAULT, the vote's
result and their phases, the sticky bits, the replica comparison, the events and what is free. -/
def State.offPath (s : State) : State :=
  { s.calm with
    jz := JzBlock.reset, hostMem := [], stateMem := [], freeCnt := 0,
    jg := { s.jg with nf := ⟨0, 0⟩, twin := { s.jg.twin with sent := [] }, epoch := { s.jg.epoch with staleSeen := false } },
    jx := { s.calm.jx with slowNext := none },
    ju := { s.ju with rep := Replica.reset, ownCopy := none, outSt := 0 },
    js := { s.js with ring := { s.js.ring with evq := [] } },
    jq := { s.jq with phases := 0, boundaryResult := none, quiesceReq := false,
                      verdict := { s.jq.verdict with decision := none, fault := false } } }

/-- What a sweep keeps: the state beside the path, the cells held for a start, and the run counts. -/
def State.sweep (s : State) : State × List GzHeld × (Nat → W32) := (s.offPath, s.jz.held, fun rid => (s.gzRun rid).run)

theorem offPath_of_calm {s t : State} (h : t.calm = s.calm) : t.offPath = s.offPath :=
  (congrArg (fun u : State => { u with
    jz := JzBlock.reset, hostMem := [], stateMem := [], freeCnt := 0,
    jg := { u.jg with nf := ⟨0, 0⟩, twin := { u.jg.twin with sent := [] }, epoch := { u.jg.epoch with staleSeen := false } },
    jx := { u.jx with slowNext := none },
    ju := { u.ju with rep := Replica.reset, ownCopy := none, outSt := 0 },
    js := { u.js with ring := { u.js.ring with evq := [] } },
    jq := { u.jq with phases := 0, boundaryResult := none, quiesceReq := false,
                      verdict := { u.jq.verdict with decision := none, fault := false } } }) h :)

theorem sweep_of_calm {s t : State} (h : t.calm = s.calm) : t.sweep = s.sweep := by
  have hz : t.jz = s.jz := (congrArg State.jz h :)
  simp only [State.sweep, offPath_of_calm h, State.gzRun, hz]

/-- A fold of sweeps is one. -/
theorem sweep_ite {c : Prop} [Decidable c] {a b s : State} (ha : a.sweep = s.sweep) (hb : b.sweep = s.sweep) :
    (if c then a else b).sweep = s.sweep := by
  split
  · exact ha
  · exact hb

theorem gzRun_setGzRun (s : State) (r : GzRun) (rid : Nat) :
    (s.setGzRun r).gzRun rid = if rid = r.rid then r else s.gzRun rid := by
  unfold State.gzRun State.setGzRun
  rw [List.find?_cons]
  split
  next h =>
    rw [beq_iff_eq] at h
    rw [if_pos h.symm]
    rfl
  next h =>
    rw [beq_eq_false_iff_ne] at h
    rw [if_neg (Ne.symm h), List.find?_filter]
    refine congrArg (Option.getD · _) (congrArg (List.find? · s.jz.runs) (funext fun x => ?_))
    by_cases hx : x.rid = rid
    · simp [hx, Ne.symm h]
    · simp [hx]

/-- A run that keeps its count. -/
theorem setGzRun_sweep {s : State} {r : GzRun} (h : r.run = (s.gzRun r.rid).run) : (s.setGzRun r).sweep = s.sweep := by
  refine Prod.ext rfl (Prod.ext rfl (funext fun rid => ?_))
  show ((s.setGzRun r).gzRun rid).run = _
  rw [gzRun_setGzRun]
  split
  next hr => rw [h, hr]; rfl
  next => rfl

theorem gzRun_rid (s : State) (rid : Nat) : (s.gzRun rid).rid = rid := by
  unfold State.gzRun
  cases h : s.jz.runs.find? fun r => r.rid == rid with
  | none => rfl
  | some r => exact beq_iff_eq.mp (List.find?_some h :)

section

variable (s : State)

@[simp] theorem event_sweep (a b c : Nat) (l : List EvItem) : (s.event a b c l).sweep = s.sweep := by rfl

@[simp] theorem setGzRed_sweep (r : GzRed) : (s.setGzRed r).sweep = s.sweep := by rfl

@[simp] theorem fault_sweep : s.fault.sweep = s.sweep := by rfl

@[simp] theorem nonFiniteIf_sweep (c : Bool) (u : NfUnit) : (s.nonFiniteIf c u).sweep = s.sweep := by
  cases c <;> rfl

@[simp] theorem cellFree_sweep (port : Nat) : (s.cellFree port).sweep = s.sweep := sweep_of_calm (cellFree_calm ..)

@[simp] theorem twinSend_sweep (item : TwinItem) (msg : TwinMsg) : (s.twinSend item msg).sweep = s.sweep := by
  unfold State.twinSend
  split <;> rfl

@[simp] theorem putCell_sweep (port : Nat) (c : GzCell) : (s.putCell port c).sweep = s.sweep :=
  (sweep_of_calm (queueItem_calm ..)).trans rfl

@[simp] theorem sendCell_sweep (port : Nat) (h : CellHdr) (payload : List Byte) (t : CellTrl) :
    (s.sendCell port h payload t).sweep = s.sweep := by
  unfold State.sendCell
  dsimp only
  refine sweep_ite rfl (sweep_ite ?_ ?_)
  · exact sweep_ite ((event_sweep ..).trans (twinSend_sweep ..)) (twinSend_sweep ..)
  · exact (putCell_sweep ..).trans (twinSend_sweep ..)

@[simp] theorem portRead_sweep (unit chan : Nat) (sp : Bool) (a n : Nat) : (s.portRead unit chan sp a n).sweep = s.sweep :=
  sweep_of_calm (portRead_calm ..)

@[simp] theorem hostWrite_sweep (unit a : Nat) (b : List Byte) : (s.hostWrite unit a b).sweep = s.sweep :=
  (sweep_of_calm (calm_of_noPorts (hostWrite_noPorts ..))).trans rfl

@[simp] theorem stateWrite_sweep (unit a : Nat) (b : List Byte) : (s.stateWrite unit a b).sweep = s.sweep :=
  (sweep_of_calm (calm_of_noPorts (stateWrite_noPorts ..))).trans rfl

@[simp] theorem writeNorms_sweep : s.writeNorms.sweep = s.sweep :=
  foldl_view (g := State.sweep) (fun s _ => stateWrite_sweep s ..) _ s

@[simp] theorem gzOwn_sweep (rid : Nat) (g : GzSpec) : (s.gzOwn rid g).2.sweep = s.sweep := by
  unfold State.gzOwn
  dsimp only
  repeat' split
  all_goals rfl

@[simp] theorem copyJudged_sweep (agreed : Bool) : (s.copyJudged agreed).sweep = s.sweep := by
  unfold State.copyJudged
  cases agreed <;> split <;> rfl

@[simp] theorem replicaJudge_sweep : s.replicaJudge.sweep = s.sweep := by
  unfold State.replicaJudge
  dsimp only
  split
  · refine sweep_ite ?_ ?_
    · exact (copyJudged_sweep ..).trans rfl
    · have h := copyJudged_sweep s false
      generalize s.copyJudged false = u at h
      exact (Eq.trans rfl h :)
  · rfl

@[simp] theorem gzInternal_sweep (rid : Nat) (l : List GzElem) (decision : Nat) : (s.gzInternal rid l decision).sweep = s.sweep := by
  unfold State.gzInternal
  dsimp only
  split
  · rfl
  · rfl
  · rfl
  · exact (replicaJudge_sweep _).trans rfl
  · exact (replicaJudge_sweep _).trans rfl
  · rfl

@[simp] theorem gzWrite_sweep (rid : Nat) (g : GzSpec) (run : W32) (incomplete : Bool) (l : List GzElem) :
    (s.gzWrite rid g run incomplete l).sweep = s.sweep := by
  have h : (if g.dst = 0 then s else s.hostWrite 0x2C g.dst (l.flatMap g.dstBytes)).sweep = s.sweep := sweep_ite rfl (hostWrite_sweep ..)
  exact sweep_ite h ((hostWrite_sweep ..).trans h)

@[simp] theorem gzDeliver_sweep (rid : Nat) (g : GzSpec) (l : List GzElem) (nf : Bool) (decision : Nat) (inc : Bool) :
    (s.gzDeliver rid g l nf decision inc).sweep = s.sweep := by
  have hr : (s.gzRun rid).run = ((s.nonFiniteIf (g.feeds && nf) .gazelle).gzRun (s.gzRun rid).rid).run := by
    rw [gzRun_rid]
    cases g.feeds && nf <;> rfl
  unfold State.gzDeliver
  extract_lets r words u r' v ended z w
  have hv : v.sweep = s.sweep := (setGzRun_sweep (s := u) (r := r') hr).trans (nonFiniteIf_sweep ..)
  have hw : w.sweep = s.sweep := (Eq.trans rfl hv :)
  exact sweep_ite ((gzInternal_sweep ..).trans ((gzWrite_sweep ..).trans hw)) hw

@[simp] theorem spreadResult_sweep (rid k : Nat) (g : GzSpec) (d : DomEntry) (epoch : BitVec 2) (run : W32)
    (onAxis : Option (Nat × Nat)) (payload : List Byte) (bad nf : Bool) (decision : Nat) (inc : Bool) :
    (s.spreadResult rid k g d epoch run onAxis payload bad nf decision inc).sweep = s.sweep := by
  unfold State.spreadResult
  dsimp only
  rw [foldl_view (g := State.sweep) (fun s a => ?_)]
  · split
    · rfl
    · exact sweep_ite rfl (sendCell_sweep ..)
  · have h := sweep_ite (c := 0 < (s.gzPlaceOn g d a).nLeft) (sendCell_sweep s (axisPort a true)
      (s.gzHdr rid k g epoch run true a true) payload (s.gzTrl g 0 bad nf decision inc)) (rfl : s.sweep = s.sweep)
    exact sweep_ite ((sendCell_sweep ..).trans h) h

@[simp] theorem gzFinish_sweep (rid k : Nat) (g : GzSpec) (d : DomEntry) (r : GzRed) : (s.gzFinish rid k g d r).sweep = s.sweep :=
  (gzDeliver_sweep ..).trans ((spreadResult_sweep ..).trans rfl)

@[simp] theorem gzDecide_sweep (g : GzSpec) (d : DomEntry) (a b : GzRed) : (s.gzDecide g d a b).sweep = s.sweep :=
  (gzDeliver_sweep ..).trans ((spreadResult_sweep ..).trans rfl)

@[simp] theorem gzRoot_sweep (rid k : Nat) (force : Bool) (g : GzSpec) (d : DomEntry) (r : GzRed) :
    (s.gzRoot rid k force g d r).sweep = s.sweep := by
  unfold State.gzRoot
  dsimp only
  split
  · split
    · exact sweep_ite (gzDecide_sweep ..) rfl
    · rfl
  · exact sweep_ite (gzFinish_sweep ..) rfl

@[simp] theorem gzAdvance_sweep (rid k : Nat) (force : Bool) (fuel : Nat) : (State.gzAdvance rid k force fuel s).sweep = s.sweep := by
  induction fuel generalizing s with
  | zero => rfl
  | succ fuel ih =>
    rw [State.gzAdvance]
    split
    · rfl
    split
    · rfl
    split
    · rfl
    refine sweep_ite rfl ?_
    split
    · exact gzRoot_sweep ..
    refine sweep_ite ?_ ?_
    · exact sweep_ite ((ih _).trans ((setGzRed_sweep ..).trans (nonFiniteIf_sweep ..))) rfl
    · split
      · rfl
      · exact sweep_ite ((sendCell_sweep ..).trans ((setGzRed_sweep ..).trans (nonFiniteIf_sweep ..))) rfl

@[simp] theorem gzGo_sweep (rid k : Nat) : (s.gzGo rid k).sweep = s.sweep := gzAdvance_sweep ..

@[simp] theorem gzSetOwn_sweep (rid : Nat) (g : GzSpec) (own : List GzElem) : (s.gzSetOwn rid g own).sweep = s.sweep := by
  refine foldl_view (g := State.sweep) (fun s k => ?_) _ s
  split
  · exact gzGo_sweep ..
  · rfl

@[simp] theorem gzExpire_sweep (rid : Nat) : (s.gzExpire rid).sweep = s.sweep := by
  unfold State.gzExpire
  split
  · rfl
  · exact sweep_ite rfl (foldl_view (g := State.sweep) (fun s k => gzAdvance_sweep s ..) _ s)

@[simp] theorem useCell_sweep (c : GzHeld) (bad : Bool) : (s.useCell c bad).sweep = s.sweep := by
  unfold State.useCell
  dsimp only
  split
  · rfl
  split
  · rfl
  refine sweep_ite rfl (sweep_ite ?_ ?_)
  · exact sweep_ite (spreadResult_sweep ..) ((gzDeliver_sweep ..).trans (spreadResult_sweep ..))
  · split
    · rfl
    · exact sweep_ite rfl (gzGo_sweep ..)

@[simp] theorem cellForm_sweep (c : GzHeld) (fault : Bool) : (s.cellForm c fault).sweep = s.sweep := by
  cases fault <;> rfl

@[simp] theorem strayCell_sweep (c : GzHeld) : (s.strayCell c).sweep = s.sweep := by
  unfold State.strayCell
  dsimp only
  split
  · rfl
  split
  · rfl
  refine sweep_ite rfl (sweep_ite (spreadResult_sweep ..) ?_)
  split <;> rfl

theorem offPath_of_sweep {s t : State} (h : t.sweep = s.sweep) : t.offPath = s.offPath := congrArg Prod.fst h

@[simp] theorem routeCell_offPath (c : GzHeld) (bad : Bool) : (s.routeCell c bad).offPath = s.offPath := by
  have hf : (s.cellFree c.port).offPath = s.offPath := offPath_of_sweep (cellFree_sweep ..)
  unfold State.routeCell
  dsimp only
  split
  · exact hf
  split
  · rfl
  split
  · exact Eq.trans rfl hf
  split
  · rfl
  split
  · exact offPath_of_sweep ((strayCell_sweep ..).trans (sweep_ite (cellFree_sweep ..) ((cellForm_sweep ..).trans (cellFree_sweep ..))))
  · exact offPath_of_sweep ((useCell_sweep ..).trans (cellFree_sweep ..))

end

/-! ### Start entries (R146) -/

/-- The next run of a reduction is open, with no cell of its own yet. -/
def State.gzOpened (s : State) (rid : Nat) (g : GzSpec) : State :=
  let run := (s.gzRun rid).run + 1
  let reds := (List.range g.cells).map fun k =>
    ({ rid := rid, cell := k, run := run, epoch := s.jg.epoch.current, own := none, axis := 0, halves := [],
       bad := false, inc := false, done := false } : GzRed)
  { s with jz := { s.jz with
      runs := ⟨rid, run, false, false, [], 0, []⟩ :: s.jz.runs.filter fun x => x.rid != rid,
      reds := (s.jz.reds.filter fun (r : GzRed) => r.rid != rid) ++ reds,
      held := s.jz.held.filter fun (c : GzHeld) => (cellHdr c.cell.hdr).rid != rid } }

/-- The norm table is written, and unless the entry waits this member brings its own cells. -/
def State.gzBrings (s : State) (rid : Nat) (g : GzSpec) (wait : Bool) : State :=
  let s := if rid = 6 then s.writeNorms else s
  if wait then s
  else
    let o := s.gzOwn rid g
    let t := if 11 ≤ rid && g.src != 0 then
        o.2.portRead 0x2C 0 false g.src (g.n * (if g.srcBf16 then 2 else if g.op = 4 || g.op = 5 then 4 else g.esize))
      else o.2
    t.gzSetOwn rid g o.1

theorem gzBrings_sweep (s : State) (rid : Nat) (g : GzSpec) (wait : Bool) : (s.gzBrings rid g wait).sweep = s.sweep := by
  unfold State.gzBrings
  extract_lets u o t
  have hu : u.sweep = s.sweep := sweep_ite (writeNorms_sweep s) rfl
  have ho : o.2.sweep = u.sweep := gzOwn_sweep ..
  have ht : t.sweep = o.2.sweep := sweep_ite (portRead_sweep ..) rfl
  exact sweep_ite hu ((gzSetOwn_sweep ..).trans (ht.trans (ho.trans hu)))

section

variable {s : State} {rid : Nat} {g : GzSpec} {d : DomEntry}

/-- A start entry of a member of the reduction's domain. -/
theorem gzStart_eq (hg : s.gzSpec s.live.cur rid = some g) (hd : s.dom g.domain = some d) (hc : d.contains s.decl.coord = true)
    (wait : Bool) :
    s.gzStart rid wait = (s.jz.held.filter fun c => (cellHdr c.cell.hdr).rid == rid).foldl (fun s c => s.routeCell c c.failed)
      ((s.gzOpened rid g).gzBrings rid g wait) := by
  simp only [State.gzStart, hg, hd, hc, Bool.not_true, Bool.false_eq_true, if_false]
  rfl

theorem gzStart_offPath (s : State) (rid : Nat) (wait : Bool) : (s.gzStart rid wait).offPath = s.offPath := by
  cases hg : s.gzSpec s.live.cur rid with
  | none => simp only [State.gzStart, hg]
  | some g =>
    cases hd : s.dom g.domain with
    | none => simp only [State.gzStart, hg, hd]
    | some d =>
      cases hc : d.contains s.decl.coord with
      | false => simp only [State.gzStart, hg, hd, hc, Bool.not_false, if_true]
      | true =>
        rw [gzStart_eq hg hd hc, foldl_view (g := State.offPath) (f := fun (s : State) (c : GzHeld) => s.routeCell c c.failed)
          (fun s c => routeCell_offPath s c c.failed)]
        exact (offPath_of_sweep (gzBrings_sweep ..)).trans rfl

theorem gzOpened_run (s : State) (rid : Nat) (g : GzSpec) (r : Nat) :
    ((s.gzOpened rid g).gzRun r).run = if r = rid then (s.gzRun rid).run + 1 else (s.gzRun r).run := by
  have h : (s.gzOpened rid g).gzRun r = (s.setGzRun ⟨rid, (s.gzRun rid).run + 1, false, false, [], 0, []⟩).gzRun r := rfl
  rw [h, gzRun_setGzRun]
  split <;> rfl

/-- With no cell held, a start entry adds one to the count of its own run and keeps the others. -/
theorem gzStart_run (h : s.jz.held = []) (hg : s.gzSpec s.live.cur rid = some g) (hd : s.dom g.domain = some d)
    (hc : d.contains s.decl.coord = true) (wait : Bool) :
    (s.gzStart rid wait).jz.held = [] ∧
      ∀ r, ((s.gzStart rid wait).gzRun r).run = if r = rid then (s.gzRun rid).run + 1 else (s.gzRun r).run := by
  rw [gzStart_eq hg hd hc, h]
  have hb := gzBrings_sweep (s.gzOpened rid g) rid g wait
  have hheld : (s.gzOpened rid g).jz.held = [] := congrArg (List.filter _) h
  exact ⟨(congrArg (fun p => p.2.1) hb).trans hheld,
    fun r => (congrArg (fun p => p.2.2 r) hb).trans (gzOpened_run s rid g r)⟩

/-- With no cell held, an entry that waits changes the path's own block alone. -/
theorem gzStart_wait (h : s.jz.held = []) (hr : rid ≠ 6) :
    ∃ z : JzBlock, z.held = [] ∧ s.gzStart rid true = { s with jz := z } := by
  cases hg : s.gzSpec s.live.cur rid with
  | none => exact ⟨s.jz, h, by simp only [State.gzStart, hg]⟩
  | some g =>
    cases hd : s.dom g.domain with
    | none => exact ⟨s.jz, h, by simp only [State.gzStart, hg, hd]⟩
    | some d =>
      cases hc : d.contains s.decl.coord with
      | false => exact ⟨s.jz, h, by simp only [State.gzStart, hg, hd, hc, Bool.not_false, if_true]⟩
      | true =>
        refine ⟨(s.gzOpened rid g).jz, congrArg (List.filter _) h, ?_⟩
        rw [gzStart_eq hg hd hc, h]
        show (s.gzOpened rid g).gzBrings rid g true = _
        rw [State.gzBrings, if_neg hr]
        rfl

end

/-- The fixed reductions of the commit domain (R141). -/
theorem gzSpec_commit (s : State) (tables : LiveTables) {rid : Nat} (h : rid ≤ 8) :
    ∃ g, s.gzSpec tables rid = some g ∧ g.domain = s.decl.commitDomain := by
  have hall : rid = 0 ∨ rid = 1 ∨ rid = 2 ∨ rid = 3 ∨ rid = 4 ∨ rid = 5 ∨ rid = 6 ∨ rid = 7 ∨ rid = 8 := by omega
  rcases hall with rfl | rfl | rfl | rfl | rfl | rfl | rfl | rfl | rfl <;> exact ⟨_, rfl, rfl⟩

/-- What a sweep beside the path's own parts leaves alone. -/
theorem offPath_fields {s t : State} (h : t.offPath = s.offPath) :
    t.jq.slot = s.jq.slot ∧ t.jq.step = s.jq.step ∧ t.jq.gen = s.jq.gen ∧ t.jq.acts = s.jq.acts ∧ t.jq.serveSlots = s.jq.serveSlots ∧
      t.jq.boundarySent = s.jq.boundarySent ∧ t.jq.resuming = s.jq.resuming ∧ t.jq.quiesced = s.jq.quiesced ∧
      t.jq.verdict.sent = s.jq.verdict.sent ∧ t.jq.verdict.pending = s.jq.verdict.pending ∧
      t.jq.verdict.veto = s.jq.verdict.veto ∧ t.jq.verdict.orSent = s.jq.verdict.orSent ∧
      t.jq.verdict.sentAt = s.jq.verdict.sentAt ∧ t.js.cmd = s.js.cmd ∧ t.js.mw = s.js.mw ∧ t.js.sm = s.js.sm ∧ t.image = s.image := by
  have hv : t.offPath.jq.verdict = s.offPath.jq.verdict := congrArg (fun u : State => u.jq.verdict) h
  exact ⟨(congrArg (fun u : State => u.jq.slot) h :), (congrArg (fun u : State => u.jq.step) h :),
    (congrArg (fun u : State => u.jq.gen) h :), (congrArg (fun u : State => u.jq.acts) h :),
    (congrArg (fun u : State => u.jq.serveSlots) h :), (congrArg (fun u : State => u.jq.boundarySent) h :),
    (congrArg (fun u : State => u.jq.resuming) h :), (congrArg (fun u : State => u.jq.quiesced) h :),
    (congrArg VerdictBlock.sent hv :), (congrArg VerdictBlock.pending hv :), (congrArg VerdictBlock.veto hv :),
    (congrArg VerdictBlock.orSent hv :), (congrArg VerdictBlock.sentAt hv :), (congrArg (fun u : State => u.js.cmd) h :),
    (congrArg (fun u : State => u.js.mw) h :), (congrArg (fun u : State => u.js.sm) h :), (congrArg State.image h :)⟩

end Sys2Proof.Machine
end

section
namespace Sys2Proof.Machine

/-- A start entry of a fixed reduction at a member of the commit domain, with no cell held. -/
theorem gzStart_commit_run {s : State} {rid : Nat} (hr : rid ≤ 8) (h : s.jz.held = []) {d : DomEntry}
    (hd : s.dom s.decl.commitDomain = some d) (hc : d.contains s.decl.coord = true) (wait : Bool) :
    (s.gzStart rid wait).jz.held = [] ∧
      ∀ r, ((s.gzStart rid wait).gzRun r).run = if r = rid then (s.gzRun rid).run + 1 else (s.gzRun r).run := by
  obtain ⟨g, hg, hgd⟩ := gzSpec_commit s s.live.cur hr
  exact gzStart_run h hg (hgd ▸ hd) hc wait

/-- What the start of a slot keeps. -/
theorem fixedNext_fields {s t : State} (h : t.fixed = s.fixedNext) :
    t.jq.step = s.jq.step ∧ t.jq.gen = s.jq.gen ∧ t.jg.epoch.current = s.jg.epoch.current ∧ t.live = s.live ∧
      t.jq.slot = (if s.jq.begun then s.jq.slot else s.jq.slot + 1) ∧ t.image = s.image := by
  unfold State.fixedNext at h
  split at h
  next hb =>
    rw [if_pos hb]
    exact ⟨(congrArg Fixed.step h :), (congrArg Fixed.gen h :), (congrArg Fixed.current h :), (congrArg Fixed.live h :),
      (congrArg Fixed.slot h :), (congrArg Fixed.image h :)⟩
  next hb =>
    rw [if_neg hb]
    exact ⟨(congrArg Fixed.step h :), (congrArg Fixed.gen h :), (congrArg Fixed.current h :), (congrArg Fixed.live h :),
      (congrArg Fixed.slot h :), (congrArg Fixed.image h :)⟩

/-! ### The boundary (R30) -/

section

variable {s : State}

theorem boundary_due (hp : s.phase 6 = true) (hb : s.jq.boundarySent = false) (hs : s.silent = false)
    (h0 : s.decl.boundaryPeriod ≠ 0) (hn : s.decl.boundaryPeriod ≤ s.jq.serveSlots) :
    s.boundary = (({ s with jq := { s.jq with serveSlots := 0, boundarySent := true } }).activate 7).gzStart 2 false := by
  refine if_neg ?_
  simp only [hp, hb, hs, Bool.not_true, Bool.or_false, Bool.or_eq_true, Bool.false_eq_true, false_or, decide_eq_true_eq, beq_iff_eq, not_or]
  exact ⟨Nat.not_lt.mpr hn, h0⟩

theorem phase_setPhase_ends (s : State) {code : Nat} (h : code < 8) : (s.setPhase code false).phase code = false := by
  show (s.jq.phases &&& ~~~BitVec.ofNat 8 (2 ^ code)).getLsbD code = false
  rw [BitVec.getLsbD_and, BitVec.getLsbD_not, BitVec.getLsbD_ofNat, Nat.testBit_two_pow_self, decide_eq_true h]
  exact Bool.and_false _

theorem phase_setPhase_other (s : State) (on : Bool) {code k : Nat} (h : code ≠ k) : (s.setPhase code on).phase k = s.phase k := by
  have hb : (BitVec.ofNat 8 (2 ^ code)).getLsbD k = false := by
    rw [BitVec.getLsbD_ofNat, Nat.testBit_two_pow_of_ne h]
    exact Bool.and_false _
  show (if on then s.jq.phases ||| BitVec.ofNat 8 (2 ^ code) else s.jq.phases &&& ~~~BitVec.ofNat 8 (2 ^ code)).getLsbD k =
    s.jq.phases.getLsbD k
  cases on with
  | true => rw [if_pos rfl, BitVec.getLsbD_or, hb, Bool.or_false]
  | false =>
    rw [if_neg Bool.false_ne_true, BitVec.getLsbD_and, BitVec.getLsbD_not, hb]
    by_cases hk : k < 8
    · simp [hk]
    · rw [BitVec.getLsbD_of_ge _ _ (Nat.not_lt.mp hk)]
      rfl

/-- The vote's result is taken at cycle 0 of the next slot. -/
def State.voteTaken (s : State) : State :=
  ({ s.nextSlot with jq := { s.nextSlot.jq with boundaryResult := none, boundarySent := false } }).setPhase 7 false

/-- The block goes back to LEARN, with INTAKE for the same step. -/
def State.backToLearn (s : State) : State :=
  let s := ({ s with jq := { s.jq with gen := false } }).setPhase 6 false
  (if s.jq.acts.any fun a => a.phase == 5 then s.setPhase 5 true else s.activate 5).beginIntake

theorem boundarySwitch_eq {w : W64} (h : s.jq.boundaryResult = some w) :
    s.boundarySwitch = if w.getLsbD 2 || !s.voteTaken.jq.gen then s.voteTaken else s.voteTaken.backToLearn := by
  simp only [State.boundarySwitch, h]
  rfl

theorem backToLearn_jq (s : State) :
    s.backToLearn.jq.gen = false ∧ s.backToLearn.jq.boundaryResult = s.jq.boundaryResult ∧
      s.backToLearn.jq.boundarySent = s.jq.boundarySent ∧
      s.backToLearn.phase 0 = true ∧ s.backToLearn.phase 6 = false ∧ s.backToLearn.phase 5 = true := by
  unfold State.backToLearn
  extract_lets src u
  have h6 : u.phase 6 = false := phase_setPhase_ends _ (by decide)
  have hv (v : State) (hv : v = u.setPhase 5 true ∨ v = u.activate 5) :
      v.phase 6 = false ∧ v.phase 5 = true ∧ v.jq.gen = false ∧ v.jq.boundaryResult = s.jq.boundaryResult ∧
        v.jq.boundarySent = s.jq.boundarySent := by
    rcases hv with rfl | rfl <;>
      exact ⟨(phase_setPhase_other u true (by decide)).trans h6, phase_setPhase_same u (by decide), rfl, rfl, rfl⟩
  have hw := hv (if u.jq.acts.any fun a => a.phase == 5 then u.setPhase 5 true else u.activate 5) (by
    split
    · exact .inl rfl
    · exact .inr rfl)
  generalize (if u.jq.acts.any fun a => a.phase == 5 then u.setPhase 5 true else u.activate 5) = v at hw
  obtain ⟨hv6, hv5, hgen, hres, hsent⟩ := hw
  exact ⟨hgen, hres, hsent, phase_setPhase_same v (code := 0) (by decide), (phase_setPhase_other v true (by decide)).trans hv6,
    phase_setPhase_of v hv5⟩

theorem backToLearn_kept (s : State) :
    s.backToLearn.jq.step = s.jq.step ∧ s.backToLearn.jg.epoch.current = s.jg.epoch.current := by
  have h : s.backToLearn.fixed = { s.fixed with gen := false } := by
    unfold State.backToLearn
    rw [beginIntake_fixed]
    split <;> rfl
  exact ⟨(congrArg Fixed.step h :), (congrArg Fixed.current h :)⟩

end

/-- Settles O11. -/
theorem boundaryVotesSwitch : Obligations.BoundaryVotesSwitch := by
  refine ⟨fun s hp hb hs h0 hn => ?_, fun s w hw => ?_⟩
  · refine exec_run State.boundary rfl ?_
    rw [boundary_due (s := s.begin_) hp hb hs h0 hn]
    generalize hu : State.activate { s.begin_ with jq := { s.begin_.jq with serveSlots := 0, boundarySent := true } } 7 = u
    have hk := gzStart_offPath u 2 false
    obtain ⟨hdom, hdecl, hheld, hcount⟩ : u.dom = s.dom ∧ u.decl = s.decl ∧ u.jz.held = s.jz.held ∧ u.gzRun 2 = s.gzRun 2 := by
      subst hu
      exact ⟨rfl, rfl, rfl, rfl⟩
    have hrun (d : DomEntry) (hd : s.dom s.decl.commitDomain = some d) (hc : d.contains s.decl.coord = true)
        (hh : s.jz.held = []) : ((u.gzStart 2 false).gzRun 2).run = (s.gzRun 2).run + 1 := by
      rw [← hdom, ← hdecl] at hd
      rw [← hdecl] at hc
      rw [(gzStart_commit_run (rid := 2) (by decide) (hheld.trans hh) hd hc false).2 2, hcount]
      exact if_pos rfl
    generalize u.gzStart 2 false = t at hk hrun
    obtain ⟨-, hstep, hgen, hacts, hserve, hsent, -⟩ := offPath_fields hk
    subst hu
    exact ⟨hserve, hsent, hacts, hstep, hgen, fun ⟨d, hd, hc⟩ hh => hrun d hd hc hh⟩
  · refine exec_run State.boundarySwitch rfl ?_
    rw [boundarySwitch_eq (s := s.begin_) hw]
    have hv : s.begin_.voteTaken.fixed = s.begin_.fixedNext := nextSlot_fixed s.begin_
    have hr : s.begin_.voteTaken.jq.boundaryResult = none ∧ s.begin_.voteTaken.jq.boundarySent = false := ⟨rfl, rfl⟩
    generalize s.begin_.voteTaken = v at hv hr
    obtain ⟨hres, hsent⟩ := hr
    obtain ⟨hstep, hgen, hcur, -⟩ := fixedNext_fields hv
    obtain ⟨hl, hlres, hlsent, h0, h6, h5⟩ := backToLearn_jq v
    obtain ⟨hlstep, hlcur⟩ := backToLearn_kept v
    generalize v.backToLearn = l at *
    split
    next hc =>
      refine ⟨hres, hsent, hstep, hcur, fun _ => hgen, fun hw hg => ?_⟩
      have hn : v.jq.gen = true := hgen.trans hg
      rw [hw, hn] at hc
      exact absurd hc (by decide)
    next hc =>
      refine ⟨hlres.trans hres, hlsent.trans hsent, hlstep.trans hstep, hlcur.trans hcur, fun hw => ?_, fun _ _ => ⟨hl, h0, h6, h5⟩⟩
      rw [hw, Bool.true_or] at hc
      exact absurd rfl hc

/-! ### The verdict's contribution (R24, R65, R214) -/

section

variable {s : State}

/-- The contribution is formed once VERDICT is entered and its entry has issued. -/
theorem verdictEntry_due (hp : s.phase 2 = true) (hi : s.jq.verdict.sendIssued = true) (hf : s.jq.verdict.formed = false)
    (hs : s.silent = false) :
    s.verdictEntry = if s.formVerdict.ju.gateEn then
        s.formVerdict.setVerdict fun v => { v with pending := true, gateStep := s.formVerdict.jq.step.setWidth 24 }
      else s.formVerdict.sendVerdict false := by
  refine if_neg ?_
  rw [hp, hi, hf, hs]
  exact Bool.false_ne_true

/-- The state in which the verdict's bits are formed. -/
def State.verdictFormed (s : State) : State :=
  s.clearNonFinite.setVerdict fun v => { v with formed := true, nf := s.jg.nf.now &&& 31 != 0 }

theorem formVerdict_offPath (s : State) : s.formVerdict.offPath = s.verdictFormed.offPath :=
  (gzStart_offPath ..).trans (gzStart_offPath ..)

theorem formVerdict_of_noneHeld (h : s.jz.held = []) :
    ∃ z : JzBlock, s.formVerdict = { s.verdictFormed with jz := z } := by
  obtain ⟨z, hz, hs⟩ := gzStart_wait (s := s.verdictFormed) (rid := 1) h (by decide)
  obtain ⟨y, -, ht⟩ := gzStart_wait (s := { s.verdictFormed with jz := z }) (rid := 0) hz (by decide)
  exact ⟨y, (congrArg (State.gzStart · 0 true) hs).trans ht⟩

/-- The verdict with this member's contribution sent. -/
def State.contributes (s : State) (veto : Bool) : State :=
  let s := s.setVerdict fun v => { v with veto := veto }
  s.setVerdict fun v => { v with pending := false, sent := true, sentAt := s.jq.slot, orSent := s.verdictWord, andSent := s.voteWord,
                                 incomplete := false, fault := false }

theorem sendVerdict_offPath (s : State) (veto : Bool) : (s.sendVerdict veto).offPath = (s.contributes veto).offPath := by
  unfold State.sendVerdict
  dsimp only
  split
  · exact offPath_of_sweep ((gzSetOwn_sweep ..).trans (gzSetOwn_sweep ..))
  · rfl

/-- What a contribution leaves in the verdict. -/
theorem sendVerdict_fields (s : State) (veto : Bool) :
    (s.sendVerdict veto).jq.verdict.sent = true ∧ (s.sendVerdict veto).jq.verdict.pending = false ∧
      (s.sendVerdict veto).jq.verdict.veto = veto ∧ (s.sendVerdict veto).jq.verdict.sentAt = s.jq.slot ∧
      (s.sendVerdict veto).jq.step = s.jq.step ∧
      (s.sendVerdict veto).jq.verdict.orSent = BitVec.ofNat 64 (b2n s.jq.verdict.nf + 2 * b2n s.jq.verdict.incomplete +
        4 * b2n s.jq.verdict.fault + 8 * b2n veto) := by
  have h := sendVerdict_offPath s veto
  generalize s.sendVerdict veto = t at h
  obtain ⟨-, hstep, -, -, -, -, -, -, hsent, hpend, hveto, hor, hat, -⟩ := offPath_fields h
  exact ⟨hsent, hpend, hveto, hat, hstep, hor⟩

end

/-- Settles O13. -/
theorem verdictEntryFormsTheContribution : Obligations.VerdictEntryFormsTheContribution := by
  intro s hp hi hf hs
  have hform := formVerdict_offPath s.begin_
  have hgate : s.begin_.formVerdict.ju.gateEn = s.ju.gateEn := (congrArg (fun u : State => u.ju.gateEn) hform :)
  refine ⟨fun hg => ?_, fun hg hh => ?_⟩
  · refine exec_run State.verdictEntry rfl ?_
    rw [verdictEntry_due (s := s.begin_) hp hi hf hs, if_pos (hgate.trans hg)]
    have hstep : s.begin_.formVerdict.jq.step = s.jq.step := (congrArg (fun u : State => u.jq.step) hform :)
    refine ⟨rfl, congrArg (BitVec.setWidth 24) hstep, hstep, fun hh => ?_⟩
    obtain ⟨z, hz⟩ := formVerdict_of_noneHeld (s := s.begin_) hh
    rw [hz]
    exact ⟨rfl, rfl, rfl⟩
  · refine exec_run State.verdictEntry rfl ?_
    rw [verdictEntry_due (s := s.begin_) hp hi hf hs, if_neg (ne_true_of_eq_false (hgate.trans hg))]
    obtain ⟨z, hz⟩ := formVerdict_of_noneHeld (s := s.begin_) hh
    rw [hz]
    obtain ⟨hsent, hpend, -, hat, hstep, hor⟩ := sendVerdict_fields { s.begin_.verdictFormed with jz := z } false
    generalize State.sendVerdict _ false = t at *
    exact ⟨hsent, hat, hpend, hstep, hor⟩

/-! ### The commit gate (R214) -/

/-- A write to the gate that leaves EN as it is. -/
theorem wrCommitGate_answer {s : State} {port : Mgmt} {v : W32} (hl : s.listening = true) (hen : v.getLsbD 0 = s.ju.gateEn)
    (ha : (v.getLsbD 1 || v.getLsbD 2) = true) :
    s.wrCommitGate port v =
      if s.jq.verdict.pending then (s.sendVerdict (v.getLsbD 2)).ok port else s.refuse port 0x060000 4 := by
  have hne : (v.getLsbD 0 != s.ju.gateEn) = false := by rw [hen, bne_self_eq_false]
  unfold State.wrCommitGate
  rw [guarded_of_listening _ _ _ hl]
  dsimp only
  rw [hne, ha, hen]
  cases hp : s.jq.verdict.pending <;> rfl

theorem commitGate_sends {s : State} {port : Mgmt} {v : W32} (hl : s.listening = true) (hen : v.getLsbD 0 = s.ju.gateEn)
    (ha : (v.getLsbD 1 || v.getLsbD 2) = true) (hp : s.jq.verdict.pending = true) {c : Instr}
    (hc : exec c s = run (fun s => s.wrCommitGate port v) s) :
    ∃ t, exec c s = .next t ∧ t.jq.verdict.sent = true ∧ t.jq.verdict.pending = false ∧ t.jq.verdict.veto = v.getLsbD 2 ∧
      t.jq.verdict.orSent = BitVec.ofNat 64 (b2n s.jq.verdict.nf + 2 * b2n s.jq.verdict.incomplete +
        4 * b2n s.jq.verdict.fault + 8 * b2n (v.getLsbD 2)) ∧ t.response port = ⟨0, 0⟩ := by
  refine exec_run _ hc ?_
  rw [(wrCommitGate_answer (s := s.begin_) hl hen ha).trans (if_pos hp)]
  obtain ⟨hsent, hpend, hveto, -, -, hor⟩ := sendVerdict_fields s.begin_ (v.getLsbD 2)
  generalize s.begin_.sendVerdict (v.getLsbD 2) = t at *
  cases port <;> exact ⟨hsent, hpend, hveto, hor, rfl⟩

/-- Settles O14. -/
theorem theCommitGateAnswers : Obligations.TheCommitGateAnswers := by
  intro s port v hl hen
  have happrove (h1 : v.getLsbD 1 = true) (h2 : v.getLsbD 2 = false) :
      exec (.commitApprove port v) s = run (fun s => s.wrCommitGate port v) s := by
    have h : (v.getLsbD 1 && !v.getLsbD 2) = true := by
      rw [h1, h2]
      rfl
    exact (congrArg (run · s) (funext fun s : State => if_pos (t := s.wrCommitGate port v) (e := s) h) :)
  have hveto (h2 : v.getLsbD 2 = true) : exec (.commitVeto port v) s = run (fun s => s.wrCommitGate port v) s :=
    (congrArg (run · s) (funext fun s : State => if_pos (t := s.wrCommitGate port v) (e := s) h2) :)
  refine ⟨fun hp => ⟨fun h1 h2 => ?_, fun h2 => ?_⟩, fun hp => ⟨fun h1 h2 => ?_, fun h2 => ?_⟩⟩
  · have h := commitGate_sends hl hen (Bool.or_eq_true_iff.mpr (.inl h1)) hp (happrove h1 h2)
    rw [h2] at h
    exact h
  · have h := commitGate_sends hl hen (Bool.or_eq_true_iff.mpr (.inr h2)) hp (hveto h2)
    rw [h2] at h
    exact h
  · exact does_run _ (happrove h1 h2)
      ((wrCommitGate_answer (s := s.begin_) hl hen (Bool.or_eq_true_iff.mpr (.inl h1))).trans (if_neg (ne_true_of_eq_false hp)))
  · exact does_run _ (hveto h2)
      ((wrCommitGate_answer (s := s.begin_) hl hen (Bool.or_eq_true_iff.mpr (.inr h2))).trans (if_neg (ne_true_of_eq_false hp)))

/-! ### The verdict's deadlines (R25, R26, R156) -/

section

variable {s : State} {d : DomEntry} {a b : GzRed}

theorem verdictTimeout_due (hr : s.decl.verdictRoot = s.me) (hp : s.phase 2 = true) (hd : s.jq.verdict.decision = none)
    (hs : s.silent = false) (hf : s.jq.verdict.formed = true)
    (ht : s.jq.vTimeout.toNat ≤ (s.jq.slot - s.jq.verdict.enteredAt).toNat) :
    s.verdictTimeout = (s.gzExpire 1).gzExpire 0 := by
  have hn := Nat.not_lt.mpr ht
  simp only [State.verdictTimeout, hr, hp, hd, hs, hf, hn, ne_eq, not_true, decide_false, Bool.not_true, Option.isSome_none, Bool.or_false,
    Bool.false_eq_true, if_false, if_true]

/-- A root expires the cells of a reduction one by one. -/
theorem gzExpire_root {rid : Nat} {g : GzSpec} (hg : s.gzSpec s.live.cur rid = some g) (hr : g.root = s.me) :
    s.gzExpire rid = (List.range g.cells).foldl (fun s k => State.gzAdvance rid k true 5 s) s := by
  simp only [State.gzExpire, hg]
  exact if_neg (not_not_intro hr)

/-- A cell that is over does not go on. -/
theorem gzAdvance_of_done {rid k : Nat} {force : Bool} (fuel : Nat) (h : ∀ r, s.gzRed rid k = some r → r.done = true) :
    State.gzAdvance rid k force fuel s = s := by
  cases fuel with
  | zero => rfl
  | succ fuel =>
    rw [State.gzAdvance]
    split
    · rfl
    next r hr =>
      split
      · rfl
      split
      · rfl
      exact if_pos (h r hr)

/-- A member alone on the lines of a reduction is its root at once. -/
theorem gzAdvance_alone {rid k : Nat} {force : Bool} (fuel : Nat) {r : GzRed} {g : GzSpec} (hr : s.gzRed rid k = some r)
    (hg : s.gzSpec (s.tables r.epoch) rid = some g) (hd : s.dom g.domain = some d) (hx : d.gzAxes = []) (hn : r.done = false) :
    State.gzAdvance rid k force (fuel + 1) s = s.gzRoot rid k force g d r := by
  rw [State.gzAdvance]
  simp only [hr, hg, hd, hn, hx, List.getElem?_nil, Bool.false_eq_true, if_false]

theorem gzRoot_verdict {rid : Nat} (hrid : rid ≤ 1) (ha : s.gzRed 0 0 = some a) (hb : s.gzRed 1 0 = some b) (hx : d.gzAxes = [])
    (ha0 : a.axis = 0) (hb0 : b.axis = 0) (had : a.done = false) (k : Nat) (g : GzSpec) (r : GzRed) :
    s.gzRoot rid k true g d r = s.gzDecide g d a b := by
  simp only [State.gzRoot, if_pos hrid, ha, hb, hx, ha0, hb0, had, List.length_nil, decide_true, Bool.or_true, Bool.and_true,
    Bool.not_false, if_true]

theorem spreadResult_alone {rid k : Nat} {g : GzSpec} (hx : d.gzAxes = []) (epoch : BitVec 2) (run : W32) (payload : List Byte)
    (bad nf : Bool) (decision : Nat) (inc : Bool) :
    s.spreadResult rid k g d epoch run none payload bad nf decision inc = s := by
  unfold State.spreadResult
  rw [hx]
  rfl

theorem gzWrite_nowhere {rid : Nat} {g : GzSpec} (hdst : g.dst = 0) (hflag : g.flag = 0) (run : W32) (inc : Bool)
    (l : List GzElem) : s.gzWrite rid g run inc l = s := by
  unfold State.gzWrite
  rw [if_pos hdst, if_pos hflag]

/-- The only result cell of reduction 0 ends VERDICT with its decision, and the reduction with it. -/
theorem gzDeliver_verdict {g : GzSpec} (hc : g.cells = 1) (hdst : g.dst = 0) (hflag : g.flag = 0)
    (hcells : (s.gzRun 0).cells = 0) (hwords : (s.gzRun 0).words = []) (l : List GzElem) (decision : Nat) (inc : Bool) :
    let w := fun k => BitVec.ofNat 64 ((l.getD k GzElem.zero).nat)
    (s.gzDeliver 0 g l false decision inc).phase 2 = false ∧
      (s.gzDeliver 0 g l false decision inc).jq.verdict.decision = some ⟨decision == 1, w 0, w 1⟩ ∧
      ∀ r, (s.gzDeliver 0 g l false decision inc).gzRed 0 0 = some r → r.done = true := by
  intro w
  unfold State.gzDeliver
  extract_lets r words u r' v ended z t
  have hu : u = s := by
    show s.nonFiniteIf (g.feeds && false) .gazelle = s
    rw [Bool.and_false]
    rfl
  have hlast : r'.cells = g.cells := (congrArg (· + 1) hcells).trans hc.symm
  have hl : words = l := by
    show (s.gzRun 0).words ++ l = l
    rw [hwords]
    rfl
  rw [if_pos hlast, gzWrite_nowhere hdst hflag, hl]
  refine ⟨phase_setPhase_ends _ (by decide), rfl, fun x hx => ?_⟩
  have hmem : x ∈ v.jz.reds.map fun x => if ended x then { x with done := true } else x := List.mem_of_find?_eq_some hx
  obtain ⟨y, hy, rfl⟩ := List.mem_map.mp hmem
  have hkey := List.find?_some hx
  split at hkey
  next he => rw [if_pos he]
  next he =>
    have hcell : r'.cells - 1 = 0 := congrArg (· - 1) (hlast.trans hc)
    refine absurd (Bool.or_eq_true_iff.mpr (.inl ?_)) he
    rw [hcell]
    exact hkey

/-- The decision of a root alone on its lines: clean exactly when nothing is missing or bad and the OR word is zero. -/
theorem gzDecide_alone {g : GzSpec} (hx : d.gzAxes = []) (hc : g.cells = 1) (hdst : g.dst = 0) (hflag : g.flag = 0)
    (hcells : (s.gzRun 0).cells = 0) (hwords : (s.gzRun 0).words = []) :
    let o := (a.own.getD []).getD 0 GzElem.zero
    let n := (b.own.getD []).getD 0 GzElem.zero
    let clean := !a.inc && !b.inc && !a.bad && !b.bad && a.own.isSome && b.own.isSome && o == GzElem.zero
    (s.gzDecide g d a b).phase 2 = false ∧
      (s.gzDecide g d a b).jq.verdict.decision = some ⟨clean, BitVec.ofNat 64 o.nat, BitVec.ofNat 64 n.nat⟩ ∧
      ∀ r, (s.gzDecide g d a b).gzRed 0 0 = some r → r.done = true := by
  intro o n clean
  unfold State.gzDecide
  extract_lets l inc bad dec u v
  have hv : v = u := spreadResult_alone hx ..
  have hdec : (dec == 1) = clean := by
    have hgood : (!inc && !bad && o == GzElem.zero) = clean := by
      simp only [inc, bad, clean]
      cases a.inc <;> cases b.inc <;> cases a.bad <;> cases b.bad <;> cases a.own <;> cases b.own <;> rfl
    rw [← hgood]
    show ((if !inc && !bad && o == GzElem.zero then 1 else 2) == 1) = _
    cases !inc && !bad && o == GzElem.zero <;> rfl
  rw [hv, ← hdec]
  exact gzDeliver_verdict (s := u) hc hdst hflag hcells hwords l dec inc

/-- Both deadlines at a verdict root alone on its lines: the first decides, and the second finds the verdict decided. -/
theorem gzExpire_verdict (hr : s.decl.verdictRoot = s.me) (hd : s.dom s.decl.commitDomain = some d) (hx : d.gzAxes = [])
    (ha : s.gzRed 0 0 = some a) (hb : s.gzRed 1 0 = some b) (ha0 : a.axis = 0) (hb0 : b.axis = 0) (had : a.done = false)
    (hbd : b.done = false) (hcells : (s.gzRun 0).cells = 0) (hwords : (s.gzRun 0).words = []) :
    (s.gzExpire 1).gzExpire 0 = s.gzDecide (s.fixedSpec 0 2 1 false 0 0) d a b := by
  have h1 : s.gzExpire 1 = s.gzDecide (s.fixedSpec 0 2 1 false 0 0) d a b := by
    rw [gzExpire_root (g := s.fixedSpec 0 2 1 false 0 0) rfl hr]
    show State.gzAdvance 1 0 true 5 s = _
    rw [gzAdvance_alone (g := s.fixedSpec 0 2 1 false 0 0) 4 hb rfl hd hx hbd, gzRoot_verdict (by decide) ha hb hx ha0 hb0 had]
  obtain ⟨-, -, hdone⟩ := gzDecide_alone (s := s) (a := a) (b := b) (g := s.fixedSpec 0 2 1 false 0 0) hx rfl rfl rfl hcells hwords
  have hoff := offPath_of_sweep (gzDecide_sweep s (s.fixedSpec 0 2 1 false 0 0) d a b)
  rw [h1]
  generalize s.gzDecide (s.fixedSpec 0 2 1 false 0 0) d a b = t at hdone hoff
  have hroot : t.decl.verdictRoot = t.me := by
    have hdecl : t.decl = s.decl := (congrArg State.decl hoff :)
    rw [State.me, hdecl]
    exact hr
  rw [gzExpire_root (g := t.fixedSpec 1 2 1 false 0 0) rfl hroot]
  exact gzAdvance_of_done 5 hdone

theorem verdictLost_due (hc : s.jq.verdict.sent = true) (hd : s.jq.verdict.decision = none) (hs : s.silent = false)
    (ht : 2 * s.jq.vTimeout.toNat ≤ (s.jq.slot - s.jq.verdict.sentAt).toNat) :
    s.verdictLost = ({ s with jg := { s.jg with member := { s.jg.member with state := 1, cause := 8 } } }).event 0x3F 0x0103 2
      [i8 s.jq.verdict.sentAt.toNat, i8 s.jq.verdict.orSent.toNat, i8 s.jq.verdict.andSent.toNat] := by
  refine if_neg ?_
  rw [hc, hd, hs, decide_eq_false (Nat.not_lt.mpr ht)]
  exact Bool.false_ne_true

end

/-- Settles O15: at a root alone on its lines the deadline of reduction 1 decides. -/
theorem verdictDeadlinesDecide : Obligations.VerdictDeadlinesDecide := by
  refine ⟨fun s d a b hr hp hn hs hf ht hd hx ha hb ha0 hb0 had hbd hcells hwords => ?_, fun s hc hd hs ht => ?_⟩
  · intro o n clean
    refine exec_run State.verdictTimeout rfl ?_
    rw [(verdictTimeout_due (s := s.begin_) hr hp hn hs hf ht).trans
      (gzExpire_verdict (s := s.begin_) hr hd hx ha hb ha0 hb0 had hbd hcells hwords)]
    obtain ⟨hphase, hdec, -⟩ :=
      gzDecide_alone (s := s.begin_) (a := a) (b := b) (g := s.begin_.fixedSpec 0 2 1 false 0 0) hx rfl rfl rfl hcells hwords
    have hstep := congrArg Fixed.step (gzDecide_fixed s.begin_ (s.begin_.fixedSpec 0 2 1 false 0 0) d a b)
    generalize s.begin_.gzDecide (s.begin_.fixedSpec 0 2 1 false 0 0) d a b = t at *
    exact ⟨hphase, hstep, hdec⟩
  · exact does_run State.verdictLost rfl (verdictLost_due (s := s.begin_) hc hd hs ht)

end Sys2Proof.Machine
end

section
namespace Sys2Proof.Machine

/-- What a command leaves, by the state that its effect gives. -/
theorem exec_to {c : Instr} {s u : State} {P : State → Prop} (g : State → State) (hc : exec c s = run g s)
    (hu : g s.begin_ = u) (h : P { u.finish with pending := s.pending }) : ∃ t, exec c s = .next t ∧ P t :=
  exec_run g hc (hu ▸ h)

/-! ### A block comes to rest (R38, R138, R146, R396) -/

theorem markhorQuiesce_eq (s : State) : ∃ k : JkBlock, s.markhorQuiesce = { s with jk := k } := by
  unfold State.markhorQuiesce
  split
  · exact ⟨s.jk, rfl⟩
  · exact ⟨_, rfl⟩

/-- What a block at rest has given up. -/
theorem quiesceNow_effect (s : State) :
    s.quiesceNow.jq = { s.jq with quiesced := true, draining := false, running := false, acts := [], held := [], carried := [],
                                  phases := 0, gatesWaiting := 0 } ∧
      s.quiesceNow.jx.seqTx = [] ∧ s.quiesceNow.jx.seqRx = [] ∧ s.quiesceNow.jz.runs = [] ∧
      s.quiesceNow.jp.targets = List.replicate 15 0 ∧ s.quiesceNow.jg = s.jg ∧
      (s.js.cmd.busy = true → s.js.cmd.code = 2 → s.quiesceNow.js.cmd.outcome = some 0) := by
  unfold State.quiesceNow
  extract_lets src u
  have hs := resetSeq_settled u.dropEntries
  obtain ⟨htx, hrx, -, hruns, -⟩ := resetSeq_empties u.dropEntries
  generalize u.dropEntries.resetSeq = v at hs htx hrx hruns
  obtain ⟨k, hk⟩ := markhorQuiesce_eq v
  rw [hk]
  have hjs : v.js = s.js := (congrArg State.js hs :)
  have hkept (w : State) (hw : w = State.targetsDown { v with jk := k }) :
      (w.cmdEnds 2 0).jq = v.jq ∧ (w.cmdEnds 2 0).jx = v.jx ∧ (w.cmdEnds 2 0).jz = v.jz ∧ (w.cmdEnds 2 0).jg = v.jg ∧
        (w.cmdEnds 2 0).jp.targets = List.replicate 15 0 := by
    unfold State.cmdEnds
    subst hw
    split <;> exact ⟨rfl, rfl, rfl, rfl, rfl⟩
  obtain ⟨hjq, hjx, hjz, hjg, hjp⟩ := hkept _ rfl
  refine ⟨hjq.trans (congrArg State.jq hs :), (congrArg JxBlock.seqTx hjx).trans htx, (congrArg JxBlock.seqRx hjx).trans hrx,
    (congrArg JzBlock.runs hjz).trans hruns, hjp, hjg.trans (congrArg State.jg hs :), fun hb hc => ?_⟩
  refine (congrArg (fun s : State => s.js.cmd.outcome) (if_pos ?_)).trans rfl
  show (v.js.cmd.busy && v.js.cmd.code.toNat == 2) = true
  rw [hjs, hb, hc]
  rfl

/-- Settles O12. -/
theorem aDrainedBlockQuiesces : Obligations.ADrainedBlockQuiesces := by
  intro s hd hn
  refine exec_to State.quiescedSet rfl (if_pos (Bool.and_eq_true_iff.mpr ⟨hd, hn⟩)) ?_
  obtain ⟨hjq, htx, hrx, hruns, htargets, -, hcmd⟩ := quiesceNow_effect s.begin_
  generalize s.begin_.quiesceNow = t at *
  exact ⟨congrArg JqBlock.quiesced hjq, congrArg JqBlock.draining hjq, congrArg JqBlock.running hjq, congrArg JqBlock.acts hjq,
    congrArg JqBlock.held hjq, congrArg JqBlock.phases hjq, htx, hrx, hruns, htargets, (congrArg JqBlock.step hjq :),
    (congrArg JqBlock.slot hjq :), hcmd⟩

/-! ### QUIESCE and RESUME (R38, R39, R364) -/

section

variable {s : State} {port : Mgmt}

theorem starts_cmd (s : State) (port : Mgmt) (code : Nat) :
    (s.starts port code).js.cmd = { s.js.cmd with busy := true, code := BitVec.ofNat 8 code, latched := s.js.cmd.args, outcome := none,
                                                  port := port == Mgmt.sm, bytes := 0 } := by
  cases port <;> rfl

/-- In GEN nothing more is issued, and the block drains. -/
theorem quiesceStart_gen (hm : s.jg.member.state ≠ 1) (hg : s.jq.gen = true) :
    s.quiesceStart.jq = { s.jq with draining := true, acts := [], held := [], carried := [], phases := 0, gatesWaiting := 0 } ∧
      s.quiesceStart.js = s.js := by
  unfold State.quiesceStart
  rw [if_neg hm, if_pos hg]
  have h := dropWaiting_settled s.dropEntries
  generalize s.dropEntries.dropWaiting = u at h
  have hjq : u.jq = s.dropEntries.jq := (congrArg State.jq h :)
  have hjs : u.js = s.js := (congrArg State.js h :)
  exact ⟨congrArg (fun q : JqBlock => { q with draining := true }) hjq, hjs⟩

/-- A halted member is in RUN and at rest. -/
theorem quiesceStart_halted (hm : s.jg.member.state = 1) (hb : s.js.cmd.busy = true) (hc : s.js.cmd.code = 2) :
    s.quiesceStart.jg.member.state = 0 ∧ s.quiesceStart.jg.member.cause = 0 ∧ s.quiesceStart.jq.quiesced = true ∧
      s.quiesceStart.jq.running = false ∧ s.quiesceStart.js.cmd.outcome = some 0 ∧ s.quiesceStart.jq.step = s.jq.step := by
  unfold State.quiesceStart
  rw [if_pos hm]
  obtain ⟨hjq, -, -, -, -, hjg, hcmd⟩ := quiesceNow_effect
    (({ s with jg := { s.jg with member := { s.jg.member with state := 0, cause := 0 } } }).setVerdict fun v => { v with sent := false })
  generalize State.quiesceNow _ = t at *
  exact ⟨congrArg (fun g : JgBlock => g.member.state) hjg, congrArg (fun g : JgBlock => g.member.cause) hjg, congrArg JqBlock.quiesced hjq,
    congrArg JqBlock.running hjq, hcmd hb hc, (congrArg JqBlock.step hjq :)⟩

/-- RESUME keeps what is beside the Gazelle path, and with no cell held each of its reductions starts once. -/
theorem resumeStart_effect (s : State) :
    s.resumeStart.offPath = { s with jq := { s.jq with resuming := true } }.offPath ∧
      ((∃ d, s.dom s.decl.commitDomain = some d ∧ d.contains s.decl.coord = true) → s.jz.held = [] →
        (s.resumeStart.gzRun 3).run = (s.gzRun 3).run + 1 ∧ (s.resumeStart.gzRun 4).run = (s.gzRun 4).run + 1) := by
  unfold State.resumeStart
  extract_lets src u
  have h3 := gzStart_offPath u 3 false
  refine ⟨(gzStart_offPath ..).trans h3, fun ⟨d, hd, hc⟩ hh => ?_⟩
  obtain ⟨hheld, hrun3⟩ := gzStart_commit_run (s := u) (rid := 3) (by decide) hh hd hc false
  generalize u.gzStart 3 false = v at *
  have hdom : v.dom = s.dom := (congrArg State.dom h3 :)
  have hdecl : v.decl = s.decl := (congrArg State.decl h3 :)
  rw [← hdom, ← hdecl] at hd
  rw [← hdecl] at hc
  obtain ⟨-, hrun4⟩ := gzStart_commit_run (s := v) (rid := 4) (by decide) hheld hd hc false
  refine ⟨(hrun4 3).trans ((if_neg (by decide)).trans ((hrun3 3).trans (if_pos rfl))), (hrun4 4).trans ((if_pos rfl).trans ?_)⟩
  exact congrArg (· + 1) ((hrun3 4).trans (if_neg (by decide)))

/-- STAGING_TEST empties staging and what the ring holds. -/
theorem stagingTest_effect (s : State) (good : Bool) :
    (s.stagingTest good).staging = [] ∧ (s.stagingTest good).js.cmd.outcome = some (if good then 0 else 3) ∧
      (s.stagingTest good).jx.stagingTested = true ∧ (s.stagingTest good).jx.rx = [] ∧ (s.stagingTest good).jx.seqTx = [] ∧
      (s.stagingTest good).jq = s.jq := by
  have hs := resetSeq_settled s
  obtain ⟨htx, -, hrx, -⟩ := resetSeq_empties s
  unfold State.stagingTest
  generalize s.resetSeq = u at *
  have hjq : u.jq = s.jq := (congrArg State.jq hs :)
  cases good <;> exact ⟨rfl, rfl, rfl, hrx, htx, hjq⟩

end

/-- Settles O52. -/
theorem quiescenceIsCommanded : Obligations.QuiescenceIsCommanded := by
  intro s port
  refine ⟨fun hg => ?_, fun hg hw => ⟨fun hm hn => ?_, fun hm hn => ?_, fun hm => ?_⟩, fun hg hr => ?_, fun hg hr => ?_,
    fun good hg hr => ?_⟩
  · exact does_run (fun s => s.cmdNop port) rfl (giveCmd_of_mayGive (s := s.begin_) _ hg rfl)
  · refine does_run (fun s => s.cmdQuiesce port) rfl ((giveCmd_of_mayGive (s := s.begin_) _ hg hw).trans ?_)
    have hjg : (s.begin_.starts port 2).jg = s.jg := (starts_fields ..).1
    have hjq : (s.begin_.starts port 2).jq = s.jq := (starts_fields ..).2.1
    refine (if_neg (hjg ▸ hm)).trans ((if_neg ?_).trans ?_)
    · rw [hjq]
      exact ne_true_of_eq_false hn
    · exact congrArg (fun q : JqBlock => { s.begin_.starts port 2 with jq := { q with quiesceReq := true } }) hjq
  · refine exec_to (fun s => s.cmdQuiesce port) rfl (giveCmd_of_mayGive (s := s.begin_) _ hg hw) ?_
    have hjg : (s.begin_.starts port 2).jg = s.jg := (starts_fields ..).1
    have hjq : (s.begin_.starts port 2).jq = s.jq := (starts_fields ..).2.1
    have hcmd := starts_cmd s.begin_ port 2
    generalize s.begin_.starts port 2 = u at *
    obtain ⟨hq, hjs⟩ := quiesceStart_gen (s := u) (hjg ▸ hm) (hjq ▸ hn)
    generalize u.quiesceStart = t at *
    rw [hjq] at hq
    exact ⟨congrArg JqBlock.draining hq, congrArg JqBlock.phases hq, congrArg JqBlock.acts hq, congrArg JqBlock.held hq,
      (congrArg (fun j : JsBlock => j.cmd.outcome) hjs).trans (congrArg CmdBlock.outcome hcmd), (congrArg JqBlock.step hq :)⟩
  · refine exec_to (fun s => s.cmdQuiesce port) rfl (giveCmd_of_mayGive (s := s.begin_) _ hg hw) ?_
    have hjg : (s.begin_.starts port 2).jg = s.jg := (starts_fields ..).1
    have hjq : (s.begin_.starts port 2).jq = s.jq := (starts_fields ..).2.1
    have hcmd := starts_cmd s.begin_ port 2
    generalize s.begin_.starts port 2 = u at *
    obtain ⟨hst, hcause, hq, hrun, hout, hstep⟩ :=
      quiesceStart_halted (s := u) (hjg ▸ hm) (congrArg CmdBlock.busy hcmd) (congrArg CmdBlock.code hcmd)
    generalize u.quiesceStart = t at *
    exact ⟨hst, hcause, hq, hrun, hout, hstep.trans (congrArg JqBlock.step hjq)⟩
  · refine exec_to (fun s => s.cmdResume port) rfl (giveCmd_of_mayGive (s := s.begin_) _ hg hr) ?_
    have hview : (s.begin_.starts port 3).jq = s.jq ∧ (s.begin_.starts port 3).jz = s.jz ∧ (s.begin_.starts port 3).image = s.image := by
      simp
    have hcmd := starts_cmd s.begin_ port 3
    have hresp := response_starts s.begin_ port 3
    have hrest : s.jq.quiesced = true := (Bool.and_eq_true_iff.mp hr).2
    generalize s.begin_.starts port 3 = u at *
    obtain ⟨hoff, hrun⟩ := resumeStart_effect u
    generalize u.resumeStart = t at *
    obtain ⟨hjq, hjz, himg⟩ := hview
    obtain ⟨-, -, -, -, -, -, hres, hq, -, -, -, -, -, hc, hmw, hsm, -⟩ := offPath_fields hoff
    refine ⟨hres, hq.trans ((congrArg JqBlock.quiesced hjq :).trans hrest), (congrArg CmdBlock.outcome (hc.trans hcmd) :),
      (congrArg CmdBlock.busy (hc.trans hcmd) :), ?_, fun hd hh => ?_⟩
    · cases port
      · exact hmw.trans hresp
      · exact hsm.trans hresp
    · have hdom : u.dom = s.dom := by unfold State.dom State.img; rw [himg]
      have hdecl : u.decl = s.decl := by unfold State.decl State.img; rw [himg]
      have hcount : u.gzRun = s.gzRun := by unfold State.gzRun; rw [hjz]
      rw [hdom, hdecl, hcount] at hrun
      exact hrun hd ((congrArg JzBlock.held hjz).trans hh)
  · refine does_run (fun s => s.cmdClearDb port) rfl ((giveCmd_of_mayGive (s := s.begin_) _ hg hr).trans ?_)
    have hjq : (s.begin_.starts port 6).jq = s.jq := (starts_fields ..).2.1
    exact congrArg (fun q : JqBlock => ({ s.begin_.starts port 6 with jq := { q with db := [] } } : State).result 0) hjq
  · refine exec_to (fun s => s.cmdStagingTest port good) rfl (giveCmd_of_mayGive (s := s.begin_) _ hg hr) ?_
    have hjq : (s.begin_.starts port 8).jq = s.jq := (starts_fields ..).2.1
    obtain ⟨hst, hout, htest, hrx, htx, hq⟩ := stagingTest_effect (s.begin_.starts port 8) good
    generalize State.stagingTest _ good = t at *
    exact ⟨hst, hout, htest, hrx, htx, hq.trans hjq⟩

end Sys2Proof.Machine
end

section
namespace Sys2Proof.Machine

/-! ### Cells received (R155) -/

/-- The reductions of the path: the runs, the cells in progress, and what is held. -/
def State.gzParts (s : State) : List GzRun × List GzRed × List GzHeld × List GzHeld := (s.jz.runs, s.jz.reds, s.jz.held, s.jz.early)

theorem gzParts_of_calm {s t : State} (h : t.calm = s.calm) : t.gzParts = s.gzParts := by
  have hz : t.jz = s.jz := (congrArg State.jz h :)
  rw [State.gzParts, hz]
  rfl

theorem sendCell_gzParts (s : State) (port : Nat) (h : CellHdr) (payload : List Byte) (t : CellTrl) :
    (s.sendCell port h payload t).gzParts = s.gzParts := by
  have ht (item : TwinItem) (msg : TwinMsg) : (s.twinSend item msg).gzParts = s.gzParts := by
    unfold State.twinSend
    split <;> rfl
  unfold State.sendCell
  dsimp only
  split
  · rfl
  split
  · split
    · exact ht ..
    · exact ht ..
  · exact (gzParts_of_calm (queueItem_calm ..)).trans (ht ..)

/-- A result that goes on leaves the reductions. -/
theorem spreadResult_gzParts (s : State) (rid k : Nat) (g : GzSpec) (d : DomEntry) (epoch : BitVec 2) (run : W32)
    (onAxis : Option (Nat × Nat)) (payload : List Byte) (bad nf : Bool) (decision : Nat) (inc : Bool) :
    (s.spreadResult rid k g d epoch run onAxis payload bad nf decision inc).gzParts = s.gzParts := by
  have hif {c : Prop} [Decidable c] {a b u : State} (ha : a.gzParts = u.gzParts) (hb : b.gzParts = u.gzParts) :
      (if c then a else b).gzParts = u.gzParts := by
    split
    · exact ha
    · exact hb
  unfold State.spreadResult
  dsimp only
  rw [foldl_view (g := State.gzParts) (fun s a => ?_)]
  · split
    · rfl
    · exact hif rfl (sendCell_gzParts ..)
  · have h := hif (c := 0 < (s.gzPlaceOn g d a).nLeft) (sendCell_gzParts s (axisPort a true)
      (s.gzHdr rid k g epoch run true a true) payload (s.gzTrl g 0 bad nf decision inc)) (rfl : s.gzParts = s.gzParts)
    exact hif ((sendCell_gzParts ..).trans h) h

theorem gzRed_of_gzParts {s t : State} (h : t.gzParts = s.gzParts) (rid k : Nat) : t.gzRed rid k = s.gzRed rid k :=
  congrArg (fun p => p.2.1.find? fun r : GzRed => r.rid == rid && r.cell == k) h

theorem gzRun_of_gzParts {s t : State} (h : t.gzParts = s.gzParts) (rid : Nat) : t.gzRun rid = s.gzRun rid :=
  congrArg (fun p => (p.1.find? fun r : GzRun => r.rid == rid).getD ⟨rid, 0, false, false, [], 0, []⟩) h

/-- A cell in progress that is put back is the one that stands there. -/
theorem gzRed_setGzRed {s : State} {rid k : Nat} {r x : GzRed} (h : s.gzRed rid k = some r) (hr : x.rid = rid) (hk : x.cell = k) :
    (s.setGzRed x).gzRed rid k = some x := by
  unfold State.gzRed State.setGzRed at *
  dsimp only
  generalize s.jz.reds = l at *
  induction l with
  | nil => exact absurd h (by simp)
  | cons y l ih =>
    rw [List.map_cons, List.find?_cons]
    rw [List.find?_cons] at h
    subst hr hk
    by_cases hy : (y.rid == x.rid && y.cell == x.cell) = true
    · rw [if_pos hy]
      simp
    · have hn : (y.rid == x.rid && y.cell == x.cell) = false := eq_false_of_ne_true hy
      rw [hn] at h
      rw [if_neg hy, hn]
      exact ih h

section

variable {s : State} {port : Nat} {hdr trailer : BitVec 128} {payload : List Byte} {g : GzSpec} {d : DomEntry}

/-- The state in which a received cell is tested. -/
def State.cellSeen (s : State) (port : Nat) (hdr : BitVec 128) (payload : List Byte) (trailer : BitVec 128) : State :=
  let bytes := bytesLE 16 hdr.toNat ++ payload ++ bytesLE 16 trailer.toNat
  let s := s.setPort port fun q => { q with rx := { q.rx with items := dropItem 0 bytes q.rx.items } }
  { s with jz := { s.jz with lastHdr := hdr, lastTrl := trailer } }

/-- Does a cell name a place of this member, and are its other fields in range? -/
def State.cellFit (s : State) (port : Nat) (h : CellHdr) (t : CellTrl) : Bool × Bool :=
  match s.gzSpec (s.tables h.tepoch) h.rid with
  | some g => (match s.dom g.domain with | some d => (s.cellPlace port h g d, cellFields h t g) | none => (false, false))
  | none => (false, false)

theorem cellFit_none {h : CellHdr} {t : CellTrl}
    (hp : ∀ g d, s.gzSpec (s.tables h.tepoch) h.rid = some g → s.dom g.domain = some d → s.cellPlace port h g d = false) :
    (s.cellFit port h t).1 = false := by
  unfold State.cellFit
  cases hg : s.gzSpec (s.tables h.tepoch) h.rid with
  | none => rfl
  | some g =>
    dsimp only
    cases hd : s.dom g.domain with
    | none => rfl
    | some d => exact hp g d hg hd

theorem cellFit_some {h : CellHdr} (t : CellTrl) (hg : s.gzSpec (s.tables h.tepoch) h.rid = some g) (hd : s.dom g.domain = some d) :
    s.cellFit port h t = (s.cellPlace port h g d, cellFields h t g) := by
  simp only [State.cellFit, hg, hd]

theorem cellSeen_calm (s : State) (port : Nat) (hdr : BitVec 128) (payload : List Byte) (trailer : BitVec 128) :
    (s.cellSeen port hdr payload trailer).calm = { s with jz := { s.jz with lastHdr := hdr, lastTrl := trailer } }.calm := by
  have h := setPort_calm s port (f := fun q => { q with rx := { q.rx with items :=
    (dropItem 0 (bytesLE 16 hdr.toNat ++ payload ++ bytesLE 16 trailer.toNat) q.rx.items) } }) fun _ => rfl
  unfold State.cellSeen
  dsimp only
  generalize s.setPort port _ = u at h
  have hz : u.jz = s.jz := (congrArg State.jz h :)
  rw [hz]
  exact (congrArg (fun u : State => { u with jz := { s.jz with lastHdr := hdr, lastTrl := trailer } }) h :)

/-- A wrong CRC is counted and recorded, and sets FAULT on the reduce sweep. -/
def State.crcCounted (s : State) (port : Nat) (hdr : BitVec 128) : State :=
  let s := { s with jz := { s.jz with discCrc := stick s.jz.discCrc 1 } }
  let s := s.event 0x2C 0x0401 1 [i1 port, i2 (cellHdr hdr).rid, i4 (cellHdr hdr).run.toNat, i1 (b2n (cellHdr hdr).result)]
  if (cellHdr hdr).result then s else s.fault

theorem crcCounted_fields (s : State) (port : Nat) (hdr : BitVec 128) :
    (s.crcCounted port hdr).jz = { s.jz with discCrc := stick s.jz.discCrc 1 } ∧
      (s.crcCounted port hdr).jq.verdict.fault = (s.jq.verdict.fault || !(cellHdr hdr).result) := by
  unfold State.crcCounted
  cases (cellHdr hdr).result
  · exact ⟨rfl, (Bool.or_true _).symm⟩
  · exact ⟨rfl, (Bool.or_false _).symm⟩

/-- A cell with a wrong CRC that names no place of this member. -/
theorem gazelleCell_badCrc (hr : s.inReset = false) (hc : cellCrc hdr payload ≠ (cellTrl trailer).crc)
    (hp : ∀ g d, s.gzSpec (s.tables (cellHdr hdr).tepoch) (cellHdr hdr).rid = some g → s.dom g.domain = some d →
      s.cellPlace port (cellHdr hdr) g d = false) :
    s.gazelleCell port hdr payload trailer =
      ((s.cellSeen port hdr payload trailer).crcCounted port hdr).cellFree port := by
  unfold State.gazelleCell
  rw [if_neg (ne_true_of_eq_false hr)]
  extract_lets h t bytes u src v key fit held
  rw [if_pos (.inr hc)]
  have hfit : fit.1 = false := cellFit_none (s := s) hp
  rw [hfit]
  rfl

/-- A good cell of the present epoch and run is used. -/
theorem gazelleCell_good (hr : s.inReset = false) (hl : payload.length = 64) (hc : cellCrc hdr payload = (cellTrl trailer).crc)
    (hd : s.dom (cellHdr hdr).domain = some d) (hk : d.key.toNat = (cellTrl trailer).key)
    (hg : s.gzSpec (s.tables (cellHdr hdr).tepoch) (cellHdr hdr).rid = some g) (hgd : s.dom g.domain = some d)
    (hp : s.cellPlace port (cellHdr hdr) g d = true) (hf : cellFields (cellHdr hdr) (cellTrl trailer) g = true)
    (he : (cellHdr hdr).tepoch = s.jg.epoch.current) (hrun : (cellHdr hdr).run = (s.gzRun (cellHdr hdr).rid).run)
    (hany : (s.jz.runs.any fun r => r.rid == (cellHdr hdr).rid) = true) :
    s.gazelleCell port hdr payload trailer =
      ((s.cellSeen port hdr payload trailer).cellFree port).useCell ⟨port, ⟨hdr, payload, trailer⟩, false⟩ false := by
  unfold State.gazelleCell
  rw [if_neg (ne_true_of_eq_false hr)]
  extract_lets h t bytes u src v key fit held
  have hkey : key = true := by
    show (match s.dom h.domain with | some d => d.key.toNat == t.key | none => false) = true
    rw [hd]
    exact beq_iff_eq.mpr hk
  have hfit : fit = (true, true) := (cellFit_some (s := s) t hg hgd).trans (congrArg₂ Prod.mk hp hf)
  rw [if_neg (not_or.mpr ⟨not_not_intro hl, not_not_intro hc⟩), hkey, hfit]
  show v.routeCell (held false) false = _
  have hsucc2 (x : BitVec 2) : x ≠ x + 1 := by bv_omega
  have hsucc32 (x : W32) : x ≠ x + 1 := by bv_omega
  have hnext : h.tepoch ≠ v.jg.epoch.current + 1 := fun hx => hsucc2 _ (he.symm.trans hx)
  have hone : h.run ≠ (v.gzRun h.rid).run + 1 := fun hx => hsucc32 _ (hrun.symm.trans hx)
  unfold State.routeCell
  dsimp only
  rw [if_neg, if_neg, if_neg, if_neg hone, if_neg]
  · rfl
  · rintro (hx | hx)
    · exact hx hrun
    · exact absurd (hx.symm.trans (congrArg not hany)) (by decide)
  · exact fun hx => hx.1 he
  · exact fun hx => hnext hx.1
  · rintro ⟨-, hx | hx⟩
    · exact hnext hx.1
    · exact hone hx

end

/-! ### Cells that are used (R25, R146–R149) -/

section

variable {s : State} {c : GzHeld} {g : GzSpec} {d : DomEntry}

theorem useCell_result (hg : s.gzSpec (s.tables (cellHdr c.cell.hdr).tepoch) (cellHdr c.cell.hdr).rid = some g)
    (hd : s.dom g.domain = some d) (hp : s.cellPlace c.port (cellHdr c.cell.hdr) g d = true)
    (hr : (cellHdr c.cell.hdr).result = true) :
    ∃ u : State, u.gzParts = s.gzParts ∧ s.useCell c false = u.gzDeliver (cellHdr c.cell.hdr).rid g
      (unpackElems g.esize (if (cellHdr c.cell.hdr).rid = 0 then 2 else g.inCell ((cellHdr c.cell.hdr).index g)) c.cell.payload)
      (cellTrl c.cell.trailer).nf (cellTrl c.cell.trailer).decision (cellTrl c.cell.trailer).inc := by
  refine ⟨_, spreadResult_gzParts s (cellHdr c.cell.hdr).rid ((cellHdr c.cell.hdr).index g) g d (cellHdr c.cell.hdr).tepoch
    (cellHdr c.cell.hdr).run (some ((cellHdr c.cell.hdr).axis, (cellTrl c.cell.trailer).hops)) c.cell.payload
    ((cellTrl c.cell.trailer).bad || false) (cellTrl c.cell.trailer).nf (cellTrl c.cell.trailer).decision
    (cellTrl c.cell.trailer).inc, ?_⟩
  simp only [State.useCell, hg, hd, hp, hr, Bool.not_true, Bool.false_eq_true, if_false, if_true]

/-- The bytes of an element of eight bytes. -/
theorem unpackElems_word (k n : Nat) (hk : k < n) (b : List Byte) :
    BitVec.ofNat 64 ((unpackElems 8 n b).getD k GzElem.zero).nat = BitVec.ofNat 64 (natLE ((b.drop (8 * k)).take 8)) := by
  have h : (unpackElems 8 n b).getD k GzElem.zero = GzElem.ofNat (natLE ((b.drop (8 * k)).take 8)) := by
    rw [unpackElems, List.getD_eq_getElem?_getD, List.getElem?_map, List.getElem?_range hk]
    rfl
  rw [h]
  refine BitVec.eq_of_toNat_eq ?_
  simp only [GzElem.nat, GzElem.ofNat, BitVec.toNat_ofNat]
  omega

/-- The result cell of reduction 0 gives the decision. -/
theorem useCell_decides (hg : s.gzSpec (s.tables (cellHdr c.cell.hdr).tepoch) (cellHdr c.cell.hdr).rid = some g)
    (hd : s.dom g.domain = some d) (hp : s.cellPlace c.port (cellHdr c.cell.hdr) g d = true)
    (hr : (cellHdr c.cell.hdr).result = true) (h0 : (cellHdr c.cell.hdr).rid = 0) (hcells : (s.gzRun 0).cells = 0)
    (hwords : (s.gzRun 0).words = []) :
    (s.useCell c false).phase 2 = false ∧
      (s.useCell c false).jq.verdict.decision = some ⟨(cellTrl c.cell.trailer).decision == 1,
        BitVec.ofNat 64 (natLE (c.cell.payload.take 8)), BitVec.ofNat 64 (natLE ((c.cell.payload.drop 8).take 8))⟩ := by
  obtain ⟨u, hu, huse⟩ := useCell_result hg hd hp hr
  rw [h0, if_pos rfl] at huse
  rw [h0] at hg
  obtain rfl : s.fixedSpec 1 2 1 false 0 0 = g := Option.some.inj hg
  have hrun := gzRun_of_gzParts hu 0
  have hnf (x : Bool) (n : Nat) (i : Bool) (l : List GzElem) :
      u.gzDeliver 0 (s.fixedSpec 1 2 1 false 0 0) l x n i = u.gzDeliver 0 (s.fixedSpec 1 2 1 false 0 0) l false n i := rfl
  rw [huse, hnf]
  obtain ⟨hphase, hdec, -⟩ := gzDeliver_verdict (s := u) (g := s.fixedSpec 1 2 1 false 0 0) rfl rfl rfl (hrun ▸ hcells) (hrun ▸ hwords)
    (unpackElems (s.fixedSpec 1 2 1 false 0 0).esize 2 c.cell.payload) (cellTrl c.cell.trailer).decision (cellTrl c.cell.trailer).inc
  refine ⟨hphase, hdec.trans ?_⟩
  have hsize : (s.fixedSpec 1 2 1 false 0 0).esize = 8 := rfl
  dsimp only
  rw [hsize, unpackElems_word 0 2 (by decide), unpackElems_word 1 2 (by decide)]
  rfl

/-- A cell whose own state is still missing does not go on. -/
theorem gzAdvance_waits {rid k : Nat} (fuel : Nat) {r : GzRed} (hr : s.gzRed rid k = some r)
    (hg : s.gzSpec (s.tables r.epoch) rid = some g) (hd : s.dom g.domain = some d) (hn : r.done = false) (ho : r.own = none)
    (hx : r.axis < d.gzAxes.length) : State.gzAdvance rid k false (fuel + 1) s = s := by
  rw [State.gzAdvance]
  simp only [hr, hg, hd, hn, ho, List.getElem?_eq_getElem hx, Option.isSome_none, Bool.and_false, Bool.or_false, Bool.false_eq_true,
    if_false, ite_self]

/-- A reduce cell whose place still waits for this member's own state is kept as that half's. -/
theorem useCell_half {r : GzRed} (hg : s.gzSpec (s.tables (cellHdr c.cell.hdr).tepoch) (cellHdr c.cell.hdr).rid = some g)
    (hd : s.dom g.domain = some d) (hp : s.cellPlace c.port (cellHdr c.cell.hdr) g d = true)
    (hr : (cellHdr c.cell.hdr).result = false) (hred : s.gzRed (cellHdr c.cell.hdr).rid ((cellHdr c.cell.hdr).index g) = some r)
    (hn : r.done = false) (ho : r.own = none) (he : r.epoch = (cellHdr c.cell.hdr).tepoch) (hx : r.axis < d.gzAxes.length)
    (hh : (r.halves.any fun x => x.right == (cellHdr c.cell.hdr).minus && x.axis == (cellHdr c.cell.hdr).axis) = false) :
    let r' := { r with halves := ⟨(cellHdr c.cell.hdr).minus, (cellHdr c.cell.hdr).axis,
      unpackElems g.esize (g.inCell ((cellHdr c.cell.hdr).index g)) c.cell.payload, (cellTrl c.cell.trailer).bad⟩ :: r.halves }
    s.useCell c false = s.setGzRed r' ∧ (s.useCell c false).gzRed (cellHdr c.cell.hdr).rid ((cellHdr c.cell.hdr).index g) = some r' := by
  intro r'
  have hkey := List.find?_some hred
  simp only [Bool.and_eq_true, beq_iff_eq] at hkey
  have hput : (s.setGzRed r').gzRed (cellHdr c.cell.hdr).rid ((cellHdr c.cell.hdr).index g) = some r' :=
    gzRed_setGzRed hred hkey.1 hkey.2
  have huse : s.useCell c false = s.setGzRed r' := by
    have hstop : (r.done || r.halves.any fun x => x.right == (cellHdr c.cell.hdr).minus && x.axis == (cellHdr c.cell.hdr).axis) =
        false := by rw [hn, hh]; rfl
    simp only [State.useCell, hg, hd, hp, hr, hred, hstop, Bool.not_true, Bool.or_false, Bool.false_eq_true, if_false]
    exact gzAdvance_waits (s := s.setGzRed r') 4 hput (he ▸ hg) hd hn ho hx
  exact ⟨huse, huse ▸ hput⟩

end

/-! ### The VC0 window (R152) -/

theorem putCell_calm (s : State) (port : Nat) (c : GzCell) : (s.putCell port c).calm = (s.useVc0 port 120).calm :=
  queueItem_calm ..

theorem modifyNth_getD_const {α : Type} (v : α) (n k : Nat) (l : List α) (d : α) :
    (modifyNth (fun _ => v) n l).getD k d = v ∨ (modifyNth (fun _ => v) n l).getD k d = l.getD k d := by
  simp only [List.getD_eq_getElem?_getD, modifyNth_getElem?]
  split
  · cases l[k]? with
    | none => exact .inr rfl
    | some a => exact .inl rfl
  · exact .inr rfl

/-- Draining the held cells keeps the window and its limit. -/
theorem drainCap_window (l : List GzHeld) (s : State) (h : ∀ p, s.jz.used.getD p 0 ≤ s.capBytes) :
    (s.drainCap l).jz.winAt = s.jz.winAt ∧ ∀ p, (s.drainCap l).jz.used.getD p 0 ≤ s.capBytes := by
  induction l generalizing s with
  | nil => exact ⟨rfl, h⟩
  | cons c l ih =>
    rw [State.drainCap]
    split
    next hfull =>
      dsimp only
      split
      · exact ih _ h
      · exact ih _ h
    next hfits =>
      have hv := putCell_calm s c.port c.cell
      generalize s.putCell c.port c.cell = t at hv
      have hused : t.jz.used = modifyNth (fun _ => s.jz.used.getD c.port 0 + 120) c.port s.jz.used :=
        (congrArg (fun u : State => u.jz.used) hv :)
      have hwin : t.jz.winAt = s.jz.winAt := (congrArg (fun u : State => u.jz.winAt) hv :)
      have hcap : t.capBytes = s.capBytes := (congrArg State.capBytes hv :)
      rw [← hwin, ← hcap]
      refine ih t fun p => ?_
      rw [hused, hcap]
      rcases modifyNth_getD_const (s.jz.used.getD c.port 0 + 120) c.port p s.jz.used 0 with hp | hp
      · rw [hp]
        exact Nat.not_lt.mp hfits
      · rw [hp]
        exact h p

/-- A new window starts from zero, and holds to its limit. -/
theorem capWindow_effect {s : State} (h : s.jq.slot.toNat / 32 * 32 ≠ s.jz.winAt) :
    s.capWindow.jz.winAt = s.jq.slot.toNat / 32 * 32 ∧ ∀ p, s.capWindow.jz.used.getD p 0 ≤ s.capBytes := by
  unfold State.capWindow
  dsimp only
  rw [if_neg h]
  refine drainCap_window _ _ fun p => ?_
  dsimp only
  have hz (n : Nat) : (List.replicate n 0).getD p 0 = 0 := by
    rw [List.getD_eq_getElem?_getD, List.getElem?_replicate]
    split <;> rfl
  rw [hz]
  exact Nat.zero_le _

/-- Settles O22: `gazelleCell_badCrc`; `gazelleCell_good` with `useCell_decides` or `useCell_half`; `capWindow_effect`. -/
theorem gazelleCellsAreTestedAndUsed : Obligations.GazelleCellsAreTestedAndUsed := by
  refine ⟨fun s port hdr payload trailer hr hl hc hp => ?_,
    fun s port hdr payload trailer g d => ?_, fun s hw => ⟨?_, fun hq => ?_⟩⟩
  · refine exec_to (fun s => s.gazelleCell port.toNat hdr payload trailer) rfl (gazelleCell_badCrc (s := s.begin_) hr hc hp) ?_
    have hcalm := cellFree_calm ((s.begin_.cellSeen port.toNat hdr payload trailer).crcCounted port.toNat hdr) port.toNat
    obtain ⟨hz, hfault⟩ := crcCounted_fields (s.begin_.cellSeen port.toNat hdr payload trailer) port.toNat hdr
    have hseen := cellSeen_calm s.begin_ port.toNat hdr payload trailer
    generalize s.begin_.cellSeen port.toNat hdr payload trailer = u at *
    generalize u.crcCounted port.toNat hdr = v at *
    generalize v.cellFree port.toNat = t at *
    have hu : u.jz = { s.jz with lastHdr := hdr, lastTrl := trailer } := (congrArg State.jz hseen :)
    have hq : u.jq = s.jq := (congrArg State.jq hseen :)
    have ht : t.jz = v.jz := (congrArg State.jz hcalm :)
    rw [hz, hu] at ht
    rw [hq] at hfault
    exact ⟨(congrArg JzBlock.discCrc ht :), (congrArg JzBlock.lastHdr ht :), (congrArg JzBlock.lastTrl ht :),
      (congrArg JzBlock.reds ht :), (congrArg (fun u : State => u.jq.verdict.fault) hcalm :).trans hfault⟩
  · intro h q hr hl hc hd hk hg hgd hp hf he hrun hany
    have hcell := gazelleCell_good (s := s.begin_) hr hl hc hd hk hg hgd hp hf he hrun hany
    have hview : ((s.begin_.cellSeen port.toNat hdr payload trailer).cellFree port.toNat).calm =
        { s with jz := { s.jz with lastHdr := hdr, lastTrl := trailer } }.calm :=
      (cellFree_calm ..).trans (cellSeen_calm s.begin_ ..)
    generalize (s.begin_.cellSeen port.toNat hdr payload trailer).cellFree port.toNat = u at hcell hview
    have hspec : u.gzSpec (u.tables h.tepoch) h.rid = some g := (congrArg (fun u : State => u.gzSpec (u.tables h.tepoch) h.rid) hview :).trans hg
    have hdom : u.dom g.domain = some d := (congrArg (fun u : State => u.dom g.domain) hview :).trans hgd
    have hplace : u.cellPlace port.toNat h g d = true := (congrArg (fun u : State => u.cellPlace port.toNat h g d) hview :).trans hp
    have hparts : u.gzParts = s.gzParts := (congrArg State.gzParts hview :)
    have hverdict : u.jq.verdict = s.jq.verdict := (congrArg (fun u : State => u.jq.verdict) hview :)
    have hstep : u.jq.step = s.jq.step := (congrArg (fun u : State => u.jq.step) hview :)
    refine ⟨fun h0 hres hcells hwords => ?_, fun r hres hred hn ho hep hx hh => ?_⟩
    · refine exec_to (fun s => s.gazelleCell port.toNat hdr payload trailer) rfl hcell ?_
      have hcount := gzRun_of_gzParts hparts 0
      obtain ⟨hphase, hdec⟩ := useCell_decides (c := ⟨port.toNat, ⟨hdr, payload, trailer⟩, false⟩) hspec hdom hplace hres h0
        (hcount ▸ hcells) (hcount ▸ hwords)
      have hfix := congrArg Fixed.step (useCell_fixed u ⟨port.toNat, ⟨hdr, payload, trailer⟩, false⟩ false)
      generalize u.useCell _ false = t at *
      exact ⟨hphase, hfix.trans hstep, hdec⟩
    · refine exec_to (fun s => s.gazelleCell port.toNat hdr payload trailer) rfl hcell ?_
      have hput := gzRed_of_gzParts hparts h.rid (h.index g)
      have hepoch : u.gzSpec (u.tables r.epoch) h.rid = some g := hep ▸ hspec
      obtain ⟨huse, hkept⟩ := useCell_half (c := ⟨port.toNat, ⟨hdr, payload, trailer⟩, false⟩) hspec hdom hplace hres
        (hput.trans hred) hn ho hep hx hh
      exact ⟨(congrArg (fun t : State => t.jq.verdict) huse).trans hverdict, hkept⟩
  · refine exec_run State.capWindow rfl ?_
    obtain ⟨hwin, hused⟩ := capWindow_effect (s := s.begin_) hw
    generalize s.begin_.capWindow = t at *
    exact ⟨hwin, hused⟩
  · refine does_run State.capWindow rfl ((if_neg hw).trans ?_)
    show State.drainCap _ s.begin_.jz.capQueue = _
    rw [show s.begin_.jz.capQueue = [] from hq]
    rfl

end Sys2Proof.Machine
end

section
namespace Sys2Proof.Machine

/-! ### What a routed chunk leaves alone (R113–R130) -/

/-- The state without what a received chunk can change: the ring exchange, what the Gazelle path changes, the masks' notes, the scans,
staging and the scratch memory. -/
def State.offRing (s : State) : State :=
  { s.offPath with
    jx := JxBlock.reset, staging := [], scratch := [],
    ji := { s.ji with maskMiss := [], maskLost := 0, maskBad := [], lost := [] },
    ju := { s.offPath.ju with scans := [] } }

theorem offRing_of_offPath {s t : State} (h : t.offPath = s.offPath) : t.offRing = s.offRing :=
  (congrArg (fun u : State => { u with
    jx := JxBlock.reset, staging := [], scratch := [],
    ji := { u.ji with maskMiss := [], maskLost := 0, maskBad := [], lost := [] },
    ju := { u.ju with scans := [] } }) h :)

theorem offRing_of_calm {s t : State} (h : t.calm = s.calm) : t.offRing = s.offRing := offRing_of_offPath (offPath_of_calm h)

theorem offRing_ite {c : Prop} [Decidable c] {a b s : State} (ha : a.offRing = s.offRing) (hb : b.offRing = s.offRing) :
    (if c then a else b).offRing = s.offRing := by
  split
  · exact ha
  · exact hb

section

variable (s : State)

theorem freeChunk_offRing (c : RxChunk) : (s.freeChunk c).offRing = s.offRing := offRing_of_calm (freeChunk_calm ..)

theorem badForm_offRing (raw : BitVec 512) (test : Nat) : (s.badForm raw test).offRing = s.offRing := by rfl

theorem stale_offRing (epoch : BitVec 2) (src dom : Nat) : (s.stale epoch src dom).offRing = s.offRing := by rfl

theorem maskEpochBad_offRing (h : ChunkHdr) : (s.maskEpochBad h).offRing = s.offRing := by rfl

theorem maskLost_offRing (tile tensor row : Nat) (c : CatEntry) : (s.maskLost tile tensor row c).offRing = s.offRing := by
  unfold State.maskLost
  exact offRing_ite rfl rfl

theorem maskEpoch_offRing (h : ChunkHdr) : (s.maskEpoch h).offRing = s.offRing := by
  have hm : (match s.cat h.tensor with
      | some c => s.maskLost (((s.chunk h.chunk).map ChunkEntry.tile).getD 0) h.tensor (c.rowOf h.group0) c
      | none => s).offRing = s.offRing := by
    split
    · exact maskLost_offRing ..
    · rfl
  exact (maskEpochBad_offRing ..).trans ((Eq.trans rfl hm :))

theorem hostWrite_offRing (unit a : Nat) (b : List Byte) : (s.hostWrite unit a b).offRing = s.offRing :=
  offRing_of_offPath (offPath_of_sweep (hostWrite_sweep ..))

theorem storeMask_offRing (c : CatEntry) (row : Nat) (step : StepNo) (bits : List Bool) :
    (s.storeMask c row step bits).offRing = s.offRing := by
  unfold State.storeMask
  extract_lets n a b u
  have hu : u.offRing = s.offRing := offRing_of_offPath (offPath_of_sweep (stateWrite_sweep ..))
  clear_value u
  exact (Eq.trans rfl hu :)

theorem scanWc_offRing (tensor : Nat) (c : CatEntry) (aux : W32) (codes : List Byte) :
    (s.scanWc tensor c aux codes).offRing = s.offRing := by
  unfold State.scanWc
  exact offRing_ite rfl rfl

theorem stagePut_offRing (pool : Pool) (port vc : Nat) (hdr : BitVec 512) (bytes : List Byte) :
    (s.stagePut pool port vc hdr bytes).offRing = s.offRing := by
  unfold State.stagePut
  split <;> rfl

theorem sendChunk_offRing (port vc : Nat) (h : ChunkHdr) (payload : List Byte) :
    (s.sendChunk port vc h payload).offRing = s.offRing :=
  (offRing_of_calm (queueItem_calm ..)).trans ((stagePut_offRing ..).trans
    ((offRing_of_offPath (offPath_of_sweep (twinSend_sweep ..))).trans rfl))

theorem sendLap2_offRing (d : DomEntry) (axis : Nat) (minus : Bool) (k : Nat) (h : ChunkHdr) (payload : List Byte) :
    (s.sendLap2 d axis minus k h payload).offRing = s.offRing := sendChunk_offRing ..

theorem startLap2_offRing (d : DomEntry) (h : ChunkHdr) (payload : List Byte) (axis : Nat) :
    (s.startLap2 d h payload axis).offRing = s.offRing := by
  unfold State.startLap2
  dsimp only
  refine offRing_ite (sendLap2_offRing ..) ?_
  have h1 := offRing_ite (c := s.decl.coord.axis axis - d.org axis + 1 < d.len axis) (sendLap2_offRing s d axis false 0 h payload)
    (rfl : s.offRing = s.offRing)
  exact offRing_ite ((sendLap2_offRing ..).trans h1) h1

theorem onwardLap2_offRing (d : DomEntry) (hop : Option Lap2Hop) (h : ChunkHdr) (payload : List Byte) :
    (s.onwardLap2 d hop h payload).offRing = s.offRing := by
  unfold State.onwardLap2
  refine (foldl_view (g := State.offRing) (fun s a => startLap2_offRing s d h payload a) _ _).trans ?_
  split
  · exact offRing_ite rfl (sendLap2_offRing ..)
  · rfl

theorem writeLap2_offRing (r : GatherRun) (ge : GatherEntry) (e : ChunkEntry) (c : CatEntry) (h : ChunkHdr) (payload : List Byte) :
    (s.writeLap2 r ge e c h payload).offRing = s.offRing := by
  unfold State.writeLap2
  extract_lets u n v
  have hu : u.offRing = s.offRing := hostWrite_offRing ..
  have hv : v.offRing = s.offRing := offRing_ite ((storeMask_offRing ..).trans hu) hu
  exact offRing_ite ((scanWc_offRing ..).trans hv) hv

theorem takeLap2_offRing (e : ChunkEntry) (d : DomEntry) (c : CatEntry) (hop : Option Lap2Hop) (h : ChunkHdr) (payload : List Byte) :
    (s.takeLap2 e d c hop h payload).offRing = s.offRing := by
  unfold State.takeLap2
  extract_lets i u
  split
  · rfl
  have hu : u.offRing = s.offRing := by
    show (match s.findRun e.layer fun r => !r.got.contains i || r.missed.contains i with
      | some _ => s
      | none => s.openRun e.layer).offRing = s.offRing
    split <;> rfl
  split
  · exact (onwardLap2_offRing ..).trans hu
  next r hr =>
    refine offRing_ite (Eq.trans rfl hu :) ((onwardLap2_offRing ..).trans (offRing_ite (Eq.trans rfl hu :) ?_))
    exact (writeLap2_offRing ..).trans (Eq.trans rfl hu :)

theorem takeXfer_offRing (n : Nat) (x : XferEntry) (k : Nat) (poison : Bool) (payload : List Byte) :
    (s.takeXfer n x k poison payload).offRing = s.offRing := by
  unfold State.takeXfer
  extract_lets u
  have hu : u.offRing = s.offRing := offRing_ite rfl rfl
  split
  · exact hu
  next r hr =>
    refine offRing_ite (Eq.trans rfl hu :) (offRing_ite ?_ (Eq.trans rfl hu :))
    exact (hostWrite_offRing ..).trans (Eq.trans rfl hu :)

theorem sendPerm_offRing (x : XferEntry) (h : ChunkHdr) (payload : List Byte) : (s.sendPerm x h payload).offRing = s.offRing := by
  unfold State.sendPerm
  dsimp only
  split
  · rfl
  · exact sendChunk_offRing ..

theorem routeChunk_offRing (c : RxChunk) : (s.routeChunk c).offRing = s.offRing := by
  have hbad : ((s.freeChunk c).badForm c.hdr 8).offRing = s.offRing := (badForm_offRing ..).trans (freeChunk_offRing ..)
  unfold State.routeChunk
  extract_lets h hp bad
  split
  · split
    · exact hbad
    · exact offRing_ite ((takeXfer_offRing ..).trans (freeChunk_offRing ..)) ((sendPerm_offRing ..).trans (freeChunk_offRing ..))
  split
  · exact hbad
  split
  · refine offRing_ite hbad ?_
    split
    · split
      · exact (takeLap2_offRing ..).trans (freeChunk_offRing ..)
      · exact hbad
    refine offRing_ite (offRing_ite (freeChunk_offRing ..) rfl) (offRing_ite ?_ hbad)
    exact (sendChunk_offRing ..).trans (freeChunk_offRing ..)
  · exact hbad

theorem holdChunk_offRing (c : RxChunk) : (s.holdChunk c).offRing = s.offRing := by
  unfold State.holdChunk
  extract_lets h u
  have hu : u.offRing = s.offRing := offRing_ite (maskEpochBad_offRing ..) rfl
  exact offRing_ite ((badForm_offRing ..).trans ((freeChunk_offRing ..).trans hu))
    (offRing_ite ((freeChunk_offRing ..).trans hu) (Eq.trans rfl hu :))

theorem lateTests_offRing (c : RxChunk) : (s.lateTests c).offRing = s.offRing := by
  have hf (u : State) (hu : u.offRing = s.offRing) : (u.freeChunk c).offRing = s.offRing := (freeChunk_offRing ..).trans hu
  unfold State.lateTests
  dsimp only
  refine offRing_ite ((stale_offRing ..).trans (hf s rfl)) (offRing_ite (holdChunk_offRing ..) (offRing_ite ?_ (offRing_ite ?_ ?_)))
  · exact (Eq.trans rfl (hf { s with jx := { s.jx with discSeq := stick s.jx.discSeq 1 } } rfl) :)
  · exact (routeChunk_offRing ..).trans (maskEpoch_offRing ..)
  · exact routeChunk_offRing ..

theorem retestChunks_offRing : s.retestChunks.offRing = s.offRing := by
  refine (foldl_view (g := State.offRing) (fun s c => ?_) _ _).trans rfl
  unfold State.release
  exact offRing_ite (lateTests_offRing ..) ((lateTests_offRing ..).trans (badForm_offRing ..))

theorem retestCells_offPath : s.retestCells.offPath = s.offPath :=
  (foldl_view (g := State.offPath) (f := fun (s : State) (c : GzHeld) => s.routeCell c c.failed)
    (fun s c => routeCell_offPath s c c.failed) _ _).trans rfl

end

/-! ### The commit pulse (R27, R29, R36) -/

/-- STEP_DONE and the published digests. -/
def State.shown (s : State) : Bool × Digests × StepNo := (s.pins.stepDone, s.ju.digest, s.ju.digestStep)

theorem shown_of_offRing {s t : State} (h : t.offRing = s.offRing) : t.shown = s.shown := (congrArg State.shown h :)

theorem shown_of_offPath {s t : State} (h : t.offPath = s.offPath) : t.shown = s.shown := (congrArg State.shown h :)

theorem shown_of_calm {s t : State} (h : t.calm = s.calm) : t.shown = s.shown := (congrArg State.shown h :)

theorem pinsJu_of_untiered {s t : State} (h : t.untiered = s.untiered) : (t.pins, t.ju) = (s.pins, s.ju) :=
  (congrArg (fun u : State => (u.pins, u.ju)) h :)

theorem stateWrite_untiered (s : State) (unit a : Nat) (b : List Byte) : (s.stateWrite unit a b).untiered = s.untiered :=
  (congrArg (fun u : State => { u with stateMem := [] }) (stateWrite_noPorts s unit a b) :)

section

variable (s : State)

theorem installRoots_pins : s.installRoots.pins = s.pins ∧ s.installRoots.ju = s.ju := by
  have hset (u : State) (a b : Nat) (e : RootEntry) : ((u.setRoot a b e).pins, (u.setRoot a b e).ju) = (u.pins, u.ju) :=
    pinsJu_of_untiered (setRoot_untiered u a b e)
  have hfree (c : Bool) (u : State) (n : Nat) : ((if c then u.poolFree n else u).pins, (if c then u.poolFree n else u).ju) = (u.pins, u.ju) := by
    cases c <;> rfl
  have h := foldl_view (g := fun u : State => (u.pins, u.ju)) (f := State.installOne) (fun u f => by
    unfold State.installOne
    dsimp only
    split
    · rfl
    · split <;> exact (hset ..).trans (hfree ..)) (s.jk.finished.filter fun f => s.installDue f.ref.due)
    { s with jk := { s.jk with finished := s.jk.finished.filter fun f => !s.installDue f.ref.due } }
  exact ⟨congrArg Prod.fst h, congrArg Prod.snd h⟩

theorem pushScans_shown : s.pushScans.shown = s.shown ∧ s.pushScans.ju.acc = s.ju.acc := by
  unfold State.pushScans
  extract_lets exps done u src
  have hu : (u.pins, u.ju) = (s.pins, s.ju) := by
    refine foldl_view (g := fun u : State => (u.pins, u.ju)) (f := State.pushScan) (fun u x => ?_) done s
    unfold State.pushScan
    extract_lets d a old r hist e0 e v
    have hv : (v.pins, v.ju) = (u.pins, u.ju) := pinsJu_of_untiered (stateWrite_untiered ..)
    clear_value v
    split
    · exact hv
    · exact hv
  have hpins : u.pins = s.pins := congrArg Prod.fst hu
  have hju : u.ju = s.ju := congrArg Prod.snd hu
  exact ⟨(congrArg₂ (fun (p : PinBlock) (j : JuBlock) => (p.stepDone, j.digest, j.digestStep)) hpins hju :), (congrArg JuBlock.acc hju :)⟩

theorem dropRx_calm (keep : RxChunk → Bool) :
    (s.dropRx keep).calm = { s with jx := { s.jx with rx := s.jx.rx.filter keep } }.calm :=
  foldl_view (g := State.calm) (fun s c => freeChunk_calm s c) _ _

theorem twinDigests_shown : s.twinDigests.shown = s.shown := by
  unfold State.twinDigests
  split
  · rfl
  · exact shown_of_offPath (offPath_of_sweep (twinSend_sweep ..))

theorem advanceEpoch_shown : s.advanceEpoch.shown = s.shown := by
  unfold State.advanceEpoch
  split <;> rfl

/-- The pulse: the step, the epoch, and what is published. -/
theorem pulse_effect (w : W64) :
    (s.pulse w).jq.step = s.jq.step + 1 ∧ (s.pulse w).jq.slot = s.jq.slot ∧
      (s.pulse w).jg.epoch.current = (if w.getLsbD 0 && w.getLsbD 1 && s.live.staged.isSome then s.jg.epoch.current + 1
        else s.jg.epoch.current) ∧
      (s.pulse w).shown = (s.pins.stepDone, s.ju.acc, s.jq.step) := by
  unfold State.pulse
  extract_lets t dens s1 src1 src2 s2 s3 src3 s4 s5 src5 s6 s7 src7 s8
  have h1 : s1.fixed = s.fixed := by simp [s1]
  obtain ⟨hpins, hju⟩ := installRoots_pins s
  obtain ⟨hshown, hacc⟩ := pushScans_shown s.installRoots
  have hs1 : s1.pins.stepDone = s.pins.stepDone := (congrArg Prod.fst hshown).trans (congrArg PinBlock.stepDone hpins)
  have ha1 : s1.ju.acc = s.ju.acc := hacc.trans (congrArg JuBlock.acc hju)
  have h2 : s2.fixed = { s.fixed with step := s.jq.step + 1 } := congrArg (fun f : Fixed => { f with step := s.jq.step + 1 }) h1
  have hs2 : s2.shown = (s.pins.stepDone, s.ju.acc, s.jq.step) := congrArg₂ (fun a b => (a, b, s.jq.step)) hs1 ha1
  clear_value s2
  have h3 : s3.jq.step = s.jq.step + 1 ∧ s3.jq.slot = s.jq.slot ∧ s3.jg.epoch.current =
      (if w.getLsbD 0 && w.getLsbD 1 && s.live.staged.isSome then s.jg.epoch.current + 1 else s.jg.epoch.current) ∧
      s3.shown = s2.shown := by
    have hstep : s2.jq.step = s.jq.step + 1 := (congrArg Fixed.step h2 :)
    have hslot : s2.jq.slot = s.jq.slot := (congrArg Fixed.slot h2 :)
    have hcur : s2.jg.epoch.current = s.jg.epoch.current := (congrArg Fixed.current h2 :)
    have hlive : s2.live = s.live := (congrArg Fixed.live h2 :)
    show (if _ then _ else _ : State).jq.step = _ ∧ _
    unfold s3
    cases hw : w.getLsbD 0 && w.getLsbD 1
    · exact ⟨hstep, hslot, hcur, rfl⟩
    · rw [if_pos rfl]
      cases hst : s.live.staged with
      | none =>
        have : s2.advanceEpoch = s2 := by unfold State.advanceEpoch; rw [hlive, hst]
        rw [this]
        exact ⟨hstep, hslot, hcur, rfl⟩
      | some st =>
        refine ⟨?_, ?_, ?_, advanceEpoch_shown s2⟩ <;> unfold State.advanceEpoch <;> rw [hlive, hst]
        · exact hstep
        · exact hslot
        · exact congrArg (· + 1) hcur
  clear_value s3
  have h4 : s4.fixed = { s3.fixed with gen := s4.jq.gen } ∧ s4.shown = s3.shown := by
    unfold s4
    split <;> exact ⟨rfl, rfl⟩
  clear_value s4
  have h5 : s5.fixed = s4.fixed := by simp [s5]
  have h7 : s7.fixed = s5.fixed := by simp [s7, s6]
  have hs7 : s7.shown = s4.shown := (shown_of_calm (dropRx_calm s6 _)).trans rfl
  clear_value s7
  have hf : s8.twinDigests.fixed = { s3.fixed with gen := s4.jq.gen } :=
    (twinDigests_fixed s8).trans ((show s8.fixed = s7.fixed from rfl).trans (h7.trans (h5.trans h4.1)))
  have hs : s8.twinDigests.shown = s2.shown := (twinDigests_shown s8).trans (hs7.trans (h4.2.trans h3.2.2.2))
  generalize s8.twinDigests = u at hf hs
  obtain ⟨hstep, hslot, hcur, -⟩ := h3
  exact ⟨(congrArg Fixed.step hf :).trans hstep, (congrArg Fixed.slot hf :).trans hslot, (congrArg Fixed.current hf :).trans hcur, hs.trans hs2⟩

theorem failHeld_shown : s.failHeld.shown = s.shown := by
  refine foldl_view (g := State.shown) (fun s n => ?_) _ s
  have hd (raw : BitVec 512) (r : Reason) : (s.discard n raw r).shown = s.shown := by
    unfold State.discard
    cases r
    · rfl
    · rfl
    · dsimp only
      split <;> rfl
  split
  · dsimp only
    split
    · rfl
    · exact (Eq.trans rfl (hd ..) :)
  · rfl

theorem shown_of_settled {s t : State} (h : t.settled = s.settled) : t.shown = s.shown := (congrArg State.shown h :)

theorem nextAttempt_shown (intake : Bool) : (s.nextAttempt intake).shown = s.shown := by
  unfold State.nextAttempt
  extract_lets v vsrc qsrc u w z x
  have hw : w.shown = s.shown := rfl
  clear_value w
  split
  · have hz : z.shown = w.shown := (shown_of_settled (dropWaiting_settled w.dropEntries)).trans rfl
    exact (Eq.trans rfl (hz.trans hw) :)
  · split
    · exact hw
    · exact hw

theorem startReplica_shown (step : StepNo) : (s.startReplica step).shown = s.shown := by
  unfold State.startReplica
  split
  · rfl
  · exact shown_of_offPath ((gzStart_offPath ..).trans ((gzStart_offPath ..).trans rfl))

end

/-! ### Decisions (R27–R29) -/

section

variable {s : State} {d : Decision}

theorem stepDone_shown (s : State) :
    s.stepDone.pins.stepDone = true ∧ s.stepDone.ju = s.nextSlot.ju ∧ s.stepDone.jq = s.nextSlot.jq := ⟨rfl, rfl, rfl⟩

/-- Cycle 0 of a slot touches the slot, its flags and phases, the run of slips and the drive. -/
theorem nextSlot_kept (s : State) :
    s.nextSlot.ju = s.ju ∧ s.nextSlot.jq.quiesceReq = s.jq.quiesceReq ∧ s.nextSlot.jq.verdict = s.jq.verdict := by
  have hends (u : State) (code r : Nat) : (u.cmdEnds code r).ju = u.ju ∧ (u.cmdEnds code r).jq = u.jq := by
    unfold State.cmdEnds
    split <;> exact ⟨rfl, rfl⟩
  have hswap (u : State) : u.swapDrive.ju = u.ju ∧ u.swapDrive.jq = u.jq := by
    unfold State.swapDrive
    extract_lets t ok t' t'' src
    split
    · exact ⟨rfl, rfl⟩
    · exact hends ..
  have hslips (u : State) : u.endSlips.ju = u.ju ∧ u.endSlips.jq.quiesceReq = u.jq.quiesceReq ∧
      u.endSlips.jq.verdict = u.jq.verdict := by
    unfold State.endSlips
    split <;> exact ⟨rfl, rfl, rfl⟩
  unfold State.nextSlot
  split
  · exact ⟨rfl, rfl, rfl⟩
  · extract_lets src psrc u
    obtain ⟨hju, hjq⟩ := hswap (u.setPhase 3 false).endSlips
    obtain ⟨hju', hreq, hv⟩ := hslips (u.setPhase 3 false)
    exact ⟨hju.trans hju', (congrArg JqBlock.quiesceReq hjq).trans hreq, (congrArg JqBlock.verdict hjq).trans hv⟩

/-- What the pulse is followed by: the next attempt, the waiting chunks and cells, the replica comparison and the copy. -/
def State.afterPulse (s : State) (t : StepNo) : State :=
  let s := s.nextAttempt (!s.jq.gen)
  let s := if s.jq.draining then s else s.activate 4
  let s := s.retestChunks.retestCells
  let s := s.startReplica t
  let s := if s.copyDue t then { s.startCopy t with jx := { s.jx with copyStep := true } } else s
  if s.je.exports.all Export.done then s else { s with jx := { s.jx with copyStep := true } }

theorem commitPulse_eq (hd : s.jq.verdict.decision = some d) (hc : d.clean = true) (hs : s.silent = false) :
    s.commitPulse = (s.stepDone.pulse d.andWord).failHeld.afterPulse s.jq.step := by
  unfold State.commitPulse
  simp only [hd]
  refine (if_neg ?_).trans ?_
  · rw [hc, hs]
    exact Bool.false_ne_true
  · unfold State.afterPulse
    with_reducible rfl

theorem afterPulse_shown (s : State) (t : StepNo) : (s.afterPulse t).shown = s.shown ∧ (s.afterPulse t).fixed = s.fixed := by
  unfold State.afterPulse
  extract_lets u v w x c src y
  have hu : u.shown = s.shown ∧ u.fixed = s.fixed := ⟨nextAttempt_shown .., nextAttempt_fixed ..⟩
  clear_value u
  have hv : v.shown = u.shown ∧ v.fixed = u.fixed := by
    unfold v
    split
    · exact ⟨rfl, rfl⟩
    · exact ⟨rfl, activate_fixed ..⟩
  clear_value v
  have hw : w.shown = v.shown ∧ w.fixed = v.fixed :=
    ⟨(shown_of_offPath (retestCells_offPath _)).trans (shown_of_offRing (retestChunks_offRing v)), by simp [w]⟩
  clear_value w
  have hx : x.shown = w.shown ∧ x.fixed = w.fixed := ⟨startReplica_shown .., startReplica_fixed ..⟩
  clear_value x
  have hy : y.shown = x.shown ∧ y.fixed = x.fixed := by
    unfold y
    split
    · exact ⟨rfl, startCopy_fixed ..⟩
    · exact ⟨rfl, rfl⟩
  clear_value y
  have hall := And.intro (hy.1.trans (hx.1.trans (hw.1.trans (hv.1.trans hu.1)))) (hy.2.trans (hx.2.trans (hw.2.trans (hv.2.trans hu.2))))
  split
  · exact hall
  · exact hall

/-- The masks built for the step after the next are dropped with the sketches (R28). -/
def State.masksCut (s : State) (t : StepNo) : State :=
  { s with ji := { s.ji with built := s.ji.built.filter fun m => m.step != t + 2, sketches := [] } }

/-- The chunks that a skip keeps: those an entry has taken already. -/
def State.taken (s : State) (c : RxChunk) : Bool := s.jx.added.contains ((chunkHdr c.hdr).chunk, (chunkHdr c.hdr).axis)

/-- The step after a decision to skip. -/
theorem skipDecision_eq (hd : s.jq.verdict.decision = some d) (hc : d.clean = false) (hs : s.silent = false) :
    s.skipDecision = ((s.stepDone.copyCut.masksCut s.jq.step).dropRx s.stepDone.copyCut.taken).nextAttempt true := by
  unfold State.skipDecision
  simp only [hd]
  refine (if_neg ?_).trans ?_
  · rw [hc, hs]
    exact Bool.false_ne_true
  · unfold State.masksCut State.taken
    with_reducible rfl

theorem copyCut_kept (s : State) :
    s.copyCut.shown = s.shown ∧ s.copyCut.jq = s.jq ∧ s.copyCut.ju.kfile = s.ju.kfile := by
  unfold State.copyCut
  split
  · split <;> exact ⟨rfl, rfl, rfl⟩
  · exact ⟨rfl, rfl, rfl⟩

/-- The next attempt keeps the coefficients; it starts INTAKE and COMMIT, or a drain. -/
theorem nextAttempt_effect (s : State) :
    (s.nextAttempt true).ju.kfile = s.ju.kfile ∧
      (s.jq.quiesceReq = false → (s.nextAttempt true).phase 0 = true ∧ (s.nextAttempt true).phase 3 = true) ∧
      (s.jq.quiesceReq = true → (s.nextAttempt true).jq.draining = true ∧ (s.nextAttempt true).jq.phases = 0) := by
  unfold State.nextAttempt
  extract_lets v vsrc qsrc u w z x
  have hw : w.ju.kfile = s.ju.kfile ∧ w.jq.quiesceReq = s.jq.quiesceReq := ⟨rfl, rfl⟩
  clear_value w
  obtain ⟨hk, hq⟩ := hw
  rw [hq]
  cases s.jq.quiesceReq
  · refine ⟨hk, fun _ => ⟨phase_setPhase_same _ (by decide), phase_setPhase_of _ (phase_setPhase_same w (by decide))⟩,
      fun h => absurd h Bool.false_ne_true⟩
  · have hz := dropWaiting_settled w.dropEntries
    refine ⟨(congrArg (fun u : State => u.ju.kfile) hz :).trans hk, fun h => absurd h.symm Bool.false_ne_true, fun _ =>
      ⟨rfl, (congrArg (fun u : State => u.jq.phases) hz :)⟩⟩

end

theorem getLsbD_zero_add_one (x : StepNo) : (x + 1).getLsbD 0 = !x.getLsbD 0 := by
  rw [BitVec.getLsbD_add (by decide)]
  simp

/-- Settles O16: the pulse is `pulse_effect`, and what follows it keeps what it published. -/
theorem decisionsAct : Obligations.DecisionsAct := by
  refine ⟨fun s d hd hc hs => ?_, fun s d hd hc hs => ?_⟩
  · refine exec_to State.commitPulse rfl (commitPulse_eq (s := s.begin_) hd hc hs) ?_
    obtain ⟨hpin, hju, hjq⟩ := stepDone_shown s.begin_
    obtain ⟨hju', -⟩ := nextSlot_kept s.begin_
    obtain ⟨hstep, -, hcur, hlive, hslot, -⟩ := fixedNext_fields (stepDone_fixed s.begin_)
    have hacc := (congrArg JuBlock.acc (hju.trans hju') :)
    generalize s.begin_.stepDone = u at *
    obtain ⟨hpstep, hpslot, hpcur, hpshown⟩ := pulse_effect u d.andWord
    generalize u.pulse d.andWord = v at *
    have hfshown := failHeld_shown v
    have hffix := failHeld_fixed v
    generalize v.failHeld = w at *
    obtain ⟨hashown, hafix⟩ := afterPulse_shown w s.begin_.jq.step
    generalize w.afterPulse s.begin_.jq.step = t at *
    have hshown : t.shown = (true, s.ju.acc, s.jq.step) := by
      rw [hashown, hfshown, hpshown, hpin, hacc, hstep]
      rfl
    have hfix := hafix.trans hffix
    have htstep : t.jq.step = s.jq.step + 1 := (congrArg Fixed.step hfix :).trans (hpstep.trans (congrArg (· + 1) hstep))
    refine ⟨htstep, congrArg Prod.fst hshown, ?_, (congrArg (fun p => p.2.1) hshown :), (congrArg (fun p => p.2.2) hshown :),
      (congrArg Fixed.slot hfix :).trans (hpslot.trans hslot), (congrArg Fixed.current hfix :).trans (hpcur.trans ?_)⟩
    · show t.jq.step.getLsbD 0 = !s.jq.step.getLsbD 0
      rw [htstep]
      exact getLsbD_zero_add_one _
    · rw [hlive, hcur]
      rfl
  · refine exec_to State.skipDecision rfl (skipDecision_eq (s := s.begin_) hd hc hs) ?_
    obtain ⟨hpin, hju, hjq⟩ := stepDone_shown s.begin_
    obtain ⟨hju', hreq, -⟩ := nextSlot_kept s.begin_
    obtain ⟨hstep, hgen, hcur, -⟩ := fixedNext_fields (stepDone_fixed s.begin_)
    have hu := hju.trans hju'
    have hur : s.begin_.stepDone.jq.quiesceReq = s.jq.quiesceReq := (congrArg JqBlock.quiesceReq hjq).trans hreq
    generalize s.begin_.stepDone = u at *
    obtain ⟨hcshown, hcjq, hck⟩ := copyCut_kept u
    have hcfix := copyCut_fixed u
    generalize u.copyCut = v at *
    have hdrop := dropRx_calm (v.masksCut s.jq.step) v.taken
    have hdfix := dropRx_fixed (v.masksCut s.jq.step) v.taken
    have hx : (v.masksCut s.jq.step).shown = v.shown ∧ (v.masksCut s.jq.step).jq = v.jq ∧ (v.masksCut s.jq.step).ju = v.ju ∧
        (v.masksCut s.jq.step).fixed = v.fixed := ⟨rfl, rfl, rfl, rfl⟩
    have hskip : ((v.masksCut s.begin_.jq.step).dropRx v.taken) = (v.masksCut s.jq.step).dropRx v.taken := rfl
    rw [hskip]
    generalize v.masksCut s.jq.step = x at *
    obtain ⟨hxshown, hxjq, hxju, hxfix⟩ := hx
    generalize x.dropRx v.taken = y at *
    have hdshown : y.shown = x.shown := (congrArg State.shown hdrop :)
    have hdju : y.ju = x.ju := (congrArg State.ju hdrop :)
    have hdjq : y.jq = x.jq := (congrArg State.jq hdrop :)
    have hnshown := nextAttempt_shown y true
    have hnfix := nextAttempt_fixed y true
    obtain ⟨hk, hgo, hdrain⟩ := nextAttempt_effect y
    generalize y.nextAttempt true = t at *
    have hshown := hnshown.trans (hdshown.trans (hxshown.trans hcshown))
    have hfix := hnfix.trans (hdfix.trans (hxfix.trans hcfix))
    have hyreq : y.jq.quiesceReq = s.jq.quiesceReq :=
      (congrArg JqBlock.quiesceReq (hdjq.trans (hxjq.trans hcjq))).trans hur
    rw [hyreq] at hgo hdrain
    have htstep : t.jq.step = s.jq.step := (congrArg Fixed.step hfix :).trans hstep
    exact ⟨(congrArg Prod.fst hshown :).trans hpin, htstep, congrArg (fun n : StepNo => n.getLsbD 0) htstep,
      (congrArg Fixed.current hfix :).trans hcur, (congrArg Fixed.gen hfix :).trans hgen,
      hk.trans ((congrArg JuBlock.kfile (hdju.trans hxju)).trans (hck.trans (congrArg JuBlock.kfile hu :))),
      (congrArg (fun p => p.2.1) hshown :).trans (congrArg JuBlock.digest hu :), hgo, hdrain⟩

end Sys2Proof.Machine
end

section
namespace Sys2Proof.Machine

/-! ### What the queues' own work leaves alone (R272–R285) -/

/-- The state without the Ethernet block, the host memory, the memory ports, a command's result and the events of the command. -/
def State.offNet (s : State) : State :=
  { s.noPorts with
    hostMem := [], je := State.reset.je,
    js := { s.js with cmd := { s.js.cmd with outcome := none }, ring := { s.js.ring with evq := [] } } }

/-- The state beside the queues, and the queues that exports use. -/
def State.netView (s : State) : State × List Nat := (s.offNet, s.je.exports.map Export.queue)

theorem netView_ite {c : Prop} [Decidable c] {a b s : State} (ha : a.netView = s.netView) (hb : b.netView = s.netView) :
    (if c then a else b).netView = s.netView := by
  split
  · exact ha
  · exact hb

theorem netView_of_noPorts {s t : State} (h : t.noPorts = s.noPorts) : t.netView = s.netView := by
  have h1 : t.offNet = s.offNet := (congrArg (fun u : State => { u with
    hostMem := [], je := State.reset.je,
    js := { u.js with cmd := { u.js.cmd with outcome := none }, ring := { u.js.ring with evq := [] } } }) h :)
  have h2 : t.je = s.je := (congrArg State.je h :)
  rw [State.netView, h1, h2]
  rfl

section

variable (s : State)

theorem hostWrite_netView (unit a : Nat) (b : List Byte) : (s.hostWrite unit a b).netView = s.netView :=
  (netView_of_noPorts (hostWrite_noPorts ..)).trans rfl

theorem portRead_netView (unit chan : Nat) (sp : Bool) (a n : Nat) : (s.portRead unit chan sp a n).netView = s.netView :=
  netView_of_noPorts (portRead_noPorts ..)

theorem setQueue_netView (q : Queue) : (s.setQueue q).netView = s.netView := by rfl

theorem emitRoce_netView (q : Queue) (pkt : RoceOut) : (s.emitRoce q pkt).netView = s.netView := by
  unfold State.emitRoce
  exact netView_ite (netView_of_noPorts (emit_noPorts ..)) rfl

theorem dropTx_netView (num : Nat) : (s.dropTx num).netView = s.netView := by rfl

theorem exportEnds_netView (q result : Nat) : (s.exportEnds q result).netView = s.netView := by
  have hq : (s.je.exports.map fun e => if e.queue = q then { e with done := true } else e).map Export.queue =
      s.je.exports.map Export.queue := by
    rw [List.map_map]
    refine List.map_congr_left fun e _ => ?_
    show (if e.queue = q then { e with done := true } else e).queue = e.queue
    split <;> rfl
  unfold State.exportEnds
  dsimp only
  split
  · split
    · exact Prod.ext rfl hq
    · exact Prod.ext rfl hq
  · rfl

theorem completeEntry_netView (q : Queue) (e : SqEntry) (status : Nat) : (s.completeEntry q e status).1.netView = s.netView := by
  unfold State.completeEntry
  extract_lets q' u
  have hu : u.netView = s.netView := netView_ite (exportEnds_netView ..) rfl
  clear_value u
  split
  · exact (hostWrite_netView ..).trans hu
  · exact hu

theorem flushRing_netView (n : Nat) (x : State × Queue) : (State.flushRing n x).1.netView = x.1.netView := by
  induction n generalizing x with
  | zero => rfl
  | succ n ih =>
    rw [State.flushRing]
    split
    · rfl
    · exact (ih _).trans (completeEntry_netView ..)

theorem flushOps_netView (l : List SqOp) (status : Nat) (x : State × Queue) :
    (State.flushOps l status x).1.netView = x.1.netView := by
  induction l generalizing status x with
  | nil => rfl
  | cons o l ih =>
    rw [State.flushOps]
    exact (ih ..).trans (completeEntry_netView ..)

theorem queueError_netView (q : Queue) (cause status : Nat) : (s.queueError q cause status).netView = s.netView := by
  unfold State.queueError
  extract_lets y wr psn src u v w
  have hy : y.1.netView = s.netView := (flushRing_netView ..).trans (flushOps_netView ..)
  have hu : u.netView = s.netView := (dropTx_netView ..).trans ((setQueue_netView ..).trans hy)
  clear_value u
  have hv : v.netView = s.netView := (exportEnds_netView ..).trans hu
  clear_value v
  exact (Eq.trans rfl hv :)

theorem emitRequest_netView (q : Queue) (o : SqOp) (i : Nat) : (s.emitRequest q o i).netView = s.netView := by
  unfold State.emitRequest
  extract_lets e n payload u
  have hu : u.netView = s.netView := netView_ite rfl (portRead_netView ..)
  exact (emitRoce_netView ..).trans hu

theorem kickN_netView (n num : Nat) : (State.kickN n num s).netView = s.netView := by
  induction n generalizing s with
  | zero => rfl
  | succ n ih =>
    rw [State.kickN]
    split
    · rfl
    split
    · rfl
    · exact (ih _).trans (setQueue_netView ..)
    · exact (ih _).trans ((setQueue_netView ..).trans (emitRequest_netView ..))
    · exact queueError_netView ..

theorem kick_netView (num : Nat) : (s.kick num).netView = s.netView := kickN_netView ..

theorem kickRounds_netView (n : Nat) : (State.kickRounds n s).netView = s.netView := by
  induction n generalizing s with
  | zero => rfl
  | succ n ih =>
    rw [State.kickRounds]
    exact (ih _).trans (foldl_view (g := State.netView) (fun s (q : Queue) => kick_netView s q.num) _ _)

theorem kickAll_netView : s.kickAll.netView = s.netView := kickRounds_netView ..

end

/-! ### Recovery (R233, R365–R367, R374) -/

section

variable {s : State} {port : Mgmt}

/-- The state in which an export's entries are posted. -/
def State.exportPosts (s : State) (x : Queue) : State :=
  let raddr := (s.arg 1).toNat + (s.arg 2).toNat * 2 ^ 32
  let rkey := s.arg 3
  let res := (s.arg 4).getLsbD 0
  let fac := (s.arg 4).getLsbD 1
  let step := s.jq.step - 1
  let data := s.readAreas (s.exportAreas s.bank) ++ (if res then s.readAreas s.resAreas else []) ++ (if fac then s.readAreas s.factAreas else [])
  let head := exportEntry 2 raddr rkey 0 false (copyHdrBytes (s.copyHeader step (res || fac)))
  let tail := exportEntry 3 (raddr + 64 + data.length) rkey (step.setWidth 32) true (bytes64 (crc64 data))
  s.setQueue { x with posted := x.posted ++ [head] ++ exportPieces rkey (raddr + 64) (groupsOf (2 ^ 30) data) ++ [tail] }

theorem exportState_outside (h : (s.arg 0).toNat < 61440 ∨ 65535 < (s.arg 0).toNat) : s.exportState = s.result 1 := if_pos h

theorem exportState_closed (h1 : 61440 ≤ (s.arg 0).toNat) (h2 : (s.arg 0).toNat ≤ 65535) (hq : s.queue (s.arg 0).toNat = none) :
    s.exportState = s.result 2 := by
  unfold State.exportState
  dsimp only
  rw [if_neg (by omega), hq]

/-- The state in which an export on a queue begins. -/
def State.exportOpens (s : State) (x : Queue) : State :=
  let u := s.exportPosts x
  { u with
    je := { u.je with exports := (u.je.exports.filter fun e => e.queue != (s.arg 0).toNat) ++ [Export.mk (s.arg 0).toNat false] },
    jx := { u.jx with copyStep := true } }

theorem exportState_open {x : Queue} (h1 : 61440 ≤ (s.arg 0).toNat) (h2 : (s.arg 0).toNat ≤ 65535)
    (hq : s.queue (s.arg 0).toNat = some x) (hx : x.state = 1) : s.exportState = (s.exportOpens x).kickAll := by
  unfold State.exportState
  dsimp only
  rw [if_neg (by omega), hq]
  dsimp only
  rw [if_neg (not_not_intro hx)]
  rfl

theorem exportOpens_queue (s : State) (x : Queue) : (s.arg 0).toNat ∈ (s.exportOpens x).je.exports.map Export.queue :=
  List.mem_map.mpr ⟨⟨(s.arg 0).toNat, false⟩, List.mem_append_right _ List.mem_cons_self, rfl⟩

/-- An export on an open queue leaves the state tier and the command, and its queue is among the exports'. -/
theorem exportState_effect {x : Queue} (h1 : 61440 ≤ (s.arg 0).toNat) (h2 : (s.arg 0).toNat ≤ 65535)
    (hq : s.queue (s.arg 0).toNat = some x) (hx : x.state = 1) :
    (s.exportState.je.exports.any fun e => e.queue == (s.arg 0).toNat) = true ∧
      s.exportState.offNet = { s with jx := { s.jx with copyStep := true } }.offNet := by
  rw [exportState_open h1 h2 hq hx]
  have h := kickAll_netView (s.exportOpens x)
  have hmem := exportOpens_queue s x
  have hoff : (s.exportOpens x).offNet = { s with jx := { s.jx with copyStep := true } }.offNet := rfl
  generalize s.exportOpens x = u at *
  generalize u.kickAll = t at h
  have hqueues : t.je.exports.map Export.queue = u.je.exports.map Export.queue := congrArg Prod.snd h
  rw [← hqueues] at hmem
  obtain ⟨e, he, heq⟩ := List.mem_map.mp hmem
  exact ⟨List.any_eq_true.mpr ⟨e, he, beq_iff_eq.mpr heq⟩, (congrArg Prod.fst h :).trans hoff⟩

theorem restoreSend_held {c : HeldCopy}
    (h : s.ju.heldCopies.find? (fun c => c.st == 2 && c.hdr.step == s.js.cmd.argStep) = some c) :
    s.restoreSend =
      let v := s.sendCopy (s.copyPort c.hdr.src.toNat) c.hdr c.data
      { v with js := { v.js with cmd := { v.js.cmd with bytes := c.data.length } } } := by
  simp only [State.restoreSend, h]

theorem loadTables_image (s : State) : s.loadTables.image = s.image := by
  have h : s.loadTables.fixed = s.loadStarts.fixed := by
    rw [loadTables_eq]
    simp
  have hs : s.loadStarts.image = s.image := rfl
  generalize s.loadTables = t at *
  generalize s.loadStarts = u at *
  exact (congrArg Fixed.image h :).trans hs

/-- A spare worker under its new member id. -/
def State.adopts (s : State) (i : RunImage) (x : SpareId) : State :=
  { s with
    image := some { i with decl := { i.decl with member := (s.arg 0).toNat % 65536, coord := x.coord, peers := x.peers, buddy := x.buddy } },
    jg := { s.jg with member := { s.jg.member with state := 0 } } }

theorem takeOver_spare {i : RunImage} {x : SpareId} (hi : s.image = some i)
    (hx : (i.decl.spare.find? fun x => x.id == (s.arg 0).toNat % 65536) = some x) :
    s.takeOver = ({ (s.adopts i x).loadTables with
      jq := { (s.adopts i x).loadTables.jq with quiesced := true, running := false } } : State).result 0 := by
  have hd : s.decl = i.decl := by simp only [State.decl, State.img, hi, Option.getD_some]
  unfold State.takeOver
  simp only [hi, hd, hx]
  unfold State.adopts
  with_reducible rfl

/-- A spare worker takes a member id over, and is quiesced at the start step. -/
theorem takeOver_effect {i : RunImage} {x : SpareId} (hi : s.image = some i)
    (hx : (i.decl.spare.find? fun x => x.id == (s.arg 0).toNat % 65536) = some x) :
    s.takeOver.me = (s.arg 0).toNat % 65536 ∧ s.takeOver.jg.member.state = 0 ∧ s.takeOver.jq.quiesced = true ∧
      s.takeOver.jq.running = false ∧ s.takeOver.js.boot.state = 5 ∧ s.takeOver.jq.step = i.decl.startStep ∧
      s.takeOver.js.cmd.outcome = some 0 := by
  rw [takeOver_spare hi hx]
  have h := loadTables_loaded (s.adopts i x)
  have himg := loadTables_image (s.adopts i x)
  generalize (s.adopts i x).loadTables = t at *
  have hmember : t.me = (s.arg 0).toNat % 65536 := by
    simp only [State.me, State.decl, State.img, himg]
    rfl
  exact ⟨hmember, congrArg MemberBlock.state h.member, rfl, rfl, congrArg BootBlock.state h.boot, h.step, rfl⟩

end

/-- Settles O55. -/
theorem recoveryIsCommanded : Obligations.RecoveryIsCommanded := by
  intro s port q argStep
  have harg (code : Nat) : ((s.begin_.starts port code).arg 0).toNat = q := congrArg BitVec.toNat (arg_starts s.begin_ port code 0)
  refine ⟨fun hg hw hgen => ?_, fun c hg hr hc => ?_, fun hg hr => ?_, fun i x hg hm hi hx => ?_, fun hg hl hp hok hf hm => ?_⟩
  · have hallowed : (s.begin_.atWork && !s.begin_.jq.gen) = true := by
      rw [show s.begin_.atWork = true from hw, show s.begin_.jq.gen = false from hgen]
      rfl
    have hcmd : s.begin_.cmdExport port = (s.begin_.starts port 7).exportState := giveCmd_of_mayGive (s := s.begin_) _ hg hallowed
    have hje : (s.begin_.starts port 7).je = s.je := by simp
    have hqueue (n : Nat) : (s.begin_.starts port 7).queue n = s.queue n := congrArg (fun j : JeBlock => j.queues.find? fun x : Queue => x.num == n) hje
    refine ⟨fun hq => ?_, fun h1 h2 hq => ?_, fun x h1 h2 hq hx => ?_⟩
    · exact does_run (fun s => s.cmdExport port) rfl (hcmd.trans (exportState_outside (by rw [harg 7]; exact hq)))
    · refine does_run (fun s => s.cmdExport port) rfl (hcmd.trans (exportState_closed ?_ ?_ ?_))
      · rw [harg 7]; exact h1
      · rw [harg 7]; exact h2
      · rw [harg 7, hqueue]; exact hq
    · refine exec_to (fun s => s.cmdExport port) rfl hcmd ?_
      have hq7 := harg 7
      have hstart := starts_cmd s.begin_ port 7
      have hresp := response_starts s.begin_ port 7
      have hmem : (s.begin_.starts port 7).stateMem = s.stateMem := by simp
      generalize s.begin_.starts port 7 = u at *
      obtain ⟨hany, hoff⟩ := exportState_effect (s := u) (x := x) (hq7 ▸ h1) (hq7 ▸ h2) (hq7 ▸ (hqueue q).trans hq) hx
      rw [hq7] at hany
      generalize u.exportState = t at *
      have hbusy : t.js.cmd.busy = u.js.cmd.busy := (congrArg (fun u : State => u.js.cmd.busy) hoff :)
      refine ⟨hany, (congrArg State.stateMem hoff :).trans hmem, hbusy.trans (congrArg CmdBlock.busy hstart),
        (congrArg (fun u : State => u.jx.copyStep) hoff :), ?_⟩
      cases port
      · exact (congrArg (fun u : State => u.js.mw) hoff :).trans hresp
      · exact (congrArg (fun u : State => u.js.sm) hoff :).trans hresp
  · have hcmd : s.begin_.cmdRestoreSend port = (s.begin_.starts port 0x25).restoreSend :=
      giveCmd_of_mayGive (s := s.begin_) _ hg (Bool.or_eq_true_iff.mpr (.inl hr))
    refine does_run (fun s => s.cmdRestoreSend port) rfl (hcmd.trans ((restoreSend_held (c := c) ?_).trans ?_))
    · have hju : (s.begin_.starts port 0x25).ju = s.ju := by simp
      have hstep : (s.begin_.starts port 0x25).js.cmd.argStep = argStep := by
        rw [starts_cmd]
        rfl
      rw [hju, hstep]
      exact hc
    · have hport : (s.begin_.starts port 0x25).copyPort c.hdr.src.toNat = s.begin_.copyPort c.hdr.src.toNat := by
        cases port <;> rfl
      rw [hport]
  · exact does_run (fun s => s.cmdRollback port) rfl (giveCmd_of_mayGive (s := s.begin_) _ hg hr)
  · refine exec_to (fun s => s.cmdTakeover port) rfl (giveCmd_of_mayGive (s := s.begin_) _ hg (beq_iff_eq.mpr hm)) ?_
    have himg : (s.begin_.starts port 0x27).image = s.image := by simp
    have hq := harg 0x27
    generalize s.begin_.starts port 0x27 = u at *
    have heffect := takeOver_effect (s := u) (himg.trans hi) (hq ▸ hx)
    rw [hq] at heffect
    generalize u.takeOver = t at *
    exact heffect
  · have hallowed : (s.begin_.jg.twin.present && s.begin_.loaded && s.begin_.jg.twin.peerOk && s.begin_.jg.twin.fenced.isNone &&
        s.begin_.jg.member.state == 0) = true := by
      rw [show s.begin_.jg.twin.present = true from hp, show s.begin_.loaded = true from hl, show s.begin_.jg.twin.peerOk = true from hok,
        show s.begin_.jg.twin.fenced = none from hf, show s.begin_.jg.member.state = 0 from hm]
      rfl
    exact does_run (fun s => s.cmdTwinSwap port) rfl
      (giveCmd_of_mayGive (s := s.begin_) (fun s => s.setTwin fun t => { t with swap := true }) hg hallowed)

end Sys2Proof.Machine
end

section
/-!
The Mover and the memory ports (spec/11_mover_and_memory_ports.md): channels, their transfers, and the responses of the ports.
-/

namespace Sys2Proof.Machine

/-! ### Registers of a channel -/

theorem modifyNth_congr {α : Type} {f g : α → α} {n : Nat} {l : List α} {d : α} (h : f (l.getD n d) = g (l.getD n d)) :
    modifyNth f n l = modifyNth g n l := by
  refine List.ext_getElem? fun k => ?_
  rw [modifyNth_getElem?, modifyNth_getElem?]
  split
  next hk =>
    subst hk
    cases hl : l[k]? with
    | none => rfl
    | some a =>
      rw [List.getD_eq_getElem?_getD, hl] at h
      exact congrArg some h
  · rfl

theorem modifyNth_modifyNth {α : Type} (f g : α → α) (n : Nat) (l : List α) :
    modifyNth g n (modifyNth f n l) = modifyNth (fun a => g (f a)) n l := by
  refine List.ext_getElem? fun k => ?_
  simp only [modifyNth_getElem?]
  split
  · exact Option.map_map ..
  · rfl

section

variable {s : State} {ch : Nat}

theorem chan_setChan_same (f : Chan → Chan) (h : ch < s.jm.chans.length) : (s.setChan ch f).chan ch = f (s.chan ch) :=
  modifyNth_getD_same _ _ _ _ h

/-- Only what an edit makes of the channel's present value counts. -/
theorem setChan_congr {f g : Chan → Chan} (h : f (s.chan ch) = g (s.chan ch)) : s.setChan ch f = s.setChan ch g :=
  congrArg (fun l => ({ s with jm := { s.jm with chans := l } } : State)) (modifyNth_congr h)

theorem setChan_setChan (f g : Chan → Chan) : (s.setChan ch f).setChan ch g = s.setChan ch fun c => g (f c) :=
  congrArg (fun l => ({ s with jm := { s.jm with chans := l } } : State)) (modifyNth_modifyNth f g ch s.jm.chans)

/-- The channels are not the memory ports'. -/
theorem chan_of_noPorts {t : State} (h : t.noPorts = s.noPorts) (n : Nat) : t.chan n = s.chan n :=
  (congrArg (fun u : State => u.jm.chans.getD n Chan.reset) h :)

@[simp] theorem readPorts_noPorts (s : State) (ch k : Nat) (l : List Piece) : (s.readPorts ch k l).noPorts = s.noPorts := by
  unfold State.readPorts
  split
  · exact foldl_view (fun _ _ => portRead_noPorts ..) _ s
  · rfl

/-- A read that goes out changes nothing of its channel but what is in flight (R303). -/
theorem fetchNext_noPorts (s : State) (ch : Nat) :
    ∃ n k, (s.fetchNext ch).noPorts = (s.setChan ch fun c => { c with fetch := n, reads := k }).noPorts := by
  unfold State.fetchNext
  dsimp only
  split
  · exact ⟨(s.chan ch).fetch, (s.chan ch).reads, congrArg State.noPorts (congrArg
      (fun l => ({ s with jm := { s.jm with chans := l } } : State)) (List.ext_getElem? fun k => by
        rw [modifyNth_getElem?]
        split
        next hk =>
          subst hk
          cases hl : s.jm.chans[k]? with
          | none => rfl
          | some a => simp [State.chan, hl]
        · rfl))⟩
  · exact ⟨_, _, readPorts_noPorts ..⟩

theorem fetchNext_chan (s : State) (h : ch < s.jm.chans.length) :
    ∃ n k, (s.fetchNext ch).chan ch = { s.chan ch with fetch := n, reads := k } := by
  obtain ⟨n, k, hv⟩ := fetchNext_noPorts s ch
  exact ⟨n, k, (chan_of_noPorts hv ch).trans (chan_setChan_same _ h)⟩

/-- A channel that may issue no read issues none. -/
theorem fetchNext_of_still (h : (s.chan ch).reading = false) : s.fetchNext ch = s := by
  simp [State.fetchNext, h]

end

/-! ### The service class (R296, R297, R303) -/

section

variable {s : State} {port : Mgmt} {ch : Nat} {v fields : W32}

/-- A channel with its `JM_CTL` written. -/
def Chan.written (fields : W32) (p : Bool) (c : Chan) : Chan :=
  { c.edit fun c => { c with ctl := fields } with pause := p, paused := c.paused || (p && c.busy && c.paced) }

/-- Fields that stay as they are leave the position in the list. -/
theorem written_same {c : Chan} (p : Bool) (h : fields = c.ctl) :
    c.written fields p = { c with pause := p, paused := c.paused || (p && c.busy && c.paced) } := by
  subst h
  simp [Chan.written, Chan.edit]

theorem written_unpaused (c : Chan) :
    c.written fields false = { c.edit fun c => { c with ctl := fields } with pause := false } := by
  simp [Chan.written, Chan.edit]

theorem wrCtl_closed (hl : s.listening = true) (hc : s.chanClosed ch = true) :
    s.wrCtl port ch v = s.refuse port (0x090000 + 0x40 * ch) 4 := by
  unfold State.wrCtl
  exact (guarded_of_listening port _ _ hl).trans (if_pos hc)

/-- A write that starts an idle channel, or changes no field of a running one. -/
theorem wrCtl_open (hl : s.listening = true) (hc : s.chanClosed ch = false)
    (hr : (s.chan ch).busy = false ∨ (v &&& 0x0003FFF8 = (s.chan ch).ctl ∧ v.getLsbD 0 = false))
    (hp : v.getLsbD 0 = true → v.getLsbD 1 = false) : s.wrCtl port ch v =
      let u := s.setChan ch (Chan.written (v &&& 0x0003FFF8) (v.getLsbD 1))
      let u := if v.getLsbD 0 then u.startChan ch
        else if v.getLsbD 2 then u
        else if !v.getLsbD 1 && (s.chan ch).paused then u.unpause ch
        else u.fetchNext ch
      (if v.getLsbD 2 then u.stopChan ch else u).ok port := by
  unfold State.wrCtl
  refine (guarded_of_listening port _ _ hl).trans ((if_neg (ne_true_of_eq_false hc)).trans ((if_neg ?_).trans ?_))
  · rcases hr with hb | ⟨hf, h0⟩
    · simp [Chan.running, hb]
    · exact fun h => by simp only [h0, hf, Bool.false_or, bne_self_eq_false, Bool.and_false, Bool.false_eq_true] at h
  · cases h0 : v.getLsbD 0 with
    | true => rw [hp h0]; rfl
    | false => rfl

theorem wrCtl_starts (hl : s.listening = true) (hc : s.chanClosed ch = false) (hlen : ch < s.jm.chans.length)
    (hb : (s.chan ch).busy = false) (hh : (s.chan ch).halt = false) (h0 : v.getLsbD 0 = true) (h1 : v.getLsbD 1 = false)
    (h2 : v.getLsbD 2 = false) :
    s.wrCtl port ch v = ((s.setChan ch (Chan.written (v &&& 0x0003FFF8) false)).tryLaunch ch).ok port := by
  rw [wrCtl_open hl hc (.inl hb) fun _ => h1]
  simp only [h0, h1, h2, if_true, if_false, Bool.false_eq_true]
  refine congrArg (State.ok · port) ?_
  rw [State.startChan, chan_setChan_same _ hlen]
  exact (if_neg (ne_true_of_eq_false hh)).trans (if_neg (ne_true_of_eq_false hb))

theorem wrCtl_pauses (hl : s.listening = true) (hc : s.chanClosed ch = false) (hlen : ch < s.jm.chans.length)
    (hb : (s.chan ch).busy = true) (hf : v &&& 0x0003FFF8 = (s.chan ch).ctl) (h0 : v.getLsbD 0 = false)
    (h1 : v.getLsbD 1 = true) (h2 : v.getLsbD 2 = false) :
    s.wrCtl port ch v = (s.setChan ch fun c => { c with pause := true, paused := c.paused || c.paced }).ok port := by
  rw [wrCtl_open hl hc (.inr ⟨hf, h0⟩) fun _ => by simp_all]
  simp only [h0, h1, h2, if_false, Bool.false_eq_true, Bool.not_true, Bool.false_and]
  have hw : s.setChan ch (Chan.written (v &&& 0x0003FFF8) true) =
      s.setChan ch fun c => { c with pause := true, paused := c.paused || c.paced } :=
    setChan_congr ((written_same true hf).trans (by simp [hb]))
  rw [hw, fetchNext_of_still (by rw [chan_setChan_same _ hlen]; simp [Chan.reading])]

/-- PAUSE is lowered on a channel whose fields stay as they are. -/
theorem wrCtl_goesOn (hl : s.listening = true) (hc : s.chanClosed ch = false) (hf : v &&& 0x0003FFF8 = (s.chan ch).ctl)
    (h0 : v.getLsbD 0 = false) (h1 : v.getLsbD 1 = false) (h2 : v.getLsbD 2 = false) : s.wrCtl port ch v =
      (if (s.chan ch).paused then (s.setChan ch fun c => { c with pause := false }).unpause ch
        else (s.setChan ch fun c => { c with pause := false }).fetchNext ch).ok port := by
  rw [wrCtl_open hl hc (.inr ⟨hf, h0⟩) fun _ => h1]
  simp only [h0, h1, h2, if_false, Bool.false_eq_true, Bool.not_false, Bool.true_and]
  have hw : s.setChan ch (Chan.written (v &&& 0x0003FFF8) false) = s.setChan ch fun c => { c with pause := false } :=
    setChan_congr ((written_same false hf).trans (by simp))
  rw [hw]

theorem wrCtl_stops (hl : s.listening = true) (hc : s.chanClosed ch = false) (hb : (s.chan ch).busy = true)
    (hf : v &&& 0x0003FFF8 = (s.chan ch).ctl) (h0 : v.getLsbD 0 = false) (h1 : v.getLsbD 1 = false)
    (h2 : v.getLsbD 2 = true) : s.wrCtl port ch v =
      (s.setChan ch fun c => if c.paused || c.paced
        then { c with pause := false, busy := false, paused := false, paced := false, stopping := false }
        else { c with pause := false, stopping := true }).ok port := by
  rw [wrCtl_open hl hc (.inr ⟨hf, h0⟩) fun _ => h1]
  simp only [h0, h1, h2, if_true, if_false, Bool.false_eq_true]
  refine congrArg (State.ok · port) ((setChan_setChan ..).trans (setChan_congr ?_))
  rw [written_same false hf]
  simp [hb]

/-- What launching leaves in the channel's registers (R297, R304). -/
theorem launch_chan (h : ch < s.jm.chans.length) : ∃ n k, (s.launch ch).chan ch =
    { s.chan ch with busy := true, paused := false, stopping := false, err := 0, complete := false,
                     paced := (s.chan ch).heldAt (s.fillOf (s.chan ch).paceQueue) false, srcAt := (s.chan ch).src,
                     dstAt := (s.chan ch).dst, cntAt := (s.chan ch).cnt, total := (s.left (s.chan ch)).1, fetch := n,
                     reads := k } := by
  unfold State.launch
  dsimp only
  obtain ⟨n, k, hc⟩ := fetchNext_chan (ch := ch) (s.setChan ch fun c =>
    { c with busy := true, paused := false, stopping := false, err := 0, complete := false,
             paced := c.heldAt (s.fillOf (s.chan ch).paceQueue) false, srcAt := c.src, dstAt := c.dst, cntAt := c.cnt,
             total := (s.left (s.chan ch)).1, fetch := 0, reads := 0 }) ((modifyNth_length ..).symm ▸ h)
  rw [chan_setChan_same _ h] at hc
  exact ⟨n, k, hc⟩

/-- A channel of the service class. -/
theorem service_of_open (h : s.chanClosed ch = false) : 48 ≤ ch := by
  simp only [State.chanClosed, Bool.or_eq_false_iff, decide_eq_false_iff_not] at h
  exact Nat.not_lt.mp h.1

/-- What a START leaves in an idle channel. -/
theorem tryLaunch_chan (h : ch < s.jm.chans.length) (hs : 48 ≤ ch) :
    (s.startErr true (s.chan ch) = 0 → ((s.tryLaunch ch).chan ch).busy = true ∧ ((s.tryLaunch ch).chan ch).err = 0 ∧
      ((s.tryLaunch ch).chan ch).complete = false ∧ ((s.tryLaunch ch).chan ch).srcAt = (s.chan ch).src ∧
      ((s.tryLaunch ch).chan ch).dstAt = (s.chan ch).dst ∧ ((s.tryLaunch ch).chan ch).cntAt = (s.chan ch).cnt) ∧
    (s.startErr true (s.chan ch) ≠ 0 → s.tryLaunch ch =
      s.setChan ch fun c => { c with err := BitVec.ofNat 2 (s.startErr true (s.chan ch)) }) ∧
    ((s.tryLaunch ch).chan ch).ctl = (s.chan ch).ctl := by
  unfold State.tryLaunch
  simp only [hs, decide_true]
  split
  next he =>
    obtain ⟨n, k, hc⟩ := launch_chan h
    rw [hc]
    exact ⟨fun _ => ⟨rfl, rfl, rfl, rfl, rfl, rfl⟩, fun hn => absurd he hn, rfl⟩
  next he =>
    rw [chan_setChan_same _ h]
    exact ⟨fun h0 => absurd h0 he, fun _ => rfl, rfl⟩

end

section

variable {s : State} {ch : Nat}

theorem chan_ok (t : State) (port : Mgmt) (l : List Instr) (n : Nat) :
    State.chan { (t.ok port).finish with pending := l } n = t.chan n := by
  cases port <;> rfl

theorem response_ok (t : State) (port : Mgmt) (l : List Instr) :
    State.response { (t.ok port).finish with pending := l } port = ⟨0, 0⟩ := by
  cases port <;> rfl

/-- A paused channel goes on: it follows its queue again and reads (R300, R303). -/
def State.unpaused (s : State) (ch : Nat) : State :=
  (s.setChan ch fun c => { c with paused := false, paced := c.heldAt (s.fillOf c.paceQueue) c.paced }).fetchNext ch

theorem unpause_may (h : ch < s.jm.chans.length) (hs : 48 ≤ ch) (he : s.startErr true (s.chan ch) = 0) :
    (s.setChan ch fun c => { c with pause := false }).unpause ch =
      (s.setChan ch fun c => { c with pause := false }).unpaused ch := by
  unfold State.unpause
  simp only [hs, decide_true]
  refine if_pos ?_
  rw [chan_setChan_same _ h]
  exact he

theorem unpause_mayNot (h : ch < s.jm.chans.length) (hs : 48 ≤ ch) (he : s.startErr true (s.chan ch) ≠ 0) :
    (s.setChan ch fun c => { c with pause := false }).unpause ch =
      s.setChan ch fun c => { c with pause := false, err := BitVec.ofNat 2 (s.startErr true c) } := by
  have hsame : (s.setChan ch fun c => { c with pause := false }).startErr true
      ((s.setChan ch fun c => { c with pause := false }).chan ch) = s.startErr true (s.chan ch) := by
    rw [chan_setChan_same _ h]
    rfl
  unfold State.unpause
  simp only [hs, decide_true, hsame]
  exact (if_neg he).trans ((setChan_setChan ..).trans (setChan_congr rfl))

theorem goesOn_chan (h : ch < s.jm.chans.length) : ∃ n k, ((s.setChan ch fun c => { c with pause := false }).unpaused ch).chan ch =
    { s.chan ch with pause := false, paused := false, fetch := n, reads := k,
                     paced := (s.chan ch).heldAt (s.fillOf (s.chan ch).paceQueue) (s.chan ch).paced } := by
  have h1 : ch < (s.setChan ch fun c => { c with pause := false }).jm.chans.length := (modifyNth_length ..).symm ▸ h
  unfold State.unpaused
  obtain ⟨n, k, hc⟩ := fetchNext_chan (ch := ch) ((s.setChan ch fun c => { c with pause := false }).setChan ch fun c =>
    { c with paused := false, paced := c.heldAt ((s.setChan ch fun c => { c with pause := false }).fillOf c.paceQueue) c.paced }) ((modifyNth_length ..).symm ▸ h1)
  rw [chan_setChan_same _ h1, chan_setChan_same _ h] at hc
  exact ⟨n, k, hc⟩

end

/-- Settles O42: `wrCtl_closed`, `wrCtl_starts`, `wrCtl_pauses`, `wrCtl_goesOn` and `wrCtl_stops`, command by command. -/
theorem serviceChannelsAreDriven : Obligations.ServiceChannelsAreDriven := by
  intro s port ch v hl hlen n c fields next
  have hch : n < s.begin_.jm.chans.length := (ch.isLt.trans_eq hlen.symm :)
  have hlb : s.begin_.listening = true := hl
  refine ⟨fun hc => ⟨fun h0 => ?_, fun h0 h1 h2 => ?_, fun h0 h2 => ?_⟩, fun hc hb hh h0 h1 h2 => ?_,
    fun hc hb hf h0 => ⟨fun h1 h2 => ?_, fun h1 h2 hp => ⟨fun hq he => ?_, fun hq he => ?_, fun hq => ?_⟩, fun h1 h2 => ?_⟩⟩
  · exact does_run _ rfl ((if_pos h0).trans (wrCtl_closed hlb hc))
  · exact does_run _ rfl ((if_pos (by simp only [h0, h1, h2]; rfl)).trans (wrCtl_closed hlb hc))
  · exact does_run _ rfl ((if_pos (by simp only [h0, h2]; rfl)).trans (wrCtl_closed hlb hc))
  · refine exec_to _ rfl ((if_pos h0).trans (wrCtl_starts hlb hc hch hb hh h0 h1 h2)) ?_
    have hlen' : n < (s.begin_.setChan n (Chan.written fields false)).jm.chans.length := (modifyNth_length ..).symm ▸ hch
    have hsame : (s.begin_.setChan n (Chan.written fields false)).chan n = next :=
      (chan_setChan_same _ hch).trans (written_unpaused c)
    obtain ⟨hok, hbad, hctl⟩ := tryLaunch_chan hlen' (service_of_open hc)
    rw [hsame] at hok hbad hctl
    generalize (s.begin_.setChan n (Chan.written fields false)).tryLaunch n = t at *
    refine ⟨response_ok .., (congrArg Chan.ctl (chan_ok ..)).trans hctl, fun he => ?_, fun he => ?_⟩
    · obtain ⟨hbusy, herr, hdone, hsrc, hdst, hcnt⟩ := hok he
      exact ⟨(congrArg Chan.busy (chan_ok ..)).trans hbusy, (congrArg Chan.err (chan_ok ..)).trans herr,
        (congrArg Chan.complete (chan_ok ..)).trans hdone, (congrArg Chan.srcAt (chan_ok ..)).trans hsrc,
        (congrArg Chan.dstAt (chan_ok ..)).trans hdst, (congrArg Chan.cntAt (chan_ok ..)).trans hcnt⟩
    · have hc' : t.chan n = { next with err := BitVec.ofNat 2 (s.startErr true next) } := by
        rw [hbad he, chan_setChan_same _ hlen', hsame]
        rfl
      exact ⟨(congrArg Chan.busy ((chan_ok ..).trans hc')).trans hb, congrArg Chan.err ((chan_ok ..).trans hc')⟩
  · exact does_run _ rfl ((if_pos (by simp only [h0, h1, h2]; rfl)).trans (wrCtl_pauses hlb hc hch hb hf h0 h1 h2))
  · refine exec_to _ rfl ((if_pos (by rw [h0, h1, h2]; exact hp)).trans ((wrCtl_goesOn hlb hc hf h0 h1 h2).trans
      (congrArg (State.ok · port) ((if_pos hq).trans (unpause_may hch (service_of_open hc) he))))) ?_
    obtain ⟨m, k, hv⟩ := goesOn_chan hch
    generalize ((s.begin_.setChan n fun c => { c with pause := false }).unpaused n) = t at *
    exact ⟨response_ok .., congrArg Chan.busy ((chan_ok ..).trans hv) |>.trans hb, congrArg Chan.paused ((chan_ok ..).trans hv),
      congrArg Chan.pause ((chan_ok ..).trans hv), congrArg Chan.paced ((chan_ok ..).trans hv)⟩
  · exact does_run _ rfl ((if_pos (by rw [h0, h1, h2]; exact hp)).trans ((wrCtl_goesOn hlb hc hf h0 h1 h2).trans
      (congrArg (State.ok · port) ((if_pos hq).trans (unpause_mayNot hch (service_of_open hc) he)))))
  · exact does_run _ rfl ((if_pos (by rw [h0, h1, h2]; exact hp)).trans ((wrCtl_goesOn hlb hc hf h0 h1 h2).trans
      (congrArg (State.ok · port) (if_neg (ne_true_of_eq_false hq)))))
  · exact does_run _ rfl ((if_pos (by simp only [h0, h2]; rfl)).trans (wrCtl_stops hlb hc hb hf h0 h1 h2))

/-! ### Transfers (R297–R305) -/

theorem runsOf_flatten {α : Type} {n : Nat} (hn : 0 < n) (k : Nat) (l : List α) (h : l.length ≤ k) : (runsOf n k l).flatten = l := by
  induction k generalizing l with
  | zero => simp [runsOf, List.length_eq_zero_iff.mp (Nat.le_zero.mp h)]
  | succ k ih =>
    cases l with
    | nil => rfl
    | cons a l =>
      rw [runsOf, if_neg (by simp), List.flatten_cons, ih _ (by simp at h ⊢; omega), List.take_append_drop]

/-- A swap keeps every byte (R301). -/
theorem swapBytes_length (k : Nat) (l : List Byte) : (swapBytes k l).length = l.length := by
  unfold swapBytes
  split
  · rfl
  · have hu : 0 < swapUnit k := by unfold swapUnit; split <;> [omega; (split <;> omega)]
    have hf : (groupsOf (swapUnit k) l).flatten = l := runsOf_flatten hu _ _ le_rfl
    rw [List.length_flatMap]
    conv_rhs => rw [← hf, List.length_flatten]
    refine congrArg List.sum (List.map_congr_left fun u _ => ?_)
    split
    · simp; omega
    · exact List.length_reverse

section

variable {s t : State} {ch : Nat}

/-- A memory space with new contents. -/
def State.withSpace (s : State) (k : Nat) (m : Mem) : State :=
  match k with
  | 0 => { s with hostMem := m }
  | 1 => { s with stateMem := m }
  | 2 => { s with scratch := m }
  | 3 => { s with staging := m }
  | _ => { s with ethBuf := m }

theorem space_withSpace (k : Nat) (m : Mem) : (s.withSpace k m).space k = m := by
  match k with
  | 0 | 1 | 2 | 3 | _ + 4 => rfl

theorem withSpace_jm (k : Nat) (m : Mem) : (s.withSpace k m).jm = s.jm := by
  match k with
  | 0 | 1 | 2 | 3 | _ + 4 => rfl

theorem space_of_noPorts (h : t.noPorts = s.noPorts) (k : Nat) : t.space k = s.space k :=
  (congrArg (fun u : State => u.space k) h :)

theorem done_of_noPorts (h : t.noPorts = s.noPorts) : t.jm.done = s.jm.done := (congrArg (fun u : State => u.jm.done) h :)

theorem chans_of_noPorts (h : t.noPorts = s.noPorts) : t.jm.chans = s.jm.chans := (congrArg (fun u : State => u.jm.chans) h :)

theorem spaceWrite_noPorts (ch k a : Nat) (b : List Byte) :
    (s.spaceWrite ch k a b).noPorts = (s.withSpace k (memWrite (s.space k) a b)).noPorts := by
  have hp := portWrite_noPorts s 0x2E ch
  match k with
  | 0 => exact congrArg (fun u : State => { u with hostMem := memWrite s.hostMem a b }) (hp false a b)
  | 1 => exact congrArg (fun u : State => { u with stateMem := memWrite s.stateMem a b }) (hp true a b)
  | 2 | 3 | _ + 4 => rfl

theorem spaceWrite_chan (ch k a : Nat) (b : List Byte) (n : Nat) : (s.spaceWrite ch k a b).chan n = s.chan n :=
  (chan_of_noPorts (spaceWrite_noPorts ch k a b) n).trans (congrArg (fun m : JmBlock => m.chans.getD n Chan.reset) (withSpace_jm ..))

/-- A channel whose next n bytes have gone: the registers of both sides count on (R303). -/
def Chan.moved (n : Nat) (c : Chan) : Chan :=
  { c with src := c.src + BitVec.ofNat 48 n, dst := c.dst + BitVec.ofNat 48 n, cnt := c.cnt - BitVec.ofNat 32 n }

/-- The bytes of a linear transfer go from its source to its destination as SWAP says (R297, R301). -/
theorem moveBytes_linear (s : State) (ch n : Nat) (hg : (s.chan ch).sg = false) : (s.moveBytes ch n).noPorts =
    ((s.withSpace (s.chan ch).dstSpace (memWrite (s.space (s.chan ch).dstSpace) (s.chan ch).dst.toNat
      (swapBytes (s.chan ch).swap (memRead (s.space (s.chan ch).srcSpace) (s.chan ch).src.toNat n)))).setChan ch
        (Chan.moved n)).noPorts := by
  have hlen : (swapBytes (s.chan ch).swap (memRead (s.space (s.chan ch).srcSpace) (s.chan ch).src.toNat n)).length = n :=
    (swapBytes_length ..).trans (memRead_length ..)
  unfold State.moveBytes
  simp only [State.sidePieces, hg, Bool.false_and, Bool.false_eq_true, if_false, State.writePieces, readPieces, List.flatMap_cons,
    List.flatMap_nil, List.append_nil, if_true, List.take_of_length_le hlen.le]
  refine (congrArg State.noPorts (setChan_congr (g := Chan.moved n) ?_)).trans
    (congrArg (fun u : State => u.setChan ch (Chan.moved n)) (spaceWrite_noPorts ..))
  rw [spaceWrite_chan]
  simp only [hg, Bool.false_and, Bool.false_eq_true, if_false]
  rfl

/-- What a linear transfer of n bytes leaves. -/
theorem moveBytes_effect {n : Nat} (h : ch < s.jm.chans.length) (hg : (s.chan ch).sg = false) (ht : s.moveBytes ch n = t) :
    t.space (s.chan ch).dstSpace = memWrite (s.space (s.chan ch).dstSpace) (s.chan ch).dst.toNat
      (swapBytes (s.chan ch).swap (memRead (s.space (s.chan ch).srcSpace) (s.chan ch).src.toNat n)) ∧
    t.jm.done = s.jm.done ∧ t.jm.chans.length = s.jm.chans.length ∧ t.chan ch = (s.chan ch).moved n := by
  subst ht
  have hv := moveBytes_linear s ch n hg
  refine ⟨(space_of_noPorts hv _).trans (space_withSpace ..), (done_of_noPorts hv).trans (congrArg JmBlock.done (withSpace_jm ..) :), ?_, ?_⟩
  · exact (congrArg List.length (chans_of_noPorts hv)).trans ((modifyNth_length ..).trans
      (congrArg (fun m : JmBlock => m.chans.length) (withSpace_jm ..)))
  · refine (chan_of_noPorts hv _).trans ((chan_setChan_same _ ?_).trans (congrArg (Chan.moved n) ?_))
    · exact h.trans_eq (congrArg (fun m : JmBlock => m.chans.length) (withSpace_jm ..)).symm
    · exact (congrArg (fun m : JmBlock => m.chans.getD ch Chan.reset) (withSpace_jm ..))

/-- Where a channel stands may be seen, and nothing else changes. -/
theorem seeHalf_effect {a b : Nat} (h : ch < s.jm.chans.length) (ht : s.seeHalf ch a b = t) :
    (∀ k, t.space k = s.space k) ∧ t.jm.done = s.jm.done ∧ t.jm.chans.length = s.jm.chans.length ∧
      ∃ seen, t.chan ch = { s.chan ch with halfSeen := seen } := by
  subst ht
  unfold State.seeHalf
  dsimp only
  split
  · exact ⟨fun _ => rfl, rfl, modifyNth_length .., true, chan_setChan_same _ h⟩
  · exact ⟨fun _ => rfl, rfl, rfl, _, rfl⟩

theorem fetchNext_effect (h : ch < s.jm.chans.length) (ht : s.fetchNext ch = t) :
    (∀ k, t.space k = s.space k) ∧ t.jm.done = s.jm.done ∧ ∃ n k, t.chan ch = { s.chan ch with fetch := n, reads := k } := by
  subst ht
  obtain ⟨n, k, hv⟩ := fetchNext_noPorts s ch
  exact ⟨fun i => (space_of_noPorts hv i).trans rfl, (done_of_noPorts hv).trans rfl, n, k, (chan_of_noPorts hv ch).trans (chan_setChan_same _ h)⟩

/-- A channel at the end of a lap (R302, R304). -/
def Chan.lapped (c : Chan) (service again : Bool) : Chan :=
  if c.circ && service then
    { c with completions := stick c.completions 1, complete := true, sgDone := 0, fetch := 0, reads := 0,
             src := c.srcAt, dst := c.dstAt, cnt := c.cntAt, overrun := c.overrun || again }
  else
    { c with completions := stick c.completions 1, complete := true, sgDone := 0, fetch := 0, reads := 0,
             busy := false, paused := false, stopping := false, paced := false }

theorem lapped_counts (c : Chan) (service again : Bool) :
    (c.lapped service again).completions = stick c.completions 1 ∧ (c.lapped service again).complete = true := by
  unfold Chan.lapped
  split <;> exact ⟨rfl, rfl⟩

theorem lapped_ends {c : Chan} {service again : Bool} (h : c.circ = false ∨ service = false) :
    (c.lapped service again).busy = false ∧ (c.lapped service again).cnt = c.cnt := by
  rw [Chan.lapped, if_neg (by rcases h with h | h <;> simp [h])]
  exact ⟨rfl, rfl⟩

theorem lapped_again {c : Chan} {service again : Bool} (h : c.circ = true) (hs : service = true) :
    (c.lapped service again).busy = c.busy ∧ (c.lapped service again).src = c.srcAt ∧ (c.lapped service again).dst = c.dstAt ∧
      (c.lapped service again).cnt = c.cntAt ∧ (c.lapped service again).overrun = (c.overrun || again) := by
  rw [Chan.lapped, if_pos (Bool.and_eq_true_iff.mpr ⟨h, hs⟩)]
  exact ⟨rfl, rfl, rfl, rfl, rfl⟩

theorem chanDone_effect (h : ch < s.jm.chans.length) (ht : s.chanDone ch = t) :
    (∀ k, t.space k = s.space k) ∧ t.jm.done = s.jm.done ||| BitVec.ofNat 64 (2 ^ ch) ∧ t.jm.chans.length = s.jm.chans.length ∧
      t.chan ch = (s.chan ch).lapped (decide (48 ≤ ch)) (s.jm.done.getLsbD ch) := by
  subst ht
  exact ⟨fun _ => rfl, rfl, modifyNth_length .., chan_setChan_same _ h⟩

/-- A linear transfer completes: its bytes are in place, and its lap is over (R302). -/
theorem moverComplete_effect (h : ch < s.jm.chans.length) (hb : (s.chan ch).busy = true) (hq : (s.chan ch).paused = false)
    (ho : (s.chan ch).offRun = false) (hg : (s.chan ch).sg = false) (hp : (s.chan ch).paced = false) (ht : s.moverComplete ch = t) :
    t.space (s.chan ch).dstSpace = memWrite (s.space (s.chan ch).dstSpace) (s.chan ch).dst.toNat
      (swapBytes (s.chan ch).swap (memRead (s.space (s.chan ch).srcSpace) (s.chan ch).src.toNat (s.chan ch).cnt.toNat)) ∧
    t.jm.done = s.jm.done ||| BitVec.ofNat 64 (2 ^ ch) ∧
    ∃ seen n k, t.chan ch = { ({ (s.chan ch).moved (s.chan ch).cnt.toNat with halfSeen := seen } : Chan).lapped
      (decide (48 ≤ ch)) (s.jm.done.getLsbD ch) with fetch := n, reads := k } := by
  unfold State.moverComplete at ht
  have hl : s.left (s.chan ch) = ((s.chan ch).cnt.toNat, false) := by simp [State.left, hg]
  simp only [hb, hq, ho, hp, hl, Bool.not_true, Bool.false_and, Bool.or_false, Bool.false_eq_true, if_false] at ht
  have hv := readPorts_noPorts s ch (s.chan ch).srcSpace
    (dropPieces (s.chan ch).fetch (s.sidePieces (s.chan ch) false (s.chan ch).cnt.toNat))
  generalize s.readPorts ch (s.chan ch).srcSpace
    (dropPieces (s.chan ch).fetch (s.sidePieces (s.chan ch) false (s.chan ch).cnt.toNat)) = u at *
  have hc : u.chan ch = s.chan ch := chan_of_noPorts hv ch
  have hlen : ch < u.jm.chans.length := h.trans_eq (congrArg List.length (chans_of_noPorts hv)).symm
  obtain ⟨hs1, hd1, hl1, hc1⟩ := moveBytes_effect (n := (s.chan ch).cnt.toNat) hlen (by rw [hc]; exact hg) rfl
  rw [hc] at hs1 hc1
  generalize u.moveBytes ch (s.chan ch).cnt.toNat = u1 at *
  obtain ⟨hs2, hd2, hl2, seen, hc2⟩ := seeHalf_effect (a := (s.chan ch).cnt.toNat) (b := 0) (hlen.trans_eq hl1.symm) rfl
  generalize u1.seeHalf ch (s.chan ch).cnt.toNat 0 = u2 at *
  obtain ⟨hs3, hd3, hl3, hc3⟩ := chanDone_effect (hlen.trans_eq (hl2.trans hl1).symm) rfl
  generalize u2.chanDone ch = u3 at *
  obtain ⟨hs4, hd4, n, k, hc4⟩ := fetchNext_effect (hlen.trans_eq (hl3.trans (hl2.trans hl1)).symm) ht
  have hd : u2.jm.done = s.jm.done := hd2.trans (hd1.trans (done_of_noPorts hv))
  refine ⟨?_, ?_, seen, n, k, ?_⟩
  · rw [hs4, hs3, hs2, hs1, space_of_noPorts hv, space_of_noPorts hv]
  · rw [hd4, hd3, hd]
  · rw [hc4, hc3, hc2, hc1, hd]

/-- The bytes in flight of a linear transfer without a swap are written, and it stops or pauses (R303). -/
theorem moverDrained_effect {n : Nat} (h : ch < s.jm.chans.length) (hb : (s.chan ch).busy = true) (hq : (s.chan ch).paused = false)
    (ho : (s.chan ch).offRun = false) (hg : (s.chan ch).sg = false) (hw : (s.chan ch).swap = 0)
    (hp : (s.chan ch).pause = true ∨ (s.chan ch).stopping = true) (hn : n ≤ (s.chan ch).cnt.toNat) (ht : s.moverDrained ch n = t) :
    t.space (s.chan ch).dstSpace = memWrite (s.space (s.chan ch).dstSpace) (s.chan ch).dst.toNat
      (memRead (s.space (s.chan ch).srcSpace) (s.chan ch).src.toNat n) ∧
    t.jm.done = s.jm.done ∧ (t.chan ch).cnt = (s.chan ch).cnt - BitVec.ofNat 32 n ∧
    ((s.chan ch).stopping = true → (t.chan ch).busy = false) ∧ ((s.chan ch).stopping = false → (t.chan ch).paused = true) := by
  have hp' : ((s.chan ch).pause || (s.chan ch).stopping) = true := by simpa using hp
  have hk : min n (s.chan ch).cnt.toNat / swapUnit (s.chan ch).swap * swapUnit (s.chan ch).swap = n := by
    rw [hw, swapUnit, if_pos rfl, Nat.div_one, Nat.mul_one, Nat.min_eq_left hn]
  have hl : s.left (s.chan ch) = ((s.chan ch).cnt.toNat, false) := by simp [State.left, hg]
  unfold State.moverDrained State.moveSome at ht
  simp only [hb, hq, ho, hp', hl, hk, Bool.not_true, Bool.or_false, Bool.false_eq_true, if_false] at ht
  obtain ⟨hs1, hd1, hl1, hc1⟩ := moveBytes_effect (n := n) h hg rfl
  generalize s.moveBytes ch n = u1 at *
  obtain ⟨hs2, hd2, hl2, seen, hc2⟩ := seeHalf_effect (a := (s.chan ch).cnt.toNat) (b := (s.chan ch).cnt.toNat - n)
    (h.trans_eq hl1.symm) rfl
  generalize u1.seeHalf ch (s.chan ch).cnt.toNat ((s.chan ch).cnt.toNat - n) = u2 at *
  subst ht
  have hc3 := chan_setChan_same (s := u2) (fun c => if c.stopping then
    { { c with fetch := 0, reads := 0 } with busy := false, stopping := false, paced := false } else
    { { c with fetch := 0, reads := 0 } with paused := true }) (h.trans_eq (hl2.trans hl1).symm)
  rw [hc2, hc1] at hc3
  refine ⟨?_, hd2.trans hd1, ?_, fun hst => ?_, fun hst => ?_⟩
  · refine (hs2 _).trans (hs1.trans ?_)
    rw [hw]
    rfl
  · refine (congrArg Chan.cnt hc3).trans ?_
    dsimp only
    split <;> rfl
  · exact (congrArg Chan.busy hc3).trans (congrArg Chan.busy (if_pos hst))
  · exact (congrArg Chan.paused hc3).trans (congrArg Chan.paused (if_neg (ne_true_of_eq_false hst)))

/-- Following a queue's fill, spelt out (R300). -/
theorem heldAt_paced {c : Chan} (fill : Nat) (h : c.paceEn = true) : c.heldAt fill c.paced =
    if c.paceDrain then (if fill ≤ c.low then true else if c.high ≤ fill then false else c.paced)
    else (if c.high ≤ fill then true else if fill ≤ c.low then false else c.paced) := by
  simp [Chan.heldAt, h]

/-- A queue of Jalos's own with a new fill level. -/
def State.withFill (s : State) (q : Nat) (fill : BitVec 12) : State :=
  { s with jm := { s.jm with ownFill := modifyNth (fun _ => fill) q s.jm.ownFill } }

theorem repace_own {q : Nat} {fill : BitVec 12} (hq : q < 8) (hl : q < s.jm.ownFill.length) :
    (s.withFill q fill).repace q =
      let u := { s with jm := { s.jm with
        ownFill := modifyNth (fun _ => fill) q s.jm.ownFill,
        chans := s.jm.chans.map fun c =>
          if c.busy && c.paceEn && c.paceQueue == q then
            { c with paced := if c.paceDrain then
                (if fill.toNat ≤ c.low then true else if c.high ≤ fill.toNat then false else c.paced)
              else (if c.high ≤ fill.toNat then true else if fill.toNat ≤ c.low then false else c.paced) }
          else c } }
      (List.range 64).foldl (fun u ch => if (u.chan ch).paceEn && (u.chan ch).paceQueue == q then u.fetchNext ch else u) u := by
  have hf : (s.withFill q fill).fillOf q = fill.toNat :=
    (if_pos hq).trans (congrArg BitVec.toNat (modifyNth_getD_same _ _ _ _ hl))
  unfold State.repace
  rw [hf]
  dsimp only [State.withFill]
  congr 5
  refine funext fun c => ?_
  split
  next h =>
    simp only [Bool.and_eq_true] at h
    rw [heldAt_paced _ h.1.2]
  · rfl

/-- A channel whose doorbell holds no ring starts nothing (R305). -/
theorem offTry_idle (h : memGet s.jq.db (4080 + (ch - 60)) = 0) : s.offTry ch = s := by
  unfold State.offTry State.offTryN
  simp [h]

/-- The completion record of an offload entry (R305). -/
def offRecorded (flag idx : Nat) (m : Mem) : Mem :=
  if flag = 0 then m else memWrite m flag (bytesLE 8 (idx % 2 ^ 32 + 2 ^ 32))

theorem offRecord_noPorts (s : State) (flag idx : Nat) :
    (s.offRecord flag idx 1).noPorts = { s with hostMem := offRecorded flag idx s.hostMem }.noPorts := by
  unfold State.offRecord offRecorded
  split
  · rfl
  · rw [hostWrite_noPorts, Nat.one_mul]

theorem recorded_noPorts {flag idx : Nat} (h : t.noPorts = s.noPorts) :
    { t with hostMem := offRecorded flag idx t.hostMem }.noPorts = { s with hostMem := offRecorded flag idx s.hostMem }.noPorts :=
  congrArg (fun u : State => { u with hostMem := offRecorded flag idx u.hostMem }) h

/-- The channel of an offload entry that has completed. -/
def Chan.offEnded (w : Nat) (c : Chan) : Chan :=
  { c with offRun := false, busy := false, complete := true, completions := stick c.completions 1,
           offIdx := if bitAt w 161 then 0 else c.offIdx + 1 }

def State.offEnds (s : State) (ch w : Nat) : State :=
  { s with jm := { s.jm with chans := modifyNth (Chan.offEnded w) ch s.jm.chans,
                             done := s.jm.done ||| BitVec.ofNat 64 (2 ^ ch) } }

/-- The state of an offload entry that has completed, before its channel looks for the next ring. -/
def State.offWritten (s : State) (ch : Nat) (d : OffloadDecl) : State :=
  let w := s.offEntry ch
  let st := d.base + bitsAt w 64 48
  let u := if bitAt w 160 then s.spaceWrite ch 0 (bitsAt w 0 48) (memRead s.stateMem st (bitsAt w 128 32))
    else s.spaceWrite ch 1 st (memRead s.hostMem (bitsAt w 0 48) (bitsAt w 128 32))
  (u.offRecord (bitsAt w 192 48) (s.chan ch).offIdx 1).offEnds ch w

/-- What the entry w moves between host memory and the state tier at st (R305). -/
def State.offCopied (s : State) (w st : Nat) : State :=
  if bitAt w 160 then { s with hostMem := memWrite s.hostMem (bitsAt w 0 48) (memRead s.stateMem st (bitsAt w 128 32)) }
  else { s with stateMem := memWrite s.stateMem st (memRead s.hostMem (bitsAt w 0 48) (bitsAt w 128 32)) }

theorem offCopied_out {w st : Nat} (h : bitAt w 160 = true) : (s.offCopied w st).stateMem = s.stateMem ∧
    (s.offCopied w st).hostMem = memWrite s.hostMem (bitsAt w 0 48) (memRead s.stateMem st (bitsAt w 128 32)) := by
  rw [State.offCopied, if_pos h]
  exact ⟨rfl, rfl⟩

theorem offCopied_in {w st : Nat} (h : bitAt w 160 = false) : (s.offCopied w st).hostMem = s.hostMem ∧
    (s.offCopied w st).stateMem = memWrite s.stateMem st (memRead s.hostMem (bitsAt w 0 48) (bitsAt w 128 32)) := by
  rw [State.offCopied, if_neg (ne_true_of_eq_false h)]
  exact ⟨rfl, rfl⟩

theorem offDone_eq {d : OffloadDecl} (hd : s.decl.offload = some d) (h60 : 60 ≤ ch) (hr : (s.chan ch).offRun = true) :
    s.offDone ch = (s.offWritten ch d).offTry ch := by
  have hon : s.offloadOn = true := by rw [State.offloadOn, hd]; rfl
  unfold State.offDone State.offWritten
  simp only [hon, h60, hr, hd, decide_true, Bool.and_self, Bool.not_true, Bool.false_eq_true, if_false]
  rfl

theorem offWritten_noPorts (s : State) (ch : Nat) (d : OffloadDecl) : (s.offWritten ch d).noPorts =
    let u := s.offCopied (s.offEntry ch) (d.base + bitsAt (s.offEntry ch) 64 48)
    (State.offEnds { u with hostMem := offRecorded (bitsAt (s.offEntry ch) 192 48) (s.chan ch).offIdx u.hostMem } ch
      (s.offEntry ch)).noPorts := by
  have hend : ∀ v v' : State, v.noPorts = v'.noPorts → (v.offEnds ch (s.offEntry ch)).noPorts = (v'.offEnds ch (s.offEntry ch)).noPorts :=
    fun v v' h => congrArg (State.offEnds · ch (s.offEntry ch)) h
  refine hend _ _ ((offRecord_noPorts ..).trans (recorded_noPorts ?_))
  unfold State.offCopied
  split
  · exact spaceWrite_noPorts ..
  · exact spaceWrite_noPorts ..

/-- An offload entry completes while no ring waits (R305). -/
theorem offDone_effect {d : OffloadDecl} (hd : s.decl.offload = some d) (h60 : 60 ≤ ch) (hlen : ch < s.jm.chans.length)
    (hr : (s.chan ch).offRun = true) (hdb : memGet s.jq.db (4080 + (ch - 60)) = 0) (ht : s.offDone ch = t) :
    let w := s.offEntry ch
    let u := s.offCopied w (d.base + bitsAt w 64 48)
    t.jm.done = s.jm.done ||| BitVec.ofNat 64 (2 ^ ch) ∧ t.chan ch = (s.chan ch).offEnded w ∧ t.stateMem = u.stateMem ∧
      t.hostMem = offRecorded (bitsAt w 192 48) (s.chan ch).offIdx u.hostMem := by
  have hjm : ∀ w st, (s.offCopied w st).jm = s.jm ∧ (s.offCopied w st).jq = s.jq := by
    intro w st
    unfold State.offCopied
    split <;> exact ⟨rfl, rfl⟩
  intro w u
  have hv : (s.offWritten ch d).noPorts = _ := offWritten_noPorts s ch d
  rw [offDone_eq hd h60 hr] at ht
  generalize s.offWritten ch d = v at *
  obtain ⟨hujm, hujq⟩ := hjm w (d.base + bitsAt w 64 48)
  have hdb' : memGet v.jq.db (4080 + (ch - 60)) = 0 := (congrArg (fun x : State => memGet x.jq.db (4080 + (ch - 60))) hv :).trans
    ((congrArg (fun q : JqBlock => memGet q.db (4080 + (ch - 60))) hujq :).trans hdb)
  rw [offTry_idle hdb'] at ht
  subst ht
  refine ⟨(done_of_noPorts hv).trans (congrArg (fun m : JmBlock => m.done ||| BitVec.ofNat 64 (2 ^ ch)) hujm), ?_,
    (congrArg State.stateMem hv :), (congrArg State.hostMem hv :)⟩
  refine (chan_of_noPorts hv ch).trans ((congrArg (fun m : JmBlock => (modifyNth (Chan.offEnded w) ch m.chans).getD ch Chan.reset) hujm).trans ?_)
  exact modifyNth_getD_same _ _ _ _ hlen

theorem getLsbD_or_pow (b : W64) {n : Nat} (h : n < 64) : (b ||| BitVec.ofNat 64 (2 ^ n)).getLsbD n = true := by
  rw [BitVec.getLsbD_or, BitVec.getLsbD_ofNat, decide_eq_true h, Nat.testBit_two_pow_self]
  exact Bool.or_true _

end

/-- Settles O43: `moverComplete_effect`, `moverDrained_effect`, `repace_own` and `offWritten_noPorts`. -/
theorem transfersComplete : Obligations.TransfersComplete := by
  refine ⟨fun s ch hlen => ?_, fun s q fill hq hl => ?_, fun s ch d hd h60 hlen hr hdb => ?_⟩
  · intro n c hb hq ho hg
    have hch : n < s.begin_.jm.chans.length := (ch.isLt.trans_eq hlen.symm :)
    refine ⟨fun hp => ?_, fun moved hw hps hm => ?_⟩
    · refine exec_to (fun s => s.moverComplete ch.toNat) rfl rfl ?_
      obtain ⟨hs, hd, seen, f, k, hc⟩ := moverComplete_effect hch hb hq ho hg hp rfl
      generalize s.begin_.moverComplete ch.toNat = t at *
      have h0 : c.cnt - BitVec.ofNat 32 c.cnt.toNat = 0 := by simp
      refine ⟨hs, (congrArg (·.getLsbD n) hd).trans (getLsbD_or_pow _ ch.isLt), ?_⟩
      refine ⟨?_, ?_, fun hcirc => ?_, fun hcirc h48 => ?_⟩
      · exact (congrArg Chan.completions hc).trans (lapped_counts ..).1
      · exact (congrArg Chan.complete hc).trans (lapped_counts ..).2
      · have hl := lapped_ends (service := decide (48 ≤ ch.toNat)) (again := s.jm.done.getLsbD ch.toNat)
          (c := ({ c.moved c.cnt.toNat with halfSeen := seen } : Chan)) (hcirc.imp id fun h => decide_eq_false (Nat.not_le.mpr h))
        exact ⟨(congrArg Chan.busy hc).trans hl.1, (congrArg Chan.cnt hc).trans (hl.2.trans h0)⟩
      · obtain ⟨h1, h2, h3, h4, h5⟩ := lapped_again (service := decide (48 ≤ ch.toNat)) (again := s.jm.done.getLsbD ch.toNat)
          (c := ({ c.moved c.cnt.toNat with halfSeen := seen } : Chan)) hcirc (decide_eq_true h48)
        exact ⟨(congrArg Chan.busy hc).trans (h1.trans hb), (congrArg Chan.src hc).trans h2, (congrArg Chan.dst hc).trans h3,
          (congrArg Chan.cnt hc).trans h4, (congrArg Chan.overrun hc).trans h5⟩
    · refine exec_to (fun s => s.moverDrained ch.toNat moved.toNat) rfl rfl ?_
      obtain ⟨hs, hd, hcnt, hstop, hpause⟩ := moverDrained_effect hch hb hq ho hg hw hps hm rfl
      generalize s.begin_.moverDrained ch.toNat moved.toNat = t at *
      exact ⟨hs, hcnt.trans (congrArg (c.cnt - ·) (BitVec.ofNat_toNat ..)), hd, hstop, hpause⟩
  · refine does_run (fun s => (if q.toNat < 8 then s.withFill q.toNat fill else s).repace q.toNat) rfl ((congrArg (State.repace · q.toNat) (if_pos hq)).trans ?_)
    exact repace_own (s := s.begin_) hq hl
  · refine exec_to (fun s => s.offDone ch.toNat) rfl rfl ?_
    obtain ⟨hdone, hc, hst, hho⟩ := offDone_effect (s := s.begin_) hd h60 (ch.isLt.trans_eq hlen.symm :) hr hdb rfl
    generalize s.begin_.offDone ch.toNat = t at *
    refine ⟨(congrArg (·.getLsbD ch.toNat) hdone).trans (getLsbD_or_pow _ ch.isLt), congrArg Chan.offRun hc, congrArg Chan.busy hc,
      congrArg Chan.completions hc, congrArg Chan.offIdx hc, fun hw => ?_, fun hw => ?_⟩
    · obtain ⟨h1, h2⟩ := offCopied_out (s := s.begin_) (st := d.base + bitsAt (s.offEntry ch.toNat) 64 48) hw
      exact ⟨hst.trans h1, hho.trans (congrArg (offRecorded _ _) h2)⟩
    · obtain ⟨h1, h2⟩ := offCopied_in (s := s.begin_) (st := d.base + bitsAt (s.offEntry ch.toNat) 64 48) hw
      exact ⟨hho.trans (congrArg (offRecorded _ _) h1), hst.trans h2⟩

/-! ### A failed read (R89, R295) -/

/-- A catalogue entry whose mask rows hold no group: no image's layout gives one (R79), but a state may hold one. -/
def rowless : CatEntry :=
  { rows := 1, cols := 32, chLen := 32, cls := 1, wire := 0, resFmt := 0, resShift := 0, dcurve := 0, escB := 0, clipOct := 0,
    sideCap := 0, srQ := false, srRes := false, rowGroups := 0, satThresh := 0, resBase := 0, padCols := 0,
    maskBase := 0, chunkMap := 0, chunkCount := 0, blockQ := 0, p4 := false, factMode := 0, subs := 0, sampN := 0,
    dampCurve := 0, fcoef := 0, refreshLog2 := 0, phase0 := 0, aShift := 0, gShift := 0, prog := 0, kset := 0, srM := false,
    srW := false, reservedBad := false }

/-- A block after reset whose image holds that entry. -/
def rowlessState : State := { State.reset with image := some { RunImage.empty with catalogue := [rowless] } }

/-- A read of line 0 of SP0, for a unit that is not the Mover. -/
def rowlessRead : MemReq := ⟨.sp 0, 0, 0, 0, 0, 0, false⟩

/-- The failed read spoils no mask: `State.maskDamage` counts no row of the entry. -/
theorem rowless_noDamage : ((rowlessState.begin_).memResponse rowlessRead 1 false false).ji.maskBad = [] := by
  rfl

/-- Refutes O44: the statement asks nothing of the catalogue, and of an entry with `rowGroups = 0` and a group (no image's layout
gives one, R79) it calls row 0 a row, since `row * 0 < groups`, while the model counts ⌈groups / 0⌉ = 0 rows. A failed read of the
line that would hold the mask of that row then leaves `maskBad` empty. -/
theorem not_memoryResponsesAreTaken : ¬ Obligations.MemoryResponsesAreTaken := by
  intro h
  obtain ⟨-, -, -, -, herr, -⟩ := h rowlessState rowlessRead rfl
  obtain ⟨t, ht, -, -, hbad⟩ := herr 1 (by decide) (by decide)
  have hslot := hbad 0 rowless 0 0 rfl rfl (List.mem_singleton.mpr rfl) (by decide) (by decide) (by decide) (by decide)
  have ht' : t = { (rowlessState.begin_.memResponse rowlessRead 1 false false).finish with pending := rowlessState.pending } :=
    (Host.Outcome.next.inj ht).symm
  have hnone : t.ji.maskBad = [] := (congrArg (fun u : State => u.ji.maskBad) ht').trans rowless_noDamage
  exact absurd (hnone ▸ hslot) List.not_mem_nil

end Sys2Proof.Machine
end

section
/-!
The block codec and the operand expander (spec/12_block_codec.md R306–R321).
-/

namespace Sys2Proof.Machine

section

variable (s : State) (unit a : Nat) (b : List Byte)

@[simp] theorem hostWrite_hostMem : (s.hostWrite unit a b).hostMem = memWrite s.hostMem a b :=
  (congrArg State.hostMem (hostWrite_noPorts s unit a b) :)

@[simp] theorem hostWrite_jq : (s.hostWrite unit a b).jq = s.jq := (congrArg State.jq (hostWrite_noPorts s unit a b) :)

@[simp] theorem hostWrite_jc : (s.hostWrite unit a b).jc = s.jc := (congrArg State.jc (hostWrite_noPorts s unit a b) :)

end

/-! ### Writing a block (R309–R312) -/

section

variable {s : State} {r : RegionEntry} {tables : List (Nat × PrefixTable)} {q : KvReq}

/-- A block written RAW: the header and all but 16 bytes at home, the 16 bytes in the spill line (R311). -/
def KvReq.rawAt (q : KvReq) (r : RegionEntry) (m : Mem) : Mem :=
  memWrite (memWrite (memWrite m (r.homeOf q.block) (podHeader 1 r.fmt 0 q.epoch.toNat [] q.raw)) (r.homeOf q.block + 16)
    (q.raw.drop 16)) (r.spillOf q.block) (q.raw.take 16)

/-- What writing a block leaves alone. -/
theorem writeBlock_kept (s : State) (r : RegionEntry) (tables : List (Nat × PrefixTable)) (q : KvReq) :
    (s.writeBlock r tables q).stateMem = s.stateMem ∧ (s.writeBlock r tables q).jq = s.jq ∧
      (s.writeBlock r tables q).jc.reqs = s.jc.reqs := by
  unfold State.writeBlock
  dsimp only
  split
  · simp [hostWrite_stateMem]
  · split
    · simp [hostWrite_stateMem]
    · split
      · simp [hostWrite_stateMem]
      · split
        · simp [State.event, hostWrite_stateMem]
        · simp [hostWrite_stateMem]

theorem writeBlock_sealed (h : r.isSealed = true) : (s.writeBlock r tables q).hostMem = memWrite s.hostMem (r.homeOf q.block) q.raw := by
  unfold State.writeBlock
  rw [if_pos h]
  exact hostWrite_hostMem ..

theorem writeBlock_uncoded (h : r.isSealed = false) (hc : choosePod tables r q.raw = none) :
    (s.writeBlock r tables q).hostMem = q.rawAt r s.hostMem ∧ (s.writeBlock r tables q).jc.raw = stick s.jc.raw 1 := by
  unfold State.writeBlock
  simp [h, hc, KvReq.rawAt]

theorem writeBlock_tooLong {c : PodChoice} (h : r.isSealed = false) (hc : choosePod tables r q.raw = some c)
    (hl : slotBytes r.slot < podTotal r.fmt c.body) :
    (s.writeBlock r tables q).hostMem = q.rawAt r s.hostMem ∧ (s.writeBlock r tables q).jc.raw = stick s.jc.raw 1 := by
  unfold State.writeBlock
  simp [h, hc, hl, KvReq.rawAt]

theorem writeBlock_fits {c : PodChoice} (h : r.isSealed = false) (hc : choosePod tables r q.raw = some c)
    (hl : podTotal r.fmt c.body ≤ slotBytes r.slot) (hv : s.jc.verify = false) :
    let pod := podBytes r.fmt c.table q.epoch.toNat c.body q.raw
    (s.writeBlock r tables q).hostMem =
      memWrite s.hostMem (r.homeOf q.block) (pod ++ List.replicate (slotBytes r.slot - pod.length) 0) ∧
      (s.writeBlock r tables q).jc.compressed = stick s.jc.compressed 1 := by
  unfold State.writeBlock
  simp [h, hc, Nat.not_lt.mpr hl, hv]

end

/-- The request of a lane that is encoded next (R309). -/
def KvReq.due (tile : Nat) (q : KvReq) : Bool := q.block % 40 == tile && !q.issued

theorem encodeBlock_coming {s : State} {tile : Nat} {q : KvReq} (hf : s.jc.reqs.find? (KvReq.due tile) = some q)
    (hq : q.queue ≠ none) : s.encodeBlock tile = s := by
  unfold State.encodeBlock
  have hf' : s.jc.reqs.find? (fun q : KvReq => q.block % 40 == tile && !q.issued) = some q := hf
  simp [hf', Option.isSome_iff_ne_none.mpr hq]

theorem encodeBlock_written {s : State} {tile : Nat} {q : KvReq} (hf : s.jc.reqs.find? (KvReq.due tile) = some q)
    (hq : q.queue = none) {w : State} (hw : s.writeBlock (s.region q.region) (s.tables q.epoch).prefixes q = w) :
    s.encodeBlock tile = State.setWin { w with jc := { w.jc with reqs := markFirst (KvReq.due tile) w.jc.reqs } } tile (fun x =>
      { x with tensor := BitVec.ofNat 18 q.region }) := by
  subst hw
  unfold State.encodeBlock
  have hf' : s.jc.reqs.find? (fun q : KvReq => q.block % 40 == tile && !q.issued) = some q := hf
  simp only [hf', hq, Option.isSome_none, Bool.false_eq_true, if_false]
  rfl

/-- Settles O45: `encodeBlock_written` with the lemmas about `State.writeBlock`, case by case. -/
theorem blocksAreEncodedAndCounted : Obligations.BlocksAreEncodedAndCounted := by
  refine ⟨fun s tile q ht => ?_, fun s region block => ?_⟩
  · intro mine r tables header asRaw hf
    refine ⟨fun hq => does_runUnit _ _ rfl (decide_eq_true ht) ?_, fun hq => ?_⟩
    · exact encodeBlock_coming (s := s.begin_) hf hq
    · have hc : exec (.kvBlockEncode tile) s = run (fun s => s.encodeBlock tile) s := runUnit_next _ _ s (decide_eq_true ht)
      obtain ⟨hst, hjq, hreqs⟩ := writeBlock_kept s.begin_ r tables q
      have hsealed := writeBlock_sealed (s := s.begin_) (r := r) (tables := tables) (q := q)
      have hraw := writeBlock_uncoded (s := s.begin_) (r := r) (tables := tables) (q := q)
      have hlong := @writeBlock_tooLong s.begin_ r tables q
      have hfits := @writeBlock_fits s.begin_ r tables q
      generalize hw : s.begin_.writeBlock r tables q = w at *
      refine exec_to (fun s => s.encodeBlock tile) hc (encodeBlock_written (s := s.begin_) hf hq hw) ?_
      exact ⟨congrArg (markFirst mine) hreqs, hst, hjq, hsealed, hraw, fun c => hlong, fun c => hfits⟩
  · intro this n flag hany
    exact does_run _ rfl (if_pos hany)

/-! ### The expanders (R317–R321) -/

section

variable {s : State}

theorem ofNat_bitsAt {n : Nat} (x : BitVec n) (lo w : Nat) : BitVec.ofNat w (bitsAt x.toNat lo w) = x.extractLsb' lo w := by
  apply BitVec.eq_of_toNat_eq
  simp [bitsAt, Nat.shiftRight_eq_div_pow]

/-- A word that is not a swap's last one. -/
theorem xtWrite_more {a : Nat} {w : W32} {rest : List (Nat × W32)} (h : s.jc.xtDue = (a, w) :: rest) (hr : rest ≠ []) :
    s.xtWrite = { s.emit (.xt (BitVec.ofNat 12 a) w) with
      jc := { s.jc with xeWords := tabSet a w s.jc.xeWords, xtDue := rest } } := by
  unfold State.xtWrite
  rw [h]
  exact if_pos (by cases rest <;> simp_all)

/-- The state of a swap's last word, before STAGED. -/
def State.xtLoaded (s : State) (a : Nat) (w : W32) : State :=
  let u := { s.emit (.xt (BitVec.ofNat 12 a) w) with jc := { s.jc with xeWords := tabSet a w s.jc.xeWords, xtDue := [] } }
  if u.jc.xeLoaded then u else { u with jc := { u.jc with xeLoaded := true, xeCur := u.xeStaged, xePrev := u.xeStaged } }

theorem xtWrite_last {a : Nat} {w : W32} (h : s.jc.xtDue = [(a, w)]) :
    s.xtWrite = if s.live.staged.isSome
      then { s.xtLoaded a w with jg := { s.jg with epoch := { s.jg.epoch with staged := true } } } else s.xtLoaded a w := by
  have hk : (s.xtLoaded a w).live = s.live ∧ (s.xtLoaded a w).jg = s.jg := by
    unfold State.xtLoaded
    dsimp only
    split <;> exact ⟨rfl, rfl⟩
  unfold State.xtWrite
  rw [h]
  show (if (s.xtLoaded a w).live.staged.isSome then { s.xtLoaded a w with jg := { (s.xtLoaded a w).jg with
    epoch := { (s.xtLoaded a w).jg.epoch with staged := true } } } else s.xtLoaded a w) = _
  rw [hk.1, hk.2]

theorem xtLoaded_effect (s : State) (a : Nat) (w : W32) :
    (s.xtLoaded a w).out = s.out ++ [.xt (BitVec.ofNat 12 a) w] ∧ (s.xtLoaded a w).jc.xtDue = [] ∧
      (s.xtLoaded a w).jc.xeWords = tabSet a w s.jc.xeWords ∧ (s.xtLoaded a w).jg = s.jg ∧
      (s.jc.xeLoaded = true → (s.xtLoaded a w).jc.xeCur = s.jc.xeCur ∧ (s.xtLoaded a w).jc.xePrev = s.jc.xePrev) ∧
      (s.jc.xeLoaded = false → (s.xtLoaded a w).jc.xeLoaded = true ∧ (s.xtLoaded a w).jc.xeCur = (s.xtLoaded a w).xeStaged ∧
        (s.xtLoaded a w).jc.xePrev = (s.xtLoaded a w).xeStaged) := by
  unfold State.xtLoaded
  dsimp only
  split
  next h => exact ⟨rfl, rfl, rfl, rfl, fun _ => ⟨rfl, rfl⟩, fun hn => absurd (h.symm.trans hn) Bool.noConfusion⟩
  next h => exact ⟨rfl, rfl, rfl, rfl, fun hn => absurd hn h, fun _ => ⟨rfl, rfl, rfl⟩⟩

/-- The first report of a bad pod is kept, every one is counted (R321). -/
theorem xrIn_effect (info : BitVec 64) :
    let t := s.xrIn info.toNat
    t.jc.badCount = stick s.jc.badCount 1 ∧ t.jc.badValid = true ∧ t.jq = s.jq ∧
      (s.jc.badValid = true → t.jc.badCause = s.jc.badCause ∧ t.jc.badRegion = s.jc.badRegion ∧ t.jc.badBlock = s.jc.badBlock ∧
        t.jc.badXe = s.jc.badXe) ∧
      (s.jc.badValid = false → t.jc.badCause = info.extractLsb' 0 3 ∧ t.jc.badRegion = info.extractLsb' 3 8 ∧
        t.jc.badBlock = info.extractLsb' 11 24 ∧ t.jc.badXe = info.extractLsb' 35 4) := by
  unfold State.xrIn
  dsimp only [State.event]
  split
  next h => exact ⟨rfl, h, rfl, fun _ => ⟨rfl, rfl, rfl, rfl⟩, fun hn => absurd (h.symm.trans hn) Bool.noConfusion⟩
  next h =>
    exact ⟨rfl, rfl, rfl, fun hn => absurd hn h, fun _ => ⟨ofNat_bitsAt .., ofNat_bitsAt .., ofNat_bitsAt .., ofNat_bitsAt ..⟩⟩

/-! ### A slot at an expander (R317–R319) -/

/-- The bytes of a slot that an expander takes. -/
def State.xeTakes (s : State) (region : Nat) (slot : List Byte) : List Byte :=
  slot.take (if (s.xeRegion region).isSealed then 4096 else slotBytes (s.xeRegion region).slot)

/-- The header of the slot. -/
def State.xeHeader (s : State) (region : Nat) (slot : List Byte) : Nat := natLE ((s.xeTakes region slot).take 16)

variable {xe region block : Nat} {slot : List Byte} {ready : Bool}

theorem expandSlot_sealed (hs : (s.xeRegion region).isSealed = true) :
    s.expandSlot xe region block slot ready = s.expand xe region block ready (.raw (s.xeTakes region slot)) :=
  if_pos hs

theorem expandSlot_badHeader (hs : (s.xeRegion region).isSealed = false)
    (hh : headerOk (s.xeRegion region) (s.xeHeader region slot) = false) :
    s.expandSlot xe region block slot ready = s.expand xe region block ready (.bad 1) :=
  (if_neg (ne_true_of_eq_false hs)).trans (if_pos (Bool.not_eq_true' _ |>.mpr hh))

/-- A slot with a good header goes by the tables of its epoch. -/
theorem expandSlot_goodHeader (hs : (s.xeRegion region).isSealed = false)
    (hh : headerOk (s.xeRegion region) (s.xeHeader region slot) = true) : s.expandSlot xe region block slot ready =
      match s.xeTables (BitVec.ofNat 2 (bitsAt (s.xeHeader region slot) 13 2)) with
      | none => s.expand xe region block ready (.bad 2)
      | some tables =>
        if bitAt (s.xeHeader region slot) 8 then
          { (s.emit (.fetch xe (BitVec.ofNat 48 ((s.xeRegion region).spillOf block / 64 * 64)) 0)).emit
              (.fetch xe (BitVec.ofNat 48 ((s.xeRegion region).homeOf block + slotBytes (s.xeRegion region).slot))
                (BitVec.ofNat 6 ((4096 - slotBytes (s.xeRegion region).slot) / 64 - 1))) with
            jc := { s.jc with xeWait := s.jc.xeWait ++ [⟨xe, region, block, s.xeTakes region slot⟩] } }
        else
          match tabGet (bitsAt (s.xeHeader region slot) 11 2) tables with
          | none => s.expand xe region block ready (.bad 3)
          | some t => s.expand xe region block ready
              (decodePod t (s.xeRegion region).fmt (slotBytes (s.xeRegion region).slot) (s.xeTakes region slot)) := by
  refine (if_neg (ne_true_of_eq_false hs)).trans ((if_neg ?_).trans rfl)
  rw [Bool.not_eq_true', Bool.not_eq_false]
  exact hh

theorem expandSlot_unknownEpoch (hs : (s.xeRegion region).isSealed = false)
    (hh : headerOk (s.xeRegion region) (s.xeHeader region slot) = true)
    (ht : s.xeTables (BitVec.ofNat 2 (bitsAt (s.xeHeader region slot) 13 2)) = none) :
    s.expandSlot xe region block slot ready = s.expand xe region block ready (.bad 2) := by
  rw [expandSlot_goodHeader hs hh, ht]

theorem expandSlot_raw {tables : List (Nat × PrefixTable)} (hs : (s.xeRegion region).isSealed = false)
    (hh : headerOk (s.xeRegion region) (s.xeHeader region slot) = true)
    (ht : s.xeTables (BitVec.ofNat 2 (bitsAt (s.xeHeader region slot) 13 2)) = some tables)
    (hr : bitAt (s.xeHeader region slot) 8 = true) : s.expandSlot xe region block slot ready =
      { (s.emit (.fetch xe (BitVec.ofNat 48 ((s.xeRegion region).spillOf block / 64 * 64)) 0)).emit
          (.fetch xe (BitVec.ofNat 48 ((s.xeRegion region).homeOf block + slotBytes (s.xeRegion region).slot))
            (BitVec.ofNat 6 ((4096 - slotBytes (s.xeRegion region).slot) / 64 - 1))) with
        jc := { s.jc with xeWait := s.jc.xeWait ++ [⟨xe, region, block, s.xeTakes region slot⟩] } } := by
  rw [expandSlot_goodHeader hs hh, ht]
  exact if_pos hr

theorem expandSlot_noTable {tables : List (Nat × PrefixTable)} (hs : (s.xeRegion region).isSealed = false)
    (hh : headerOk (s.xeRegion region) (s.xeHeader region slot) = true)
    (ht : s.xeTables (BitVec.ofNat 2 (bitsAt (s.xeHeader region slot) 13 2)) = some tables)
    (hr : bitAt (s.xeHeader region slot) 8 = false) (hn : tabGet (bitsAt (s.xeHeader region slot) 11 2) tables = none) :
    s.expandSlot xe region block slot ready = s.expand xe region block ready (.bad 3) := by
  rw [expandSlot_goodHeader hs hh, ht]
  exact (if_neg (ne_true_of_eq_false hr)).trans (by rw [hn])

theorem expandSlot_decodes {tables : List (Nat × PrefixTable)} {t : PrefixTable} (hs : (s.xeRegion region).isSealed = false)
    (hh : headerOk (s.xeRegion region) (s.xeHeader region slot) = true)
    (ht : s.xeTables (BitVec.ofNat 2 (bitsAt (s.xeHeader region slot) 13 2)) = some tables)
    (hr : bitAt (s.xeHeader region slot) 8 = false) (hn : tabGet (bitsAt (s.xeHeader region slot) 11 2) tables = some t) :
    s.expandSlot xe region block slot ready = s.expand xe region block ready
      (decodePod t (s.xeRegion region).fmt (slotBytes (s.xeRegion region).slot) (s.xeTakes region slot)) := by
  rw [expandSlot_goodHeader hs hh, ht]
  exact (if_neg (ne_true_of_eq_false hr)).trans (by rw [hn])

theorem fetchDone_waited {w : XeWait} {line rest : List Byte} {status : BitVec 2}
    (hw : (s.jc.xeWait.find? fun w => w.xe == xe) = some w) : s.fetchDone xe line rest status ready =
      State.expand { s with jc := { s.jc with xeWait := dropWait xe s.jc.xeWait } } xe w.region w.block ready
        (if status ≠ 0 then .bad 5
         else if crc32c (joinRaw (s.xeRegion w.region) w.block w.slot line rest) =
             BitVec.ofNat 32 (bitsAt (natLE (w.slot.take 16)) 96 32) then
           .raw (joinRaw (s.xeRegion w.region) w.block w.slot line rest)
         else .bad 4) := by
  unfold State.fetchDone
  rw [hw]
  rfl

end

/-- Settles O46. -/
theorem expandersAreConfiguredAndRead : Obligations.ExpandersAreConfiguredAndRead := by
  refine ⟨⟨fun s a w rest hd => ?_, fun s hne => ?_, fun s info he => ?_⟩, fun s xe region block slot => ?_, fun s xe line rest status w => ?_⟩
  · cases rest with
    | nil =>
      obtain ⟨hout, hdue, hwords, hjg, hkeep, hload⟩ := xtLoaded_effect s.begin_ a w
      generalize hu : s.begin_.xtLoaded a w = u at *
      cases hl : s.live.staged.isSome with
      | true =>
        refine exec_to (u := { u with jg := { s.jg with epoch := { s.jg.epoch with staged := true } } }) State.xtWrite rfl
          ((xtWrite_last (s := s.begin_) hd).trans ((if_pos hl).trans (by rw [hu]; rfl))) ?_
        exact ⟨hout, hdue, hwords, fun h => absurd rfl h, fun _ => ⟨(Bool.or_true _).symm, rfl, hkeep, hload⟩⟩
      | false =>
        refine exec_to (u := u) State.xtWrite rfl
          ((xtWrite_last (s := s.begin_) hd).trans ((if_neg (ne_true_of_eq_false hl)).trans hu)) ?_
        exact ⟨hout, hdue, hwords, fun h => absurd rfl h, fun _ => ⟨(congrArg (fun g : JgBlock => g.epoch.staged) hjg).trans
          (Bool.or_false _).symm, (congrArg (fun g : JgBlock => g.epoch.current) hjg :), hkeep, hload⟩⟩
    | cons p l =>
      exact exec_to State.xtWrite rfl (xtWrite_more (s := s.begin_) hd (List.cons_ne_nil p l))
        ⟨rfl, rfl, rfl, fun _ => ⟨rfl, rfl, rfl⟩, fun h => absurd h (List.cons_ne_nil p l)⟩
  · exact does_run _ rfl (if_neg hne)
  · obtain ⟨hcount, hvalid, hjq, hkeep, hnew⟩ := xrIn_effect (s := s.begin_) info
    refine exec_to (fun s => s.xrIn info.toNat) rfl rfl ⟨hcount, hvalid, ?_, hjq, hkeep, hnew⟩
    exact newest_code_of_one (u := s.begin_.xrIn info.toNat) (r := s.begin_.js.ring) (evq_of_eventsIn he) rfl
  · intro x r n b h does bad
    refine ⟨fun hs => ?_, fun hs hh => ?_, fun hs hh ht => ?_, fun tables hs hh ht => ⟨fun hraw => ?_, fun hraw hn => ?_, fun t hraw hsome => ?_⟩⟩
    · exact does_run (fun s => s.expandSlot x region.toNat block.toNat slot xe.errReady) rfl (expandSlot_sealed (s := s.begin_) hs)
    · exact does_run (fun s => s.expandSlot x region.toNat block.toNat slot xe.errReady) rfl (expandSlot_badHeader (s := s.begin_) hs hh)
    · exact does_run (fun s => s.expandSlot x region.toNat block.toNat slot xe.errReady) rfl
        (expandSlot_unknownEpoch (s := s.begin_) hs hh ht)
    · exact does_run (fun s => s.expandSlot x region.toNat block.toNat slot xe.errReady) rfl
        (expandSlot_raw (s := s.begin_) hs hh ht hraw)
    · exact does_run (fun s => s.expandSlot x region.toNat block.toNat slot xe.errReady) rfl
        (expandSlot_noTable (s := s.begin_) hs hh ht hraw hn)
    · exact does_run (fun s => s.expandSlot x region.toNat block.toNat slot xe.errReady) rfl
        (expandSlot_decodes (s := s.begin_) hs hh ht hraw hsome)
  · intro x hf raw gone does
    refine ⟨fun hst hcrc => ?_, fun hst hcrc => ?_, fun hst => ?_⟩
    · exact does_run (fun s => s.fetchDone x line rest status xe.errReady) rfl ((fetchDone_waited (s := s.begin_) hf).trans
        (congrArg (State.expand _ _ _ _ _) ((if_neg (not_not.mpr hst)).trans (if_pos hcrc))))
    · exact does_run (fun s => s.fetchDone x line rest status xe.errReady) rfl ((fetchDone_waited (s := s.begin_) hf).trans
        (congrArg (State.expand _ _ _ _ _) ((if_neg (not_not.mpr hst)).trans (if_neg hcrc))))
    · exact does_run (fun s => s.fetchDone x line rest status xe.errReady) rfl ((fetchDone_waited (s := s.begin_) hf).trans
        (congrArg (State.expand _ _ _ _ _) (if_pos hst)))

end Sys2Proof.Machine
end

section
/-!
Scale-out RDMA (spec/10_scale_out_rdma.md R266–R285): the queues, what their own sending keeps, and the Ethernet ports.
-/

namespace Sys2Proof.Machine

/-! ### Queues by their number -/

theorem find?_insertBy_none {α : Type} {lt : α → α → Bool} {p : α → Bool} {a : α} {l : List α} (ha : p a = false) :
    (insertBy lt a l).find? p = l.find? p := by
  induction l with
  | nil => simp [insertBy, ha]
  | cons b l ih =>
    rw [insertBy]
    split
    · rw [List.find?_cons_of_neg (ne_true_of_eq_false ha)]
    · rw [List.find?_cons, List.find?_cons, ih]

theorem find?_insertBy_only {α : Type} {lt : α → α → Bool} {p : α → Bool} {a : α} {l : List α} (ha : p a = true)
    (hl : ∀ b ∈ l, p b = false) : (insertBy lt a l).find? p = some a := by
  induction l with
  | nil => simp [insertBy, ha]
  | cons b l ih =>
    rw [insertBy]
    split
    · rw [List.find?_cons_of_pos ha]
    · rw [List.find?_cons_of_neg (ne_true_of_eq_false (hl b List.mem_cons_self)), ih fun c hc => hl c (List.mem_cons_of_mem _ hc)]

theorem find?_filter_of_imp {α : Type} {p r : α → Bool} (h : ∀ a, p a = true → r a = true) (l : List α) :
    (l.filter r).find? p = l.find? p := by
  rw [List.find?_filter]
  refine congrArg (fun f => l.find? f) (funext fun a => ?_)
  cases hp : p a with
  | false => simp
  | true => simp [h a hp]

section

variable {s t : State} {n : Nat} {q : Queue}

theorem queue_setQueue_same (s : State) (q : Queue) : (s.setQueue q).queue q.num = some q :=
  find?_insertBy_only (beq_self_eq_true _) fun b hb => by simpa using (List.mem_filter.mp hb).2

theorem queue_setQueue_ne (h : n ≠ q.num) : (s.setQueue q).queue n = s.queue n :=
  (find?_insertBy_none (p := fun x : Queue => x.num == n) (beq_eq_false_iff_ne.mpr (Ne.symm h))).trans
    (find?_filter_of_imp (r := fun x : Queue => x.num != q.num) (fun a ha => by simp_all) _)

theorem num_of_queue (h : s.queue n = some q) : q.num = n := by simpa using List.find?_some h

theorem queue_of_queues (h : t.je.queues = s.je.queues) (n : Nat) : t.queue n = s.queue n :=
  congrArg (fun l : List Queue => l.find? fun x : Queue => x.num == n) h

end

/-! ### What completions and packets leave alone of the Ethernet block -/

/-- An Ethernet port without the packets that it holds. -/
def EthPort.gate (p : EthPort) : EthPort := { p with txHeld := [] }

/-- The Ethernet block without held packets and exports. -/
def State.jeView (s : State) : JeBlock := { s.je with ports := s.je.ports.map EthPort.gate, exports := [] }

theorem jeView_of_noPorts {s t : State} (h : t.noPorts = s.noPorts) : t.jeView = s.jeView :=
  (congrArg State.jeView h :)

theorem jeView_ite {c : Prop} [Decidable c] {a b s : State} (ha : a.jeView = s.jeView) (hb : b.jeView = s.jeView) :
    (if c then a else b).jeView = s.jeView := by
  split
  · exact ha
  · exact hb

section

variable (s : State)

theorem setEth_jeView (n : Nat) {f : EthPort → EthPort} (hf : ∀ p, (f p).gate = p.gate) : (s.setEth n f).jeView = s.jeView :=
  congrArg (fun l => ({ s.je with ports := l, exports := [] } : JeBlock)) (map_modifyNth_of_eq hf n s.je.ports)

theorem hostWrite_jeView (unit a : Nat) (b : List Byte) : (s.hostWrite unit a b).jeView = s.jeView :=
  (jeView_of_noPorts (hostWrite_noPorts ..)).trans rfl

theorem portRead_jeView (unit chan : Nat) (sp : Bool) (a n : Nat) : (s.portRead unit chan sp a n).jeView = s.jeView :=
  jeView_of_noPorts (portRead_noPorts ..)

theorem emitRoce_jeView (q : Queue) (pkt : RoceOut) : (s.emitRoce q pkt).jeView = s.jeView := by
  unfold State.emitRoce
  exact jeView_ite rfl (setEth_jeView _ _ fun _ => rfl)

theorem dropTx_jeView (num : Nat) : (s.dropTx num).jeView = s.jeView :=
  congrArg (fun l => ({ s.je with ports := l, exports := [] } : JeBlock)) ((List.map_map ..).trans rfl)

theorem exportEnds_jeView (q result : Nat) : (s.exportEnds q result).jeView = s.jeView := by
  unfold State.exportEnds
  exact jeView_ite (jeView_ite rfl rfl) rfl

theorem completeEntry_jeView (q : Queue) (e : SqEntry) (status : Nat) : (s.completeEntry q e status).1.jeView = s.jeView := by
  unfold State.completeEntry
  extract_lets q' u
  have hu : u.jeView = s.jeView := jeView_ite (exportEnds_jeView ..) rfl
  clear_value u
  split
  · exact (hostWrite_jeView ..).trans hu
  · exact hu

theorem flushRing_jeView (n : Nat) (x : State × Queue) : (State.flushRing n x).1.jeView = x.1.jeView := by
  induction n generalizing x with
  | zero => rfl
  | succ n ih =>
    rw [State.flushRing]
    split
    · rfl
    · exact (ih _).trans (completeEntry_jeView ..)

theorem flushOps_jeView (l : List SqOp) (status : Nat) (x : State × Queue) :
    (State.flushOps l status x).1.jeView = x.1.jeView := by
  induction l generalizing status x with
  | nil => rfl
  | cons o l ih =>
    rw [State.flushOps]
    exact (ih ..).trans (completeEntry_jeView ..)

theorem emitRequest_jeView (q : Queue) (o : SqOp) (i : Nat) : (s.emitRequest q o i).jeView = s.jeView := by
  unfold State.emitRequest
  extract_lets e n payload u
  have hu : u.jeView = s.jeView := jeView_ite rfl (portRead_jeView ..)
  exact (emitRoce_jeView ..).trans hu

end

theorem queue_of_jeView {s t : State} (h : t.jeView = s.jeView) (n : Nat) : t.queue n = s.queue n :=
  queue_of_queues (congrArg JeBlock.queues h :) n

/-! ### What flushing leaves alone of a queue -/

/-- A queue without what sending and completing change. -/
def Queue.base (q : Queue) : Queue :=
  { q with state := 0, ops := [], sqCi := 0, cqCount := 0, posted := [], nextPsn := 0, completions := 0, rnrWait := false,
           stalled := false }

/-- A queue with one more entry complete (R272, R273). -/
def Queue.completed (q : Queue) (e : SqEntry) : Queue :=
  { q with completions := q.completions + 1, cqCount := if e.signal then q.cqCount + 1 else q.cqCount }

theorem completeEntry_queue (s : State) (q : Queue) (e : SqEntry) (status : Nat) :
    (s.completeEntry q e status).2 = q.completed e := by
  unfold State.completeEntry Queue.completed
  extract_lets q' u
  split <;> rfl

theorem completeEntry_base (s : State) (q : Queue) (e : SqEntry) (status : Nat) :
    (s.completeEntry q e status).2.base = q.base :=
  (congrArg Queue.base (completeEntry_queue s q e status)).trans rfl

theorem takeHead_base (q : Queue) : q.takeHead.base = q.base := by
  unfold Queue.takeHead
  split <;> rfl

theorem flushRing_base (n : Nat) (x : State × Queue) : (State.flushRing n x).2.base = x.2.base := by
  induction n generalizing x with
  | zero => rfl
  | succ n ih =>
    rw [State.flushRing]
    split
    · rfl
    · exact (ih _).trans ((completeEntry_base ..).trans (takeHead_base _))

theorem flushOps_base (l : List SqOp) (status : Nat) (x : State × Queue) : (State.flushOps l status x).2.base = x.2.base := by
  induction l generalizing status x with
  | nil => rfl
  | cons o l ih =>
    rw [State.flushOps]
    exact (ih ..).trans (completeEntry_base ..)

/-- What retiring leaves of a queue. -/
theorem retireOps_base (n : Nat) (x : State × Queue) : (State.retireOps n x).2.base = x.2.base ∧
    (State.retireOps n x).2.posted = x.2.posted ∧ (State.retireOps n x).2.sqCi = x.2.sqCi ∧
    (State.retireOps n x).2.state = x.2.state := by
  induction n generalizing x with
  | zero => exact ⟨rfl, rfl, rfl, rfl⟩
  | succ n ih =>
    rw [State.retireOps]
    split
    next o rest ho =>
      split
      · obtain ⟨hb, hp, hc, hs⟩ := ih (x.1.completeEntry { x.2 with ops := rest } o.entry 0)
        have hq := completeEntry_queue x.1 { x.2 with ops := rest } o.entry 0
        exact ⟨hb.trans ((congrArg Queue.base hq).trans rfl), hp.trans ((congrArg Queue.posted hq).trans rfl),
          hc.trans ((congrArg Queue.sqCi hq).trans rfl), hs.trans ((congrArg Queue.state hq).trans rfl)⟩
      · exact ⟨rfl, rfl, rfl, rfl⟩
    · exact ⟨rfl, rfl, rfl, rfl⟩

/-- A queue that has failed (R275, R285). -/
def Queue.failed (q : Queue) : Queue := { q with state := 2, ops := [], rnrWait := false, stalled := false }

/-- The Ethernet block with a queue's error latched, and the queue's parked packets gone (R275, R277, R285). -/
def JeBlock.latched (j : JeBlock) (num cause : Nat) : JeBlock :=
  { j with errQueue := BitVec.ofNat 16 num, errCause := BitVec.ofNat 3 cause, errValid := true, errCount := stick j.errCount 1,
           parked := j.parked.filter fun p => p.queue != num }

theorem setQueue_jeView {s t : State} (h : t.jeView = s.jeView) (q : Queue) : (t.setQueue q).jeView = (s.setQueue q).jeView :=
  let rest := fun l : List Queue => l.filter fun x => x.num != q.num
  congrArg (fun j : JeBlock => { j with queues := insertBy (fun a b => decide (a.num < b.num)) q (rest j.queues) }) h

/-- ERROR: the queue has failed with its ring flushed; the error is latched. -/
theorem queueError_effect (s : State) (q : Queue) (cause status : Nat) : ∃ f : Queue, f.base = q.base ∧
    (s.queueError q cause status).jeView = (s.setQueue f.failed).jeView.latched q.num cause := by
  unfold State.queueError
  extract_lets y wr psn src u v w
  have hy : y.1.jeView = s.jeView := (flushRing_jeView ..).trans (flushOps_jeView ..)
  have hb : y.2.base = q.base := (flushRing_base ..).trans (flushOps_base ..)
  have hu : u.jeView = (s.setQueue y.2.failed).jeView := (dropTx_jeView ..).trans (setQueue_jeView hy _)
  have hv : v.jeView = (s.setQueue y.2.failed).jeView := (exportEnds_jeView ..).trans hu
  clear_value v
  exact ⟨y.2, hb, (congrArg (fun j : JeBlock => j.latched q.num cause) hv :)⟩

theorem queueError_queue (s : State) (q : Queue) (cause status : Nat) : ∃ f : Queue, f.base = q.base ∧
    (s.queueError q cause status).queue q.num = some f.failed ∧
    ∀ n, n ≠ q.num → (s.queueError q cause status).queue n = s.queue n := by
  obtain ⟨f, hb, hj⟩ := queueError_effect s q cause status
  have hq : (s.queueError q cause status).je.queues = (s.setQueue f.failed).je.queues := (congrArg JeBlock.queues hj :)
  have hn : f.failed.num = q.num := (congrArg Queue.num hb :)
  refine ⟨f, hb, (queue_of_queues hq _).trans ?_, fun n h => (queue_of_queues hq _).trans (queue_setQueue_ne (hn ▸ h))⟩
  rw [← hn]
  exact queue_setQueue_same ..

theorem queueError_errValid (s : State) (q : Queue) (cause status : Nat) : (s.queueError q cause status).je.errValid = true := by
  obtain ⟨f, -, hj⟩ := queueError_effect s q cause status
  exact (congrArg JeBlock.errValid hj :)

/-! ### What the requester's own sending leaves alone (R273, R276, R279, R280) -/

/-- A queue whose next entry is taken into flight, or is being failed. -/
def Queue.took (q : Queue) (e : SqEntry) : Queue :=
  { q.takeHead with ops := q.ops ++ [q.opOf e], nextPsn := q.nextPsn + BitVec.ofNat 24 (q.packetsOf e) }

/-- A queue whose operation n has sent one more packet. -/
def Queue.sent (q : Queue) (n : Nat) : Queue :=
  { q with ops := modifyNth (fun x => { x with sent := x.sent + 1, started := true }) n q.ops }

/-- A queue whose next entry is not one of R272. -/
def Queue.spoilt (q : Queue) (e : SqEntry) : Queue := { q.takeHead with ops := [q.opOf e] }

/-- What each kind of sending keeps, a run of them keeps. -/
theorem kickN_keeps {P : State → Prop} {num : Nat}
    (htake : ∀ s q e, P s → s.queue num = some q → s.nextSq q = .take e → P (s.setQueue (q.took e)))
    (hsend : ∀ s q n o, P s → s.queue num = some q → s.nextSq q = .send n o → P ((s.emitRequest q o o.sent).setQueue (q.sent n)))
    (hbad : ∀ s q e, P s → s.queue num = some q → s.nextSq q = .bad e → P (s.queueError (q.spoilt e) 5 5)) (k : Nat) (s : State)
    (h : P s) : P (State.kickN k num s) := by
  induction k generalizing s with
  | zero => exact h
  | succ k ih =>
    rw [State.kickN]
    split
    · exact h
    next q hq =>
      split
      · exact h
      next e he => exact ih _ (htake s q e h hq he)
      next n o he => exact ih _ (hsend s q n o h hq he)
      next e he => exact hbad s q e h hq he

theorem kickAll_keeps {P : State → Prop} (h : ∀ s num, P s → P (s.kick num)) {s : State} (hs : P s) : P s.kickAll := by
  have hround : ∀ (l : List Queue) (s : State), P s → P (l.foldl (fun s q => s.kick q.num) s) := by
    intro l
    induction l with
    | nil => exact fun _ hs => hs
    | cons q l ih => exact fun s hs => ih _ (h s q.num hs)
  have hrounds : ∀ (k : Nat) (s : State), P s → P (State.kickRounds k s) := by
    intro k
    induction k with
    | zero => exact fun _ hs => hs
    | succ k ih => exact fun s hs => ih _ (hround _ s hs)
  exact hrounds _ s hs

/-- A property of a queue that each kind of sending keeps. -/
structure Queue.Lasts (R : Queue → Prop) : Prop where
  took : ∀ (s : State) (q : Queue) (e : SqEntry), R q → s.nextSq q = .take e → R (q.took e)
  sent : ∀ (s : State) (q : Queue) (n : Nat) (o : SqOp), R q → s.nextSq q = .send n o → R (q.sent n)
  spoilt : ∀ (s : State) (q : Queue) (e : SqEntry) (f : Queue), R q → s.nextSq q = .bad e → f.base = q.base → R f.failed

theorem spoilt_base (q : Queue) (e : SqEntry) : (q.spoilt e).base = q.base := Eq.trans rfl (takeHead_base q)
theorem took_base (q : Queue) (e : SqEntry) : (q.took e).base = q.base := Eq.trans rfl (takeHead_base q)

theorem kick_queue {R : Queue → Prop} (hR : Queue.Lasts R) {n : Nat} (s : State) (num : Nat) (h : ∃ q, s.queue n = some q ∧ R q) :
    ∃ q, (s.kick num).queue n = some q ∧ R q := by
  refine kickN_keeps (P := fun s => ∃ q, s.queue n = some q ∧ R q) ?_ ?_ ?_ _ s h
  · rintro s q e ⟨x, hx, hr⟩ hq he
    by_cases hn : n = (q.took e).num
    · have hnum : num = n := ((num_of_queue hq).symm.trans (congrArg Queue.num (took_base q e) :).symm).trans hn.symm
      subst hnum
      obtain rfl := Option.some.inj (hx.symm.trans hq)
      exact ⟨_, hn ▸ queue_setQueue_same .., hR.took s x e hr he⟩
    · exact ⟨x, (queue_setQueue_ne hn).trans hx, hr⟩
  · rintro s q k o ⟨x, hx, hr⟩ hq he
    have hv := queue_of_jeView (emitRequest_jeView s q o o.sent)
    by_cases hn : n = (q.sent k).num
    · have hnum : num = n := (num_of_queue hq).symm.trans hn.symm
      subst hnum
      obtain rfl := Option.some.inj (hx.symm.trans hq)
      exact ⟨_, hn ▸ queue_setQueue_same .., hR.sent s x k o hr he⟩
    · exact ⟨x, (queue_setQueue_ne hn).trans ((hv n).trans hx), hr⟩
  · rintro s q e ⟨x, hx, hr⟩ hq he
    obtain ⟨f, hb, hsame, hother⟩ := queueError_queue s (q.spoilt e) 5 5
    have hb' := hb.trans (spoilt_base q e)
    by_cases hn : n = (q.spoilt e).num
    · have hnum : num = n := ((num_of_queue hq).symm.trans (congrArg Queue.num (spoilt_base q e) :).symm).trans hn.symm
      subst hnum
      obtain rfl := Option.some.inj (hx.symm.trans hq)
      exact ⟨_, hn ▸ hsame, hR.spoilt s x e f hr he hb'⟩
    · exact ⟨x, (hother n hn).trans hx, hr⟩

theorem kickAll_queue {R : Queue → Prop} (hR : Queue.Lasts R) {s : State} {n : Nat} (h : ∃ q, s.queue n = some q ∧ R q) :
    ∃ q, s.kickAll.queue n = some q ∧ R q :=
  kickAll_keeps (P := fun s => ∃ q, s.queue n = some q ∧ R q) (fun s num h => kick_queue hR s num h) h

theorem lasts_base (b : Queue) : Queue.Lasts (fun q => q.base = b) where
  took _ q e h _ := (took_base q e).trans h
  sent _ _ _ _ h _ := h
  spoilt _ _ _ _ h _ hf := Eq.trans rfl (hf.trans h)

/-- A queue that sends nothing of its own: it is not in RTS, waits for its timer, or has nothing left to send. -/
def Queue.Still (q : Queue) : Prop :=
  q.state ≠ 1 ∨ q.rnrWait = true ∨ ((∀ o ∈ q.ops, o.packets ≤ o.sent) ∧ q.posted = [] ∧ q.sqCi = q.sqPi)

theorem headEntry_empty (s : State) {q : Queue} (hp : q.posted = []) (hc : q.sqCi = q.sqPi) : s.headEntry q = none := by
  unfold State.headEntry
  rw [hp]
  exact if_pos hc

theorem nextSq_still (s : State) {q : Queue} (h : q.Still) : s.nextSq q = .wait := by
  unfold State.nextSq
  rcases h with h | h | ⟨ho, hp, hc⟩
  · exact if_pos (.inl h)
  · exact if_pos (.inr (.inl h))
  · have hf : q.ops.findIdx? (fun o => decide (o.sent < o.packets)) = none := by
      simpa [List.findIdx?_eq_none_iff] using ho
    split
    · rfl
    · rw [hf, headEntry_empty s hp hc]

theorem lasts_still {q : Queue} (h : q.Still) : Queue.Lasts (fun x => x = q) where
  took s x e hx he := by
    subst hx
    rw [nextSq_still s h] at he
    cases he
  sent s x n o hx he := by
    subst hx
    rw [nextSq_still s h] at he
    cases he
  spoilt s x e f hx he := by
    subst hx
    rw [nextSq_still s h] at he
    cases he

/-- What a queue whose ring is empty sends next, if anything, is of its operations. -/
theorem nextSq_ringEmpty (s : State) {q : Queue} (hp : q.posted = []) (hc : q.sqCi = q.sqPi) :
    s.nextSq q = .wait ∨ ∃ n o, s.nextSq q = .send n o := by
  unfold State.nextSq
  rw [headEntry_empty s hp hc]
  split
  · exact .inl rfl
  split
  · split
    · split
      · exact .inr ⟨_, _, rfl⟩
      · exact .inl rfl
    · exact .inl rfl
  · exact .inl rfl

theorem lasts_ringEmpty {q : Queue} (hp : q.posted = []) (hc : q.sqCi = q.sqPi) :
    Queue.Lasts (fun x => ∃ ops, x = { q with ops := ops }) where
  took s x e hx he := by
    obtain ⟨ops, rfl⟩ := hx
    rcases nextSq_ringEmpty s (q := { q with ops := ops }) hp hc with h | ⟨n, o, h⟩ <;> rw [h] at he <;> cases he
  sent s x n o hx he := by
    obtain ⟨ops, rfl⟩ := hx
    exact ⟨_, rfl⟩
  spoilt s x e f hx he := by
    obtain ⟨ops, rfl⟩ := hx
    rcases nextSq_ringEmpty s (q := { q with ops := ops }) hp hc with h | ⟨n, o, h⟩ <;> rw [h] at he <;> cases he

/-- A queue with operations never finds a bad entry next. -/
theorem nextSq_notBad (s : State) {q : Queue} (e : SqEntry) (h : q.ops ≠ []) : s.nextSq q ≠ .bad e := by
  unfold State.nextSq
  split
  · exact SqNext.noConfusion
  split
  · split
    · split <;> exact SqNext.noConfusion
    · exact SqNext.noConfusion
  · split
    · exact SqNext.noConfusion
    · rw [List.isEmpty_eq_false_iff.mpr h, if_neg Bool.false_ne_true]
      split
      · exact SqNext.noConfusion
      · split <;> exact SqNext.noConfusion

/-- The oldest operation stays the oldest, with what has come of it. -/
theorem lasts_head (got acked : Nat) : Queue.Lasts (fun q => ∃ o, q.ops.head? = some o ∧ o.got = got ∧ o.acked = acked) where
  took s q e := by
    rintro ⟨o, ho, hg, ha⟩ -
    exact ⟨o, by simp [Queue.took, ho], hg, ha⟩
  sent s q n o := by
    rintro ⟨o', ho, hg, ha⟩ -
    cases hops : q.ops with
    | nil => simp [hops] at ho
    | cons x l =>
      rw [hops] at ho
      obtain rfl := Option.some.inj ho
      cases n with
      | zero => exact ⟨{ x with sent := x.sent + 1, started := true }, by simp [Queue.sent, hops, modifyNth], hg, ha⟩
      | succ n => exact ⟨x, by simp [Queue.sent, hops, modifyNth], hg, ha⟩
  spoilt s q e f := by
    rintro ⟨o, ho, -⟩ he
    exact absurd he (nextSq_notBad s e fun hn => by simp [hn] at ho)

theorem lasts_noRnr : Queue.Lasts (fun q => q.rnrWait = false) where
  took _ q e h _ := by
    unfold Queue.took Queue.takeHead
    split <;> exact h
  sent _ _ _ _ h _ := h
  spoilt _ _ _ _ _ _ _ := rfl

/-! ### The ports, and a block whose queues are still -/

theorem kickAll_errValid {s : State} (h : s.je.errValid = true) : s.kickAll.je.errValid = true := by
  refine kickAll_keeps (P := fun s => s.je.errValid = true) (fun s num hs => ?_) h
  refine kickN_keeps (P := fun s => s.je.errValid = true) (fun s q e h _ _ => h) (fun s q n o h _ _ => ?_)
    (fun s q e _ _ _ => queueError_errValid ..) _ s hs
  exact (congrArg JeBlock.errValid (emitRequest_jeView s q o o.sent) :).trans h

/-- The Ethernet ports without the packets that they hold. -/
def State.gates (s : State) : List EthPort := s.je.ports.map EthPort.gate

theorem gates_of_jeView {s t : State} (h : t.jeView = s.jeView) : t.gates = s.gates := (congrArg JeBlock.ports h :)

theorem queueError_gates (s : State) (q : Queue) (cause status : Nat) : (s.queueError q cause status).gates = s.gates := by
  obtain ⟨f, -, hj⟩ := queueError_effect s q cause status
  exact (congrArg JeBlock.ports hj :)

theorem kickAll_gates (s : State) : s.kickAll.gates = s.gates := by
  refine kickAll_keeps (P := fun t => t.gates = s.gates) (fun t num ht => ?_) rfl
  exact kickN_keeps (P := fun t => t.gates = s.gates) (fun t q e h _ _ => h)
    (fun t q n o h _ _ => (gates_of_jeView (emitRequest_jeView t q o o.sent)).trans h)
    (fun t q e h _ _ => (queueError_gates ..).trans h) _ t ht

theorem eth_of_gates {s t : State} (h : t.gates = s.gates) (n : Nat) : (t.eth n).gate = (s.eth n).gate := by
  have hmap : ∀ u : State, (u.eth n).gate = u.gates.getD n EthPort.reset.gate := fun u => (List.getD_map ..).symm
  rw [hmap, hmap, h]

theorem kick_still {s : State} {num : Nat} (h : ∀ q, s.queue num = some q → q.Still) : s.kick num = s := by
  unfold State.kick
  rw [State.kickN]
  split
  · rfl
  next q hq => rw [nextSq_still s (h q hq)]

/-- A block whose queues are all still sends nothing. -/
theorem kickAll_still {s : State} (h : ∀ q ∈ s.je.queues, q.Still) : s.kickAll = s :=
  kickAll_keeps (P := fun t => t = s) (fun t num ht => by
    subst ht
    exact kick_still fun q hq => h q (List.mem_of_find?_eq_some hq)) rfl

theorem still_of_sendsIdle {s : State} (h : s.sendsIdle = true) : ∀ q ∈ s.je.queues, q.Still := fun q hq => by
  have hq' := List.all_eq_true.mp h q hq
  simp only [Bool.and_eq_true, List.isEmpty_iff, beq_iff_eq] at hq'
  exact .inr (.inr ⟨fun o ho => by simp [hq'.1.1] at ho, hq'.1.2, hq'.2⟩)

/-! ### Contexts and doorbells (R270–R272) -/

section

variable {s : State} {port : Mgmt} {v : W32}

/-- The queue number that a doorbell names. -/
def sqNum (v : W32) : Nat := v.toNat % 65536

theorem wrSqDb_loads (hl : s.listening = true) (h : v.getLsbD 16 = true) :
    s.wrSqDb port v = (s.loadCtx port (sqNum v)).kickAll := by
  unfold State.wrSqDb
  exact (guarded_of_listening port _ _ hl).trans (if_pos h)

theorem wrSqDb_posts {q : Queue} (hl : s.listening = true) (h : v.getLsbD 16 = false) (hn : sqNum v < 61440)
    (hq : s.queue (sqNum v) = some q) : s.wrSqDb port v =
      if v.getLsbD 17 then (s.setQueue { q with rqPi := s.je.pi }).ok port
      else
        let q := { q with sqPi := s.je.pi }
        if q.state = 2 then
          let y := State.flushRing 65536 (s, q)
          ((y.1.setQueue y.2).kickAll).ok port
        else ((s.setQueue q).kickAll).ok port := by
  unfold State.wrSqDb
  refine (guarded_of_listening port _ _ hl).trans ((if_neg (ne_true_of_eq_false h)).trans ((if_neg (Nat.not_le.mpr hn)).trans ?_))
  rw [show s.queue (v.toNat % 65536) = some q from hq]

/-- A queue number names its queue still when the queue itself has changed. -/
theorem queue_setQueue_of {n : Nat} {q : Queue} (h : q.num = n) (s : State) : (s.setQueue q).queue n = some q :=
  h ▸ queue_setQueue_same ..

/-- Is the queue in RTS (R270)? -/
def State.inRts (s : State) (num : Nat) : Bool :=
  match s.queue num with
  | some q => q.state == 1
  | none => false

/-- The entries that a queue has completed. -/
def State.countOf (s : State) (num : Nat) : W32 :=
  match s.queue num with
  | some q => q.completions
  | none => 0

/-- The context of a queue in host memory (R271). -/
def State.ctxOf (s : State) (num : Nat) : List Byte := memRead s.hostMem (s.img.rdma.ctxBase + 128 * num) 128

/-- The state of a queue whose context is read. -/
def State.ctxRead (s : State) (num : Nat) : State := s.portRead 0x30 0 false (s.img.rdma.ctxBase + 128 * num) 128

theorem ctxRead_noPorts (s : State) (num : Nat) : (s.ctxRead num).noPorts = s.noPorts := portRead_noPorts ..

/-- The state of a queue whose context has been loaded. -/
def State.ctxLoaded (s : State) (num st : Nat) (c : QpCtx) : State :=
  (((s.ctxRead num).setQueue (freshQueue num (BitVec.ofNat 2 st) c s.je.wInit.toNat (s.countOf num))).exportEnds num 6).dropTx num

theorem ctxLoaded_queue (s : State) (num st : Nat) (c : QpCtx) : (s.ctxLoaded num st c).queue num =
    some (freshQueue num (BitVec.ofNat 2 st) c s.je.wInit.toNat (s.countOf num)) := by
  unfold State.ctxLoaded
  exact (queue_of_jeView (dropTx_jeView ..) num).trans ((queue_of_jeView (exportEnds_jeView ..) num).trans (queue_setQueue_of rfl _))

theorem loadCtx_rejects {num : Nat} (h : s.inRts num = true) (hc : ctxNat (s.ctxOf num) 0 1 ≠ 0) :
    s.loadCtx port num = (s.ctxRead num).reject port 0x080000 := by
  have hq : s.inRts num = (s.ctxRead num).inRts num := (congrArg (fun u : State => u.inRts num) (ctxRead_noPorts s num) :).symm
  rw [hq] at h
  exact if_pos (Bool.and_eq_true_iff.mpr ⟨h, bne_iff_ne.mpr hc⟩)

theorem loadCtx_loads {num st : Nat} {c : QpCtx} (h : s.inRts num = false ∨ ctxNat (s.ctxOf num) 0 1 = 0)
    (hc : parseCtx (s.ctxOf num) = some (st, c)) : s.loadCtx port num =
(s.ctxLoaded num st c).ok port := by
  have hq : s.inRts num = (s.ctxRead num).inRts num := (congrArg (fun u : State => u.inRts num) (ctxRead_noPorts s num) :).symm
  have hn : s.countOf num = (s.ctxRead num).countOf num := (congrArg (fun u : State => u.countOf num) (ctxRead_noPorts s num) :).symm
  have hw : s.je.wInit = (s.ctxRead num).je.wInit := (congrArg (fun u : State => u.je.wInit) (ctxRead_noPorts s num) :).symm
  rw [hq] at h
  rw [State.ctxLoaded, hn, hw]
  refine (if_neg ?_).trans ?_
  · show ¬ ((s.ctxRead num).inRts num && ctxNat (s.ctxOf num) 0 1 != 0) = true
    rcases h with h | h <;> simp [h]
  · rw [show parseCtx (memRead s.hostMem (s.img.rdma.ctxBase + 128 * num) 128) = some (st, c) from hc]
    rfl

theorem kickAll_js (s : State) (port : Mgmt) : s.kickAll.response port = s.response port ∧ s.kickAll.js.rejCount = s.js.rejCount :=
  ⟨(congrArg (fun x : State × List Nat => x.1.response port) (kickAll_netView s) :),
    (congrArg (fun x : State × List Nat => x.1.js.rejCount) (kickAll_netView s) :)⟩

theorem fresh_still (num : Nat) (st : BitVec 2) (c : QpCtx) (w : Nat) (count : W32) : (freshQueue num st c w count).Still :=
  .inr (.inr ⟨fun _ ho => absurd ho List.not_mem_nil, rfl, rfl⟩)

/-- What a command does to the queues stands after the queues have been let go on. -/
theorem kickAll_of_still {num : Nat} {q : Queue} (hq : s.queue num = some q) (h : q.Still) : s.kickAll.queue num = some q := by
  obtain ⟨q', hq', rfl⟩ := kickAll_queue (lasts_still h) ⟨q, hq, rfl⟩
  exact hq'

end

/-- What a command leaves, with a value that goes with it. -/
theorem exec_to_with {α : Type} {c : Instr} {s u : State} {P : State → α → Prop} (g : State → State) (hc : exec c s = run g s)
    (hu : g s.begin_ = u) (h : ∃ a, P { u.finish with pending := s.pending } a) : ∃ t a, exec c s = .next t ∧ P t a := by
  obtain ⟨t, ht, a, ha⟩ := exec_to (P := fun t => ∃ a, P t a) g hc hu h
  exact ⟨t, a, ht, ha⟩

theorem queue_ok (t : State) (port : Mgmt) (n : Nat) : (t.ok port).queue n = t.queue n := by
  cases port <;> rfl

theorem response_of_ok (t : State) (port : Mgmt) : (t.ok port).response port = ⟨0, 0⟩ := by
  cases port <;> rfl

/-- A queue's producer index is posted, and the queues go on; a failed queue flushes what is posted (R272, R275). -/
def State.sqPosted (s : State) (q : Queue) : State :=
  if q.state = 2 then
    let y := State.flushRing 65536 (s, { q with sqPi := s.je.pi })
    (y.1.setQueue y.2).kickAll
  else (s.setQueue { q with sqPi := s.je.pi }).kickAll

theorem sqPosted_ok (s : State) (q : Queue) (port : Mgmt) :
    (let q := { q with sqPi := s.je.pi }
     if q.state = 2 then
       let y := State.flushRing 65536 (s, q)
       ((y.1.setQueue y.2).kickAll).ok port
     else ((s.setQueue q).kickAll).ok port) = (s.sqPosted q).ok port := by
  unfold State.sqPosted
  dsimp only
  split <;> rfl

theorem sqPosted_queue {s : State} {q : Queue} {n : Nat} (hn : q.num = n) :
    ∃ q', (s.sqPosted q).queue n = some q' ∧ q'.sqPi = s.je.pi := by
  have hlast : ∀ (t : State) (x : Queue), x.base = ({ q with sqPi := s.je.pi } : Queue).base →
      ∃ q', (t.setQueue x).kickAll.queue n = some q' ∧ q'.sqPi = s.je.pi := by
    intro t x hx
    obtain ⟨q', hq', hb⟩ := kickAll_queue (lasts_base x.base)
      ⟨x, queue_setQueue_of (q := x) ((congrArg Queue.num hx :).trans hn) t, rfl⟩
    exact ⟨q', hq', (congrArg Queue.sqPi (hb.trans hx) :)⟩
  unfold State.sqPosted
  split
  · exact hlast _ _ (flushRing_base ..)
  · exact hlast _ _ rfl

theorem reject_js (t : State) (port : Mgmt) (off : Nat) :
    (t.reject port off).response port = ⟨4, 0⟩ ∧ (t.reject port off).js.rejCount = stick t.js.rejCount 1 := by
  cases port <;> exact ⟨rfl, rfl⟩

/-- Settles O37. -/
theorem queuesAreLoadedAndPosted : Obligations.QueuesAreLoadedAndPosted := by
  intro s port v hl num b rts count
  have hlb : s.begin_.listening = true := hl
  refine ⟨fun st c h16 hr hc => ?_, fun h16 hr hc => ?_, fun q h16 h17 hn hq => ?_, fun q h16 h17 hn hq => ?_⟩
  · have hq := kickAll_of_still ((queue_ok _ port _).trans (ctxLoaded_queue s.begin_ num st c)) (fresh_still ..)
    have hresp := (kickAll_js ((s.begin_.ctxLoaded num st c).ok port) port).1
    generalize hu : ((s.begin_.ctxLoaded num st c).ok port).kickAll = u at *
    refine exec_to_with (fun s => if v.getLsbD 16 then s.wrSqDb port v else s) rfl ((if_pos h16).trans ((wrSqDb_loads hlb h16).trans
      ((congrArg State.kickAll (loadCtx_loads (s := s.begin_) hr hc)).trans hu))) ?_
    exact ⟨_, hresp.trans (response_of_ok ..), hq, rfl, rfl, rfl, rfl, rfl, rfl, rfl, rfl⟩
  · obtain ⟨hresp, hrej⟩ := kickAll_js ((s.begin_.ctxRead num).reject port 0x080000) port
    obtain ⟨hresp', hrej'⟩ := reject_js (s.begin_.ctxRead num) port 0x080000
    have hjs : (s.begin_.ctxRead num).js = s.js := (congrArg State.js (ctxRead_noPorts s.begin_ num) :)
    generalize hu : ((s.begin_.ctxRead num).reject port 0x080000).kickAll = u at *
    refine exec_to (fun s => if v.getLsbD 16 then s.wrSqDb port v else s) rfl ((if_pos h16).trans ((wrSqDb_loads hlb h16).trans
      ((congrArg State.kickAll (loadCtx_rejects (s := s.begin_) hr hc)).trans hu))) ?_
    exact ⟨hresp.trans hresp', hrej.trans (hrej'.trans (congrArg (fun j : JsBlock => stick j.rejCount 1) hjs))⟩
  · have hpost := (wrSqDb_posts (port := port) hlb h16 hn (q := q) hq).trans (if_neg (ne_true_of_eq_false h17))
    obtain ⟨q', hq', hpi⟩ := sqPosted_queue (s := s.begin_) (num_of_queue hq)
    generalize hu : s.begin_.sqPosted q = u at *
    refine exec_to_with (fun s => if !v.getLsbD 16 && !v.getLsbD 17 then s.wrSqDb port v else s) rfl
      ((if_pos (by rw [h16, h17]; rfl)).trans (hpost.trans ((sqPosted_ok ..).trans (congrArg (State.ok · port) hu)))) ?_
    exact ⟨q', response_of_ok .., (queue_ok ..).trans hq', hpi⟩
  · refine does_run (fun s => if !v.getLsbD 16 && v.getLsbD 17 then s.wrSqDb port v else s) rfl
      ((if_pos (by rw [h16, h17]; rfl)).trans ((wrSqDb_posts (port := port) hlb h16 hn (q := q) hq).trans (if_pos h17)))

end Sys2Proof.Machine
end

section
/-!
Scale-out RDMA (spec/10_scale_out_rdma.md R266–R285): received frames, timers, pages and ports.
-/

namespace Sys2Proof.Machine

/-! ### The requester (R273, R275–R277) -/

section

variable {s : State} {e : Nat} {i : EthIn} {qpn : BitVec 24} {q : Queue}

/-- Use of the receive buffer changes the port's fill and XOFF alone (R274). -/
theorem bufferUse_eq (s : State) (e : Nat) (prio : BitVec 3) (kib : Nat) :
    ∃ ports out, s.bufferUse e prio kib = { s with je := { s.je with ports := ports }, out := out } := by
  unfold State.bufferUse
  extract_lets p i u
  split
  · exact ⟨_, _, rfl⟩
  · split
    · exact ⟨_, _, rfl⟩
    · exact ⟨_, _, rfl⟩

theorem bufferUse_queue (s : State) (e : Nat) (prio : BitVec 3) (kib n : Nat) :
    (s.bufferUse e prio kib).queue n = s.queue n := by
  obtain ⟨ports, out, h⟩ := bufferUse_eq s e prio kib
  rw [h]
  rfl

theorem bufferUse_mem (s : State) (e : Nat) (prio : BitVec 3) (kib : Nat) :
    (s.bufferUse e prio kib).hostMem = s.hostMem ∧ (s.bufferUse e prio kib).stateMem = s.stateMem := by
  obtain ⟨ports, out, h⟩ := bufferUse_eq s e prio kib
  rw [h]
  exact ⟨rfl, rfl⟩

theorem connected_queue (h : s.connected e qpn = some q) :
    s.queue q.num = some q ∧ q.state = 1 ∧ q.ctx.eport.toNat = e := by
  unfold State.connected at h
  split at h
  · cases h
  split at h
  next x hx =>
    split at h
    next hc =>
      obtain rfl := Option.some.inj h
      exact ⟨(num_of_queue hx).symm ▸ hx, hc⟩
    next => cases h
  next => cases h

theorem connected_of_queues {t : State} (h : ∀ n, t.queue n = s.queue n) (e : Nat) (qpn : BitVec 24) :
    t.connected e qpn = s.connected e qpn := by
  unfold State.connected
  rw [h]

/-- A frame that passes the MAC's checks goes to its connected queue (R266–R269, R274). -/
theorem macIn_good {f : State → Queue → State} (hg : s.roceGood e i = true) (hq : s.connected e qpn = some q) :
    s.macIn e i qpn f = f (s.bufferUse e i.pcp i.fillKiB) q := by
  have hq' : (s.bufferUse e i.pcp i.fillKiB).connected e qpn = some q :=
    (connected_of_queues (bufferUse_queue s e i.pcp i.fillKiB) e qpn).trans hq
  simp only [State.roceGood, Bool.and_eq_true, bne_iff_ne, ne_eq, decide_eq_true_eq, beq_iff_eq] at hg
  obtain ⟨⟨⟨⟨⟨⟨⟨⟨h0, hl⟩, hlo⟩, hhi⟩, hf⟩, hs⟩, hp⟩, hd⟩, hic⟩ := hg
  unfold State.macIn
  simp only [h0, hl, hf, hs, hp, hd, hic, hq', Nat.not_lt.mpr hlo, Nat.not_lt.mpr hhi, Bool.not_true, if_false, or_self,
    Bool.or_self, bne_self_eq_false, Bool.false_eq_true]

/-! ### Acknowledgements (R275, R276) -/

theorem grow_kept (q : Queue) (a : Nat) : (q.grow a).num = q.num ∧ (q.grow a).ctx = q.ctx ∧ (q.grow a).state = q.state ∧
    (q.grow a).posted = q.posted ∧ (q.grow a).sqCi = q.sqCi ∧ (q.grow a).sqPi = q.sqPi ∧ (q.grow a).ops = q.ops ∧
    (q.grow a).tries = q.tries ∧ (q.grow a).rnrTries = q.rnrTries ∧ (q.grow a).completions = q.completions ∧
    (q.grow a).cqCount = q.cqCount ∧ (q.grow a).halvedAt = q.halvedAt := by
  unfold Queue.grow
  split <;> exact ⟨rfl, rfl, rfl, rfl, rfl, rfl, rfl, rfl, rfl, rfl, rfl, rfl⟩

/-- A queue that has heard an acknowledgement, before what is finished is retired. -/
def Queue.heard (q : Queue) (psn : BitVec 24) : Queue :=
  let r := q.ackOps psn q.ops
  ({ q with ops := r.2, tries := if r.1 > 0 then 0 else q.tries, rnrTries := if r.1 > 0 then 0 else q.rnrTries,
            halvedAt := match q.halvedAt with
              | some h => if psnAtOrAfter psn h then none else some h
              | none => none } : Queue).grow r.1

theorem heard_kept (q : Queue) (psn : BitVec 24) : (q.heard psn).num = q.num ∧ (q.heard psn).ctx = q.ctx ∧
    (q.heard psn).cqCount = q.cqCount ∧ (q.heard psn).completions = q.completions ∧ (q.heard psn).posted = q.posted ∧
    (q.heard psn).sqCi = q.sqCi ∧ (q.heard psn).sqPi = q.sqPi ∧ (q.heard psn).ops = (q.ackOps psn q.ops).2 := by
  unfold Queue.heard
  obtain ⟨hn, hx, -, hp, hc, hpi, hops, -, -, hcomp, hcq, -⟩ := grow_kept
    ({ q with ops := (q.ackOps psn q.ops).2, tries := if (q.ackOps psn q.ops).1 > 0 then 0 else q.tries,
              rnrTries := if (q.ackOps psn q.ops).1 > 0 then 0 else q.rnrTries,
              halvedAt := match q.halvedAt with
                | some h => if psnAtOrAfter psn h then none else some h
                | none => none } : Queue) (q.ackOps psn q.ops).1
  exact ⟨hn, hx, hcq, hcomp, hp, hc, hpi, hops⟩

theorem ackUpTo_eq (s : State) (q : Queue) (psn : BitVec 24) :
    s.ackUpTo q psn = State.retireOps (q.ackOps psn q.ops).2.length (s, q.heard psn) := rfl

/-- What an acknowledgement leaves of its queue. -/
theorem ackUpTo_queue (s : State) (q : Queue) (psn : BitVec 24) :
    (s.ackUpTo q psn).2.num = q.num ∧ (s.ackUpTo q psn).2.ctx = q.ctx ∧ (s.ackUpTo q psn).2.state = q.state ∧
      (s.ackUpTo q psn).2.posted = q.posted ∧ (s.ackUpTo q psn).2.sqCi = q.sqCi ∧ (s.ackUpTo q psn).2.sqPi = q.sqPi ∧
      ((q.ackOps psn q.ops).1 = 0 → (s.ackUpTo q psn).2.tries = q.tries ∧ (s.ackUpTo q psn).2.rnrTries = q.rnrTries) := by
  rw [ackUpTo_eq]
  obtain ⟨hb, hp, hc, hs⟩ := retireOps_base (q.ackOps psn q.ops).2.length (s, q.heard psn)
  obtain ⟨hn, hx, hst, hpo, hci, hpi, -, htr, hrt, -⟩ := grow_kept
    ({ q with ops := (q.ackOps psn q.ops).2, tries := if (q.ackOps psn q.ops).1 > 0 then 0 else q.tries,
              rnrTries := if (q.ackOps psn q.ops).1 > 0 then 0 else q.rnrTries,
              halvedAt := match q.halvedAt with
                | some h => if psnAtOrAfter psn h then none else some h
                | none => none } : Queue) (q.ackOps psn q.ops).1
  generalize State.retireOps (q.ackOps psn q.ops).2.length (s, q.heard psn) = y at *
  refine ⟨(congrArg Queue.num hb :).trans hn, (congrArg Queue.ctx hb :).trans hx, hs.trans hst, hp.trans hpo, hc.trans hci,
    (congrArg Queue.sqPi hb :).trans hpi, fun h0 => ⟨(congrArg Queue.tries hb :).trans (htr.trans ?_),
      (congrArg Queue.rnrTries hb :).trans (hrt.trans ?_)⟩⟩
  · exact if_neg (by omega)
  · exact if_neg (by omega)

/-! ### What becomes of a queue (R275, R277) -/

theorem failed_still (f : Queue) : f.failed.Still := .inl (show (2 : BitVec 2) ≠ 1 by decide)

/-- A queue that fails stays in ERROR, and the error is latched (R275, R285). -/
theorem error_stands (s : State) {x : Queue} {n : Nat} (hn : x.num = n) (cause status : Nat) :
    (∃ q', (s.queueError x cause status).kickAll.queue n = some q' ∧ q'.state = 2 ∧ q'.ops = []) ∧
      (s.queueError x cause status).kickAll.je.errValid = true := by
  subst hn
  obtain ⟨f, -, hq, -⟩ := queueError_queue s x cause status
  exact ⟨⟨_, kickAll_of_still hq (failed_still f), rfl, rfl⟩, kickAll_errValid (queueError_errValid ..)⟩

/-- One try too many. -/
theorem retry_fails (s : State) {x : Queue} {n : Nat} (hn : x.num = n) (h : x.ctx.retry ≤ x.tries) :
    (∃ q', (s.retryQueue x).kickAll.queue n = some q' ∧ q'.state = 2 ∧ q'.ops = []) ∧ (s.retryQueue x).kickAll.je.errValid = true := by
  rw [show s.retryQueue x = s.queueError x 2 2 from if_pos (Nat.lt_succ_of_le h)]
  exact error_stands s hn 2 2

/-- One more try: it is counted, and the queue stays as it is but for what it sends. -/
theorem retry_counts (s : State) {x : Queue} {n : Nat} {R : Queue → Prop} (hn : x.num = n) (h : x.tries < x.ctx.retry)
    (hR : Queue.Lasts R) (hx : R { x.goBack with tries := x.tries + 1 }) :
    ∃ q', (s.retryQueue x).kickAll.queue n = some q' ∧ R q' := by
  rw [show s.retryQueue x = ((s.dropTx x.num).setQueue { x.goBack with tries := x.tries + 1 }).kick x.num from
    if_neg (Nat.not_lt.mpr (Nat.succ_le_of_lt h))]
  exact kickAll_queue hR (kick_queue hR _ _ ⟨_, queue_setQueue_of (q := { x.goBack with tries := x.tries + 1 }) hn _, hx⟩)

/-- A negative acknowledgement's queue: what comes of it. -/
theorem nakIn_remote (s : State) (q : Queue) (psn : BitVec 24) :
    (∃ q', (s.nakIn q psn .remoteAccess).queue q.num = some q' ∧ q'.state = 2 ∧ q'.ops = []) ∧
      (s.nakIn q psn .remoteAccess).je.errValid = true :=
  error_stands _ (ackUpTo_queue s q (psn - 1)).1 4 3

theorem nakIn_fails (s : State) {q : Queue} {psn : BitVec 24} (h0 : (q.ackOps (psn - 1) q.ops).1 = 0) (h : q.ctx.retry ≤ q.tries) :
    ∃ q', (s.nakIn q psn .psnSequence).queue q.num = some q' ∧ q'.state = 2 := by
  obtain ⟨hn, hx, -, -, -, -, ht⟩ := ackUpTo_queue s q (psn - 1)
  obtain ⟨⟨q', hq', hs, -⟩, -⟩ := retry_fails (s.ackUpTo q (psn - 1)).1 hn (by rw [hx, (ht h0).1]; exact h)
  exact ⟨q', hq', hs⟩

theorem nakIn_retries (s : State) {q : Queue} {psn : BitVec 24} (h0 : (q.ackOps (psn - 1) q.ops).1 = 0) (h : q.tries < q.ctx.retry)
    (hp : q.posted = []) (hc : q.sqCi = q.sqPi) (h1 : q.state = 1) :
    ∃ q', (s.nakIn q psn .psnSequence).queue q.num = some q' ∧ q'.state = 1 ∧ q'.tries = q.tries + 1 := by
  obtain ⟨hn, hx, hs, hpo, hci, hpi, ht⟩ := ackUpTo_queue s q (psn - 1)
  obtain ⟨q', hq', ops, rfl⟩ := retry_counts (s.ackUpTo q (psn - 1)).1 hn (by rw [hx, (ht h0).1]; exact h)
    (lasts_ringEmpty (q := { (s.ackUpTo q (psn - 1)).2.goBack with tries := (s.ackUpTo q (psn - 1)).2.tries + 1 })
      (hpo.trans hp) (hci.trans (hc.trans hpi.symm))) ⟨_, rfl⟩
  exact ⟨_, hq', hs.trans h1, congrArg (· + 1) (ht h0).1⟩

theorem rnrIn_waits (s : State) {q : Queue} (psn : BitVec 24) (h : q.ctx.rnrRetry = 7) (h1 : q.state = 1) :
    ∃ q', (s.rnrIn q psn).queue q.num = some q' ∧ q'.rnrWait = true ∧ q'.state = 1 := by
  obtain ⟨hn, hx, hs, -⟩ := ackUpTo_queue s q (psn - 1)
  have hw : s.rnrIn q psn = (((s.ackUpTo q (psn - 1)).1.dropTx (s.ackUpTo q (psn - 1)).2.num).setQueue
      { (s.ackUpTo q (psn - 1)).2.goBack with rnrTries := (s.ackUpTo q (psn - 1)).2.rnrTries + 1, rnrWait := true }).kickAll :=
    if_neg fun hc => hc.1 (hx ▸ h)
  rw [hw]
  refine ⟨_, kickAll_of_still (queue_setQueue_of (q := { (s.ackUpTo q (psn - 1)).2.goBack with
    rnrTries := (s.ackUpTo q (psn - 1)).2.rnrTries + 1, rnrWait := true }) hn _) (.inr (.inl rfl)), rfl, hs.trans h1⟩

theorem rnrIn_fails (s : State) {q : Queue} {psn : BitVec 24} (h0 : (q.ackOps (psn - 1) q.ops).1 = 0) (h7 : q.ctx.rnrRetry ≠ 7)
    (h : q.ctx.rnrRetry ≤ q.rnrTries) : ∃ q', (s.rnrIn q psn).queue q.num = some q' ∧ q'.state = 2 := by
  obtain ⟨hn, hx, -, -, -, -, ht⟩ := ackUpTo_queue s q (psn - 1)
  have hw : s.rnrIn q psn = ((s.ackUpTo q (psn - 1)).1.queueError (s.ackUpTo q (psn - 1)).2 3 4).kickAll :=
    if_pos ⟨hx.symm ▸ h7, by rw [hx, (ht h0).2]; exact Nat.lt_succ_of_le h⟩
  obtain ⟨⟨q', hq', hs, -⟩, -⟩ := error_stands (s.ackUpTo q (psn - 1)).1 hn 3 4
  exact ⟨q', hw ▸ hq', hs⟩

/-! ### One operation completes (R272, R273) -/

/-- The completion record of an entry that was acknowledged (R272). -/
def Queue.record (q : Queue) (e : SqEntry) : List Byte :=
  bytes64 e.wrId ++ bytesLE 4 e.length ++ bytes32 e.imm ++ bytesLE 2 q.num ++ [0] ++ bytesLE 1 e.opcode ++
    List.replicate 11 0 ++ bytesLE 1 (1 - q.cqCount / 2 ^ q.ctx.cqLog2 % 2)

theorem completeEntry_quiet (s : State) (q : Queue) (e : SqEntry) (hx : e.exportLast = false) (h : e.signal = false) :
    (s.completeEntry q e 0).1 = s := by
  simp [State.completeEntry, hx, h]

theorem completeEntry_signal (s : State) (q : Queue) (e : SqEntry) (hx : e.exportLast = false) (h : e.signal = true) :
    (s.completeEntry q e 0).1.hostMem =
      memWrite s.hostMem (q.ctx.cqBase + 32 * (q.cqCount % 2 ^ q.ctx.cqLog2)) (q.record e) := by
  simp only [State.completeEntry, hx, h, if_true, Bool.false_eq_true, if_false, State.writeCqe]
  exact hostWrite_hostMem ..

theorem psnAtOrAfter_self (a : BitVec 24) : psnAtOrAfter a a = true := by simp [psnAtOrAfter]

/-- An acknowledgement of the only packet of the only operation. -/
theorem ackOps_only {q : Queue} {o : SqOp} {psn : BitVec 24} (ho : o.entry.opcode < 4) (hp : o.packets = 1) (hs : o.sent = 1)
    (ha : o.acked = 0) (hpsn : o.psn = psn) : q.ackOps psn [o] = (q.packetLen o.entry 0, [{ o with acked := 1 }]) := by
  have hk : o.covered psn = 1 := by simp [SqOp.covered, hpsn, psnAtOrAfter_self, hs]
  have h4 : o.entry.opcode ≠ 4 := Nat.ne_of_lt ho
  simp [Queue.ackOps, h4, hk, ha, hp, Queue.bytesTo]

/-- What an acknowledgement makes of a queue whose one operation it completes. -/
theorem ackUpTo_only (s : State) {q : Queue} {o : SqOp} {psn : BitVec 24} (hops : q.ops = [o]) (ho : o.entry.opcode < 4)
    (hp : o.packets = 1) (hs : o.sent = 1) (ha : o.acked = 0) (hpsn : o.psn = psn) :
    s.ackUpTo q psn = s.completeEntry { q.heard psn with ops := [] } o.entry 0 := by
  have hack := ackOps_only (q := q) ho hp hs ha hpsn
  have hheard : (q.heard psn).ops = [{ o with acked := 1 }] := by
    obtain ⟨-, -, -, -, -, -, -, ho⟩ := heard_kept q psn
    rw [ho, hops, hack]
  rw [ackUpTo_eq, hops, hack]
  have hfin : SqOp.finished { o with acked := 1 } = true := by
    simp [SqOp.finished, Nat.ne_of_lt ho, hp]
  show State.retireOps 1 (s, q.heard psn) = _
  rw [State.retireOps, hheard]
  exact if_pos hfin

theorem ackUpTo_only_queue (s : State) {q : Queue} {o : SqOp} {psn : BitVec 24} (hops : q.ops = [o]) (ho : o.entry.opcode < 4)
    (hp : o.packets = 1) (hs : o.sent = 1) (ha : o.acked = 0) (hpsn : o.psn = psn) (hlen : 0 < q.packetLen o.entry 0) :
    (s.ackUpTo q psn).2.ops = [] ∧ (s.ackUpTo q psn).2.completions = q.completions + 1 ∧ (s.ackUpTo q psn).2.tries = 0 ∧
      (s.ackUpTo q psn).2.rnrTries = 0 ∧ (o.entry.signal = true → (s.ackUpTo q psn).2.cqCount = q.cqCount + 1) := by
  rw [ackUpTo_only s hops ho hp hs ha hpsn, completeEntry_queue]
  have hack : (q.ackOps psn q.ops).1 > 0 := by
    rw [hops, ackOps_only ho hp hs ha hpsn]
    exact hlen
  obtain ⟨-, -, -, -, -, -, -, htr, hrt, hcomp, hcq, -⟩ := grow_kept
    ({ q with ops := (q.ackOps psn q.ops).2, tries := if (q.ackOps psn q.ops).1 > 0 then 0 else q.tries,
              rnrTries := if (q.ackOps psn q.ops).1 > 0 then 0 else q.rnrTries,
              halvedAt := match q.halvedAt with
                | some h => if psnAtOrAfter psn h then none else some h
                | none => none } : Queue) (q.ackOps psn q.ops).1
  refine ⟨rfl, congrArg (· + 1) hcomp, htr.trans (if_pos hack), hrt.trans (if_pos hack), fun hsig => ?_⟩
  exact (if_pos hsig).trans (congrArg (· + 1) hcq)

/-! ### A piece of READ data (R272, R273) -/

/-- A queue that has taken a piece of its oldest READ. -/
def Queue.gotPiece (q : Queue) (o : SqOp) (rest : List SqOp) (psn : BitVec 24) (n : Nat) (last : Bool) : Queue :=
  let q := ({ q with ops := { o with got := o.got + n, acked := if last then 1 else 0 } :: rest, tries := 0, rnrTries := 0 } : Queue).grow n
  match q.halvedAt with
  | some h => if psnAtOrAfter psn h then { q with halvedAt := none } else q
  | none => q

theorem gotPiece_kept (q : Queue) (o : SqOp) (rest : List SqOp) (psn : BitVec 24) (n : Nat) (last : Bool) :
    (q.gotPiece o rest psn n last).num = q.num ∧ (q.gotPiece o rest psn n last).posted = q.posted ∧
      (q.gotPiece o rest psn n last).sqCi = q.sqCi ∧ (q.gotPiece o rest psn n last).sqPi = q.sqPi ∧
      (q.gotPiece o rest psn n last).completions = q.completions ∧
      (q.gotPiece o rest psn n last).ops = { o with got := o.got + n, acked := if last then 1 else 0 } :: rest := by
  obtain ⟨hn, -, -, hp, hc, hpi, hops, -, -, hcomp, -⟩ := grow_kept
    ({ q with ops := { o with got := o.got + n, acked := if last then 1 else 0 } :: rest, tries := 0, rnrTries := 0 } : Queue) n
  unfold Queue.gotPiece
  dsimp only
  split
  · split
    · exact ⟨hn, hp, hc, hpi, hcomp, hops⟩
    · exact ⟨hn, hp, hc, hpi, hcomp, hops⟩
  · exact ⟨hn, hp, hc, hpi, hcomp, hops⟩

/-- An acknowledgement that comes before the oldest operation, a READ, retires nothing. -/
theorem ackUpTo_read (s : State) {q : Queue} {o : SqOp} {rest : List SqOp} {psn : BitVec 24} (hops : q.ops = o :: rest)
    (h4 : o.entry.opcode = 4) (ha : o.acked = 0) :
    s.ackUpTo q psn = (s, q.heard psn) ∧ (q.heard psn).ops = o :: rest := by
  have hack : q.ackOps psn q.ops = (0, o :: rest) := by simp [hops, Queue.ackOps, h4]
  obtain ⟨-, -, -, -, -, -, -, hh⟩ := heard_kept q psn
  rw [hack] at hh
  have hfin : o.finished = false := by simp [SqOp.finished, h4, ha]
  refine ⟨?_, hh⟩
  rw [ackUpTo_eq, hack, List.length_cons, State.retireOps]
  simp only [hh, hfin, Bool.false_eq_true, if_false]

/-- The state of a block that has taken a piece of a READ. -/
def State.readTaken (s : State) (x : Queue) (e : SqEntry) (off : Nat) (b : List Byte) : State :=
  let y := State.retireOps x.ops.length (s.placeRead e off b, x)
  (y.1.setQueue y.2).kickAll

theorem readIn_expected {s : State} {q : Queue} {o : SqOp} {rest : List SqOp} {psn : BitVec 24} {b : List Byte} {last : Bool}
    (hops : q.ops = o :: rest) (h4 : o.entry.opcode = 4) (ha : o.acked = 0) (hs : 0 < o.sent)
    (hpsn : psn = o.psn + BitVec.ofNat 24 (o.got / q.ctx.mtu)) (hlen : b.length = q.packetLen o.entry (o.got / q.ctx.mtu))
    (hlast : last = decide (o.got + b.length = o.entry.length)) :
    s.readIn q psn b last = s.readTaken ((q.heard (o.psn - 1)).gotPiece o rest psn b.length last) o.entry o.got b := by
  obtain ⟨hack, hh⟩ := ackUpTo_read s (psn := o.psn - 1) hops h4 ha
  obtain ⟨-, hctx, -⟩ := heard_kept q (o.psn - 1)
  have hf : q.ops.find? (fun o => o.entry.opcode == 4 && o.acked == 0 && decide (o.sent > 0)) = some o := by
    rw [hops, List.find?_cons_of_pos (by simp [h4, ha, hs])]
  have hl : b.length = (q.heard (o.psn - 1)).packetLen o.entry (o.got / (q.heard (o.psn - 1)).ctx.mtu) := by
    rw [Queue.packetLen, hctx]
    exact hlen
  unfold State.readIn
  simp only [hf, hack, hh]
  refine (if_neg (not_not.mpr hpsn)).trans ((if_neg (not_not.mpr rfl)).trans ((if_neg ?_).trans rfl))
  rw [← hl, ← hlast]
  simp

theorem retireOps_netView (n : Nat) (x : State × Queue) : (State.retireOps n x).1.netView = x.1.netView := by
  induction n generalizing x with
  | zero => rfl
  | succ n ih =>
    rw [State.retireOps]
    split
    · split
      · exact (ih _).trans (completeEntry_netView ..)
      · rfl
    · rfl

theorem readTaken_stateMem (s : State) (x : Queue) (e : SqEntry) (off : Nat) (b : List Byte) :
    (e.lspace = 1 → (s.readTaken x e off b).stateMem = memWrite s.stateMem (e.laddr + off) b) ∧
      (e.lspace ≠ 1 → (s.readTaken x e off b).stateMem = s.stateMem) := by
  have hv : (s.readTaken x e off b).netView = (s.placeRead e off b).netView :=
    (kickAll_netView _).trans ((setQueue_netView ..).trans (retireOps_netView ..))
  have hm : (s.readTaken x e off b).stateMem = (s.placeRead e off b).stateMem :=
    (congrArg (fun p : State × List Nat => p.1.stateMem) hv :)
  refine ⟨fun h => hm.trans ?_, fun h => hm.trans ?_⟩
  · rw [State.placeRead, if_pos h]
    exact (congrArg State.stateMem (stateWrite_noPorts s 0x30 (e.laddr + off) b) :)
  · rw [State.placeRead, if_neg h]
    exact hostWrite_stateMem ..

/-- A queue stays where a READ's data has come. -/
theorem readTaken_queue (s : State) {x : Queue} {n : Nat} (hn : x.num = n) (e : SqEntry) (off : Nat) (b : List Byte) :
    ∃ q', (s.readTaken x e off b).queue n = some q' := by
  obtain ⟨hb, -⟩ := retireOps_base x.ops.length (s.placeRead e off b, x)
  have hnum : (State.retireOps x.ops.length (s.placeRead e off b, x)).2.num = n := (congrArg Queue.num hb :).trans hn
  obtain ⟨q', hq', -⟩ := kickAll_queue (lasts_base (State.retireOps x.ops.length (s.placeRead e off b, x)).2.base)
    ⟨_, queue_setQueue_of hnum (State.retireOps x.ops.length (s.placeRead e off b, x)).1, rfl⟩
  exact ⟨q', hq'⟩

theorem readTaken_waits (s : State) {x : Queue} {o : SqOp} {rest : List SqOp} {n : Nat} (hn : x.num = n) (hops : x.ops = o :: rest)
    (h4 : o.entry.opcode = 4) (ha : o.acked = 0) (e : SqEntry) (off : Nat) (b : List Byte) :
    ∃ q', (s.readTaken x e off b).queue n = some q' ∧ ∃ o', q'.ops.head? = some o' ∧ o'.got = o.got ∧ o'.acked = 0 := by
  have hr : State.retireOps x.ops.length (s.placeRead e off b, x) = (s.placeRead e off b, x) := by
    rw [hops, List.length_cons, State.retireOps]
    simp [hops, SqOp.finished, h4, ha]
  unfold State.readTaken
  rw [hr]
  exact kickAll_queue (lasts_head o.got 0) ⟨_, queue_setQueue_of hn _, o, by simp [hops], rfl, ha⟩

theorem readTaken_completes (s : State) {x : Queue} {o : SqOp} {n : Nat} (hn : x.num = n) (hops : x.ops = [o])
    (h4 : o.entry.opcode = 4) (hst : o.started = true) (ha : o.acked = 1) (hp : x.posted = []) (hc : x.sqCi = x.sqPi)
    (e : SqEntry) (off : Nat) (b : List Byte) :
    ∃ q', (s.readTaken x e off b).queue n = some q' ∧ q'.ops = [] ∧ q'.completions = x.completions + 1 := by
  have hr : State.retireOps x.ops.length (s.placeRead e off b, x) =
      (s.placeRead e off b).completeEntry { x with ops := [] } o.entry 0 := by
    rw [hops, List.length_singleton, State.retireOps]
    simp [hops, SqOp.finished, h4, hst, ha, State.retireOps]
  unfold State.readTaken
  simp only [hr, completeEntry_queue]
  refine ⟨_, kickAll_of_still (queue_setQueue_of (q := ({ x with ops := [] } : Queue).completed o.entry) hn _)
    (.inr (.inr ⟨fun _ h => absurd h List.not_mem_nil, hp, hc⟩)), rfl, rfl⟩

end

/-- Settles O38. -/
theorem theRequesterHearsItsPeer : Obligations.TheRequesterHearsItsPeer := by
  refine ⟨fun s rx qpn psn q hg hq => ?_, fun s q o psn hops ho hp hs ha hpsn hlen hx => ?_,
    fun s rx qpn psn b last q o rest hg hq hops h4 hst ha hs hpsn hlen hlast => ?_⟩
  · intro noted
    obtain ⟨-, h1, -⟩ := connected_queue hq
    refine ⟨?_, ?_, fun h0 hr => ?_, fun h0 hr hp hc => ?_, fun timer h7 => ?_, fun timer h0 h7 hr => ?_, fun hcc hh => ?_, fun hh => ?_⟩
    · exact does_run (fun s => s.macIn rx.eport.toNat rx.mac qpn fun s q => ((s.ackUpTo q psn).1.setQueue (s.ackUpTo q psn).2).kickAll)
        rfl (macIn_good (s := s.begin_) hg hq)
    · obtain ⟨⟨q', hq', hst, hops⟩, hv⟩ := nakIn_remote (noted s.begin_) q psn
      exact exec_to_with (fun s => s.macIn rx.eport.toNat rx.mac qpn fun s q => s.nakIn q psn .remoteAccess) rfl
        (macIn_good (s := s.begin_) hg hq) ⟨q', hq', hst, hops, hv⟩
    · obtain ⟨q', hq', hst⟩ := nakIn_fails (noted s.begin_) h0 hr
      exact exec_to_with (fun s => s.macIn rx.eport.toNat rx.mac qpn fun s q => s.nakIn q psn .psnSequence) rfl
        (macIn_good (s := s.begin_) hg hq) ⟨q', hq', hst⟩
    · obtain ⟨q', hq', hst, ht⟩ := nakIn_retries (noted s.begin_) h0 hr hp hc h1
      exact exec_to_with (fun s => s.macIn rx.eport.toNat rx.mac qpn fun s q => s.nakIn q psn .psnSequence) rfl
        (macIn_good (s := s.begin_) hg hq) ⟨q', hq', hst, ht⟩
    · obtain ⟨q', hq', hw, hst⟩ := rnrIn_waits (noted s.begin_) psn h7 h1
      exact exec_to_with (fun s => s.macIn rx.eport.toNat rx.mac qpn fun s q => s.rnrIn q psn) rfl
        (macIn_good (s := s.begin_) hg hq) ⟨q', hq', hw, hst⟩
    · obtain ⟨q', hq', hst⟩ := rnrIn_fails (noted s.begin_) h0 h7 hr
      exact exec_to_with (fun s => s.macIn rx.eport.toNat rx.mac qpn fun s q => s.rnrIn q psn) rfl
        (macIn_good (s := s.begin_) hg hq) ⟨q', hq', hst⟩
    · exact does_run (fun s => s.macIn rx.eport.toNat rx.mac qpn fun s q => s.setQueue q.halve) rfl
        ((macIn_good (s := s.begin_) hg hq).trans (congrArg (State.setQueue _) (if_pos (by simp [hcc, hh]))))
    · exact does_run (fun s => s.macIn rx.eport.toNat rx.mac qpn fun s q => s.setQueue q.halve) rfl
        ((macIn_good (s := s.begin_) hg hq).trans (congrArg (State.setQueue _) (if_neg (by
          rcases hh with hh | hh <;> simp [hh]))))
  · obtain ⟨h1, h2, h3, h4, h5⟩ := ackUpTo_only_queue s hops ho hp hs ha hpsn hlen
    have hy := ackUpTo_only s hops ho hp hs ha hpsn
    obtain ⟨hnum, hctx, hcq, -⟩ := heard_kept q psn
    refine ⟨h1, h2, h3, h4, fun hsig => ?_, fun hsig => ⟨h5 hsig, ?_⟩⟩
    · rw [hy]
      exact completeEntry_quiet s _ _ hx hsig
    · rw [hy, completeEntry_signal s _ _ hx hsig]
      show memWrite s.hostMem ((q.heard psn).ctx.cqBase + 32 * ((q.heard psn).cqCount % 2 ^ (q.heard psn).ctx.cqLog2))
        ((q.heard psn).record o.entry) = _
      rw [Queue.record, hcq, hctx, hnum]
  · obtain ⟨hn, -, -, hcomp, hp, hc, hpi, -⟩ := heard_kept q (o.psn - 1)
    obtain ⟨hn', hp', hc', hpi', hcomp', hops'⟩ := gotPiece_kept (q.heard (o.psn - 1)) o rest psn b.length last
    have hmem := (bufferUse_mem s.begin_ rx.eport.toNat rx.mac.pcp rx.mac.fillKiB).2
    have hgood := (macIn_good (f := fun s q => s.readIn q psn b last) (s := s.begin_) hg hq).trans
      (readIn_expected hops h4 ha hs hpsn hlen hlast)
    generalize s.begin_.bufferUse rx.eport.toNat rx.mac.pcp rx.mac.fillKiB = u at *
    generalize (q.heard (o.psn - 1)).gotPiece o rest psn b.length last = x at *
    have hnum : x.num = q.num := hn'.trans hn
    obtain ⟨hst1, hst2⟩ := readTaken_stateMem u x o.entry o.got b
    have hkeep := readTaken_queue u hnum o.entry o.got b
    have hwait : last = false → ∃ q', (u.readTaken x o.entry o.got b).queue q.num = some q' ∧
        ∃ o', q'.ops.head? = some o' ∧ o'.got = o.got + b.length ∧ o'.acked = 0 := by
      rintro rfl
      exact readTaken_waits u hnum hops' h4 rfl o.entry o.got b
    have hdone : last = true → rest = [] → q.posted = [] → q.sqCi = q.sqPi →
        ∃ q', (u.readTaken x o.entry o.got b).queue q.num = some q' ∧ q'.ops = [] ∧ q'.completions = q.completions + 1 := by
      rintro rfl rfl hpo hci
      obtain ⟨q', hq', ho, hcount⟩ := readTaken_completes u hnum hops' h4 hst rfl (hp'.trans (hp.trans hpo))
        (hc'.trans (hc.trans (hci.trans (hpi'.trans hpi).symm))) o.entry o.got b
      exact ⟨q', hq', ho, hcount.trans (congrArg (· + 1) (hcomp'.trans hcomp))⟩
    generalize u.readTaken x o.entry o.got b = t at *
    obtain ⟨q', hq'⟩ := hkeep
    refine exec_to_with (fun s => s.macIn rx.eport.toNat rx.mac qpn fun s q => s.readIn q psn b last) rfl hgood
      ⟨q', hq', fun h => (hst1 h).trans (congrArg (memWrite · _ _) hmem), fun h => (hst2 h).trans hmem, fun h => ?_, fun h hr hpo hci => ?_⟩
    · obtain ⟨q'', hq'', hw⟩ := hwait h
      exact Option.some.inj (hq''.symm.trans hq') ▸ hw
    · obtain ⟨q'', hq'', hw⟩ := hdone h hr hpo hci
      exact Option.some.inj (hq''.symm.trans hq') ▸ hw

/-! ### The responder (R266–R269, R275, R277) -/

theorem modifyNth_getD_of {α β : Type} {g : α → β} {f : α → α} (h : ∀ a, g (f a) = g a) (n k : Nat) (l : List α) (d : α) :
    g ((modifyNth f n l).getD k d) = g (l.getD k d) :=
  (List.getD_map ..).symm.trans ((congrArg (fun m => List.getD m k (g d)) (map_modifyNth_of_eq h n l)).trans (List.getD_map ..))

section

variable {s t : State} {e n : Nat} {q : Queue}

theorem bufferUse_maySend (s : State) (e : Nat) (prio : BitVec 3) (kib n : Nat) (p : BitVec 3) :
    ((s.bufferUse e prio kib).eth n).maySend p = (s.eth n).maySend p := by
  have hset : ∀ (u : State) (f : EthPort → EthPort), (∀ x, (f x).maySend p = x.maySend p) →
      ((u.setEth e f).eth n).maySend p = (u.eth n).maySend p := fun u f hf =>
    modifyNth_getD_of (g := fun x : EthPort => x.maySend p) hf e n u.je.ports EthPort.reset
  unfold State.bufferUse
  extract_lets x i u
  have hu : (u.eth n).maySend p = (s.eth n).maySend p := hset _ _ fun _ => rfl
  split
  · exact (hset u (fun p => { p with xoffSent := p.xoffSent ||| BitVec.ofNat 8 (2 ^ i) }) fun _ => rfl).trans hu
  · split
    · exact (hset u (fun p => { p with xoffSent := p.xoffSent &&& ~~~ BitVec.ofNat 8 (2 ^ i) }) fun _ => rfl).trans hu
    · exact hu

theorem maySend_of_jeView (h : t.jeView = s.jeView) (n : Nat) (p : BitVec 3) : (t.eth n).maySend p = (s.eth n).maySend p :=
  (congrArg (fun x : EthPort => x.maySend p) (eth_of_gates (gates_of_jeView h) n) :)

/-- A packet changes the memories not. -/
theorem emitRoce_mem (s : State) (q : Queue) (pkt : RoceOut) :
    (s.emitRoce q pkt).hostMem = s.hostMem ∧ (s.emitRoce q pkt).stateMem = s.stateMem := by
  unfold State.emitRoce
  dsimp only
  split <;> exact ⟨rfl, rfl⟩

theorem emitRoce_out (pkt : RoceOut) (h : (s.eth q.ctx.eport.toNat).maySend q.ctx.prio = true) :
    (s.emitRoce q pkt).out = s.out ++ [.roce q.ctx.eport.toNat q.num pkt] := by
  unfold State.emitRoce
  exact congrArg State.out (if_pos h)

/-- Bytes written to pieces of memory in order (R277). -/
theorem scatter_effect (l : List (Nat × Nat)) (b : List Byte) (s : State) :
    (s.scatter l b).hostMem = (l.foldl (fun x l => (memWrite x.1 l.1 (x.2.take l.2), x.2.drop l.2)) (s.hostMem, b)).1 ∧
      (s.scatter l b).stateMem = s.stateMem ∧ (s.scatter l b).jeView = s.jeView := by
  induction l generalizing b s with
  | nil => exact ⟨rfl, rfl, rfl⟩
  | cons p l ih =>
    obtain ⟨h1, h2, h3⟩ := ih (b.drop p.2) (s.hostWrite 0x30 p.1 (b.take p.2))
    rw [State.scatter, List.foldl_cons]
    refine ⟨h1.trans ?_, h2.trans (hostWrite_stateMem ..), h3.trans (hostWrite_jeView ..)⟩
    rw [hostWrite_hostMem]

/-! ### A WRITE of one packet (R266, R277) -/

/-- A queue that has placed a WRITE of one packet. -/
def Queue.written (q : Queue) (pkt : RocePacket) : Queue :=
  { q with msgBytes := 0 + pkt.payload.length, msgVa := pkt.va.toNat, msgKey := pkt.rkey, expPsn := pkt.psn + 1, nakFor := none }

/-- The state of a block that has placed a WRITE of one packet. -/
def State.placed (s : State) (q : Queue) (pkt : RocePacket) (pieces : List (Nat × Nat)) : State :=
  (if pkt.ackReq then (s.scatter pieces pkt.payload).emitRoce (q.written pkt) (.ack pkt.psn)
    else s.scatter pieces pkt.payload).setQueue (q.written pkt)

theorem takePacket_write {pkt : RocePacket} {force : Option Nat} {pieces : List (Nat × Nat)} (ho : pkt.op = .writeOnly)
    (hb : pkt.payload ≠ []) (hm : s.packetMem q pkt force = .good pieces) :
    s.takePacket q pkt force = s.placed q pkt pieces := by
  have hn : roceNeedsMem pkt = true := by simp [roceNeedsMem, ho, hb]
  unfold State.takePacket
  rw [hm, hn, ho]
  show State.setQueue (s.placePacket q pkt pieces).1 (s.placePacket q pkt pieces).2 = _
  unfold State.placePacket
  rw [ho]
  rfl

theorem placed_effect (s : State) (q : Queue) (pkt : RocePacket) (pieces : List (Nat × Nat)) :
    (s.placed q pkt pieces).hostMem =
      (pieces.foldl (fun x l => (memWrite x.1 l.1 (x.2.take l.2), x.2.drop l.2)) (s.hostMem, pkt.payload)).1 ∧
    (s.placed q pkt pieces).stateMem = s.stateMem ∧ (s.placed q pkt pieces).queue q.num = some (q.written pkt) ∧
    (s.placed q pkt pieces).jeView = (s.setQueue (q.written pkt)).jeView ∧
    (pkt.ackReq = true → (s.eth q.ctx.eport.toNat).maySend q.ctx.prio = true →
      .roce q.ctx.eport.toNat q.num (.ack pkt.psn) ∈ (s.placed q pkt pieces).out) := by
  obtain ⟨h1, h2, h3⟩ := scatter_effect pieces pkt.payload s
  unfold State.placed
  generalize s.scatter pieces pkt.payload = u at *
  obtain ⟨he1, he2⟩ := emitRoce_mem u (q.written pkt) (.ack pkt.psn)
  split
  next ha =>
    refine ⟨he1.trans h1, he2.trans h2, queue_setQueue_same .., setQueue_jeView ((emitRoce_jeView ..).trans h3) _, fun _ hm => ?_⟩
    have hm' : (u.eth q.ctx.eport.toNat).maySend q.ctx.prio = true := (maySend_of_jeView h3 ..).trans hm
    have ho := emitRoce_out (q := q.written pkt) (.ack pkt.psn) hm'
    exact (congrArg (fun l => Output.roce q.ctx.eport.toNat q.num (.ack pkt.psn) ∈ l) ho).mpr (List.mem_append_right _ List.mem_cons_self)
  next ha => exact ⟨h1, h2, queue_setQueue_same .., setQueue_jeView h3 _, fun h => absurd h ha⟩

/-! ### Queues that stay still -/

theorem still_setQueue (h : ∀ x ∈ s.je.queues, x.Still) (hq : q.Still) : ∀ x ∈ (s.setQueue q).je.queues, x.Still := by
  intro x hx
  rcases mem_insertBy.mp hx with rfl | hx
  · exact hq
  · exact h x (List.mem_of_mem_filter hx)

theorem still_of_jeView (h : t.jeView = s.jeView) (hs : ∀ x ∈ s.je.queues, x.Still) : ∀ x ∈ t.je.queues, x.Still := by
  rw [show t.je.queues = s.je.queues from (congrArg JeBlock.queues h :)]
  exact hs

/-- The queue's next expected packet is placed (R275, R277). -/
theorem onPacket_write {pkt : RocePacket} {pieces : List (Nat × Nat)} (hst : q.stalled = false) (hp : pkt.psn = q.expPsn)
    (ho : pkt.op = .writeOnly) (hb : pkt.payload ≠ []) (hm : s.packetMem q pkt none = .good pieces) :
    s.onPacket q pkt = s.placed q pkt pieces :=
  (if_pos hp).trans ((if_neg (ne_true_of_eq_false hst)).trans (takePacket_write ho hb hm))

theorem packetMem_write {pkt : RocePacket} (force : Option Nat) (ho : pkt.op = .writeOnly) :
    s.packetMem q pkt force = s.lookup pkt.rkey pkt.va.toNat pkt.payload.length true force := by
  unfold State.packetMem
  rw [ho]
  rfl

/-- A packet from ahead is answered by a NAK for the PSN that is expected (R275). -/
def State.naked (s : State) (q : Queue) : State :=
  (s.emitRoce q (.nak q.expPsn .psnSequence)).setQueue { q with nakFor := some q.expPsn }

theorem onPacket_ahead {pkt : RocePacket} (h0 : 0 < (pkt.psn - q.expPsn).toNat) (h1 : (pkt.psn - q.expPsn).toNat < 2 ^ 23)
    (hn : q.nakFor ≠ some q.expPsn) : s.onPacket q pkt = s.naked q := by
  have hp : pkt.psn ≠ q.expPsn := fun h => by simp [h] at h0
  exact (if_neg hp).trans ((if_pos (decide_eq_true h1)).trans (if_neg hn))

theorem naked_effect (s : State) (q : Queue) : (s.naked q).hostMem = s.hostMem ∧
    (s.naked q).queue q.num = some { q with nakFor := some q.expPsn } ∧
    (s.naked q).jeView = (s.setQueue { q with nakFor := some q.expPsn }).jeView ∧
    ((s.eth q.ctx.eport.toNat).maySend q.ctx.prio = true →
      .roce q.ctx.eport.toNat q.num (.nak q.expPsn .psnSequence) ∈ (s.naked q).out) := by
  refine ⟨(emitRoce_mem ..).1, queue_setQueue_same .., setQueue_jeView (emitRoce_jeView ..) _, fun hm => ?_⟩
  exact (congrArg (fun l => Output.roce q.ctx.eport.toNat q.num (.nak q.expPsn .psnSequence) ∈ l) (emitRoce_out _ hm)).mpr
    (List.mem_append_right _ List.mem_cons_self)

/-- A good request packet: the receive buffer is noted and a congestion mark answered (R274, R276), then the queue takes it. -/
def State.roceNoted (s : State) (e : Nat) (q : Queue) (i : EthIn) : State :=
  if i.ecnCe && i.gapPassed then (s.bufferUse e i.pcp i.fillKiB).emitRoce q .cnp else s.bufferUse e i.pcp i.fillKiB

theorem roceIn_good {pkt : RocePacket} (hg : s.roceGood e pkt.eth = true) (hq : s.connected e pkt.qpn = some q) :
    s.roceIn e pkt = ((s.roceNoted e q pkt.eth).onPacket q pkt).kickAll := by
  unfold State.roceIn
  exact macIn_good hg hq

theorem roceNoted_effect (s : State) (e : Nat) (q : Queue) (i : EthIn) :
    (s.roceNoted e q i).hostMem = s.hostMem ∧ (s.roceNoted e q i).stateMem = s.stateMem ∧
      (s.roceNoted e q i).je.queues = s.je.queues ∧ (s.roceNoted e q i).je.regions = s.je.regions ∧
      ∀ n p, ((s.roceNoted e q i).eth n).maySend p = (s.eth n).maySend p := by
  obtain ⟨ports, out, hu⟩ := bufferUse_eq s e i.pcp i.fillKiB
  have hm := bufferUse_maySend s e i.pcp i.fillKiB
  unfold State.roceNoted
  generalize s.bufferUse e i.pcp i.fillKiB = u at *
  have hq : u.je.queues = s.je.queues ∧ u.je.regions = s.je.regions ∧ u.hostMem = s.hostMem ∧ u.stateMem = s.stateMem := by
    rw [hu]
    exact ⟨rfl, rfl, rfl, rfl⟩
  obtain ⟨h1, h2, h3, h4⟩ := hq
  split
  · have hv := emitRoce_jeView u q .cnp
    obtain ⟨he1, he2⟩ := emitRoce_mem u q .cnp
    exact ⟨he1.trans h3, he2.trans h4, (congrArg JeBlock.queues hv :).trans h1, (congrArg JeBlock.regions hv :).trans h2,
      fun n p => (maySend_of_jeView hv n p).trans (hm n p)⟩
  · exact ⟨h3, h4, h1, h2, hm⟩

theorem lookup_of_regions (h : t.je.regions = s.je.regions) (key : W32) (va n : Nat) (write : Bool) (force : Option Nat) :
    t.lookup key va n write force = s.lookup key va n write force := by
  unfold State.lookup
  rw [h]

end

/-! ### Frames that fail a check of the MAC (R267, R268, R283) -/

section

variable {s : State} {e : Nat} {i : EthIn} {qpn : BitVec 24} {f : State → Queue → State}

theorem macIn_early (h0 : (s.eth e).state ≠ 0) (hl : s.je.loaded = false) :
    s.macIn e i qpn f = s.setEth e fun p => { p with cntEarly := stick p.cntEarly 1 } :=
  (if_neg h0).trans (if_pos (by rw [hl]; rfl))

theorem macIn_size (h0 : (s.eth e).state ≠ 0) (hl : s.je.loaded = true) (hn : i.len < 64 ∨ 9216 < i.len) (hp : i.parses = false) :
    s.macIn e i qpn f = s.setEth e fun p => { p with cntSize := stick p.cntSize 1 } := by
  refine (if_neg h0).trans ((if_neg (by rw [hl]; decide)).trans ((if_pos hn).trans ?_))
  dsimp only
  split
  · exact if_neg (ne_true_of_eq_false hp)
  · rfl

theorem macIn_fcs (h0 : (s.eth e).state ≠ 0) (hl : s.je.loaded = true) (h64 : 64 ≤ i.len) (hmax : i.len ≤ 9216)
    (hf : i.fcsOk = false) : s.macIn e i qpn f = s.setEth e fun p => { p with cntFcs := stick p.cntFcs 1 } :=
  (if_neg h0).trans ((if_neg (by rw [hl]; decide)).trans ((if_neg (by omega)).trans (if_pos (by rw [hf]; rfl))))

end

/-- Settles O39. -/
theorem theResponderPlacesPackets : Obligations.TheResponderPlacesPackets := by
  intro s e pkt n p
  refine ⟨fun h0 hl => ?_, fun h0 hl hn hp => ?_, fun h0 hl h64 hmax hf => ?_, fun q pieces hg hq hst hpsn ho hb hm hidle => ?_,
    fun q hg hq h0 h1 hn hidle => ?_⟩
  · exact does_run (fun s => s.roceIn n pkt) rfl (macIn_early (s := s.begin_) h0 hl)
  · exact does_run (fun s => s.roceIn n pkt) rfl (macIn_size (s := s.begin_) h0 hl hn hp)
  · exact does_run (fun s => s.roceIn n pkt) rfl (macIn_fcs (s := s.begin_) h0 hl h64 hmax hf)
  · obtain ⟨hqn, -, hport⟩ := connected_queue hq
    have hin := roceIn_good (s := s.begin_) hg hq
    obtain ⟨hm1, hm2, hqs, hregs, hsend⟩ := roceNoted_effect s.begin_ n q pkt.eth
    generalize s.begin_.roceNoted n q pkt.eth = u at *
    have hmem : u.packetMem q pkt none = .good pieces :=
      (packetMem_write none ho).trans ((lookup_of_regions hregs ..).trans hm)
    rw [onPacket_write hst hpsn ho hb hmem] at hin
    obtain ⟨h1, h2, h3, h4, h5⟩ := placed_effect u q pkt pieces
    have hstill : ∀ x ∈ u.je.queues, x.Still := hqs ▸ still_of_sendsIdle hidle
    have hqstill : q.Still := still_of_sendsIdle hidle q (List.mem_of_find?_eq_some hqn)
    rw [kickAll_still (still_of_jeView h4 (still_setQueue hstill hqstill))] at hin
    generalize u.placed q pkt pieces = t at *
    refine exec_to_with (fun s => s.roceIn n pkt) rfl hin ⟨q.written pkt, h1.trans ?_, h2.trans hm2, h3, rfl, rfl, fun ha hms => ?_⟩
    · rw [hm1]
      rfl
    · rw [← hport]
      exact h5 ha ((hsend ..).trans (hport ▸ hms))
  · obtain ⟨hqn, -, hport⟩ := connected_queue hq
    have hin := roceIn_good (s := s.begin_) hg hq
    obtain ⟨hm1, -, hqs, -, hsend⟩ := roceNoted_effect s.begin_ n q pkt.eth
    generalize s.begin_.roceNoted n q pkt.eth = u at *
    rw [onPacket_ahead h0 h1 hn] at hin
    obtain ⟨h1, h2, h3, h4⟩ := naked_effect u q
    have hstill : ∀ x ∈ u.je.queues, x.Still := hqs ▸ still_of_sendsIdle hidle
    have hqstill : q.Still := still_of_sendsIdle hidle q (List.mem_of_find?_eq_some hqn)
    rw [kickAll_still (still_of_jeView h3 (still_setQueue hstill hqstill))] at hin
    generalize u.naked q = t at *
    refine exec_to_with (fun s => s.roceIn n pkt) rfl hin ⟨_, h1.trans hm1, h2, rfl, rfl, fun hms => ?_⟩
    rw [← hport]
    exact h4 ((hsend ..).trans (hport ▸ hms))

/-! ### Pauses and timers (R274, R275, R277, R283–R285) -/

/-! ### Pause (R274, R285) -/

/-- The number whose bits i below n are f i. -/
theorem testBit_maskSum (f : Nat → Bool) (n : Nat) :
    ((List.range n).filter f).foldl (fun a i => a + 2 ^ i) 0 < 2 ^ n ∧
      ∀ i, i < n → (((List.range n).filter f).foldl (fun a i => a + 2 ^ i) 0).testBit i = f i := by
  induction n with
  | zero => exact ⟨Nat.one_pos, fun i h => absurd h (Nat.not_lt_zero i)⟩
  | succ n ih =>
    obtain ⟨hlt, hbit⟩ := ih
    rw [List.range_succ, List.filter_append, List.foldl_append]
    generalize ((List.range n).filter f).foldl (fun a i => a + 2 ^ i) 0 = a at *
    have hpow : 2 ^ (n + 1) = 2 ^ n + 2 ^ n := by rw [Nat.pow_succ]; omega
    cases hf : f n with
    | false =>
      have h0 : [n].filter f = [] := by simp [hf]
      rw [h0]
      refine ⟨by simp only [List.foldl_nil]; omega, fun i hi => ?_⟩
      rcases Nat.lt_succ_iff_lt_or_eq.mp hi with h | rfl
      · exact hbit i h
      · rw [hf]
        exact Nat.testBit_lt_two_pow hlt
    | true =>
      have h1 : [n].filter f = [n] := by simp [hf]
      rw [h1]
      refine ⟨by simp only [List.foldl_cons, List.foldl_nil]; omega, fun i hi => ?_⟩
      simp only [List.foldl_cons, List.foldl_nil]
      rw [Nat.add_comm]
      rcases Nat.lt_succ_iff_lt_or_eq.mp hi with h | rfl
      · rw [Nat.testBit_two_pow_add_gt h, hbit i h]
      · rw [Nat.testBit_two_pow_add_eq, Nat.testBit_lt_two_pow hlt, hf]
        rfl

section

variable {s t : State} {e : Nat}

theorem paused_of_gates (h : t.gates = s.gates) (n : Nat) : (t.eth n).paused = (s.eth n).paused :=
  (congrArg EthPort.paused (eth_of_gates h n) :)

theorem releaseEth_gates (s : State) (n : Nat) : (s.releaseEth n).gates = s.gates :=
  gates_of_jeView (setEth_jeView s n (f := fun p => { p with txHeld := p.txHeld.filter fun x => !p.maySend x.1 }) fun _ => rfl)

theorem eth_setEth_same (f : EthPort → EthPort) (h : e < s.je.ports.length) : (s.setEth e f).eth e = f (s.eth e) :=
  modifyNth_getD_same _ _ _ _ h

/-- What a port does with its priorities once they have changed (R274). -/
theorem released_paused (f : EthPort → EthPort) (h : e < s.je.ports.length) :
    (((s.setEth e f).releaseEth e).kickAll.eth e).paused = (f (s.eth e)).paused :=
  (paused_of_gates (kickAll_gates _) e).trans ((paused_of_gates (releaseEth_gates _ e) e).trans
    (congrArg EthPort.paused (eth_setEth_same f h)))

theorem foldl_emit {α : Type} (g : α → Output) (l : List α) (s : State) :
    l.foldl (fun s a => s.emit (g a)) s = { s with out := s.out ++ l.map g } := by
  induction l generalizing s with
  | nil => simp
  | cons a l ih => exact (ih _).trans (congrArg (fun o => ({ s with out := o } : State)) (List.append_assoc s.out [g a] (l.map g)))

/-- The priorities of a port after a PFC frame, bit by bit (R274). -/
theorem getLsbD_pfc (paused enable : Byte) (quanta : List W16) {i : Nat} (hi : i < 8) :
    ((paused &&& ~~~ enable) ||| BitVec.ofNat 8 (((List.range 8).filter fun i => enable.getLsbD i && quanta.getD i 0 != 0).foldl
      (fun a i => a + 2 ^ i) 0)).getLsbD i = if enable.getLsbD i then quanta.getD i 0 != 0 else paused.getLsbD i := by
  have hbit := (testBit_maskSum (fun i => enable.getLsbD i && quanta.getD i 0 != 0) 8).2 i hi
  rw [BitVec.getLsbD_or, BitVec.getLsbD_and, BitVec.getLsbD_not, BitVec.getLsbD_ofNat, hbit, decide_eq_true hi]
  cases enable.getLsbD i <;> simp

/-- The priorities of a port once one has resumed, bit by bit. -/
theorem getLsbD_resume (paused : Byte) (k : Nat) {i : Nat} (hi : i < 8) :
    (paused &&& ~~~ BitVec.ofNat 8 (2 ^ k)).getLsbD i = (paused.getLsbD i && i != k) := by
  rw [BitVec.getLsbD_and, BitVec.getLsbD_not, BitVec.getLsbD_ofNat, decide_eq_true hi, Nat.testBit_two_pow, Bool.true_and, Bool.true_and]
  congr 1
  by_cases h : k = i
  · simp [h]
  · simp [h, Ne.symm h]

/-- A priority that has fallen 64 KiB below XOFF gets XON (R274). -/
theorem bufferUse_xon {prio : BitVec 3} {kib : Nat} (h : e < s.je.ports.length) (hx : (s.eth e).xoffSent.getLsbD prio.toNat = true)
    (hk : kib + 64 < (s.eth e).xoff.toNat) : ((s.bufferUse e prio kib).eth e).xoffSent.getLsbD prio.toNat = false ∧
      .pfc e prio.toNat false ∈ (s.bufferUse e prio kib).out := by
  have hu : s.bufferUse e prio kib = ((s.setEth e fun p => { p with fill := modifyNth (fun _ => kib) prio.toNat p.fill }).setEth e
      fun p => { p with xoffSent := p.xoffSent &&& ~~~ BitVec.ofNat 8 (2 ^ prio.toNat) }).emit (.pfc e prio.toNat false) :=
    (if_neg fun hc => absurd hc.1 (by omega)).trans (if_pos ⟨hk, hx⟩)
  rw [hu]
  refine ⟨?_, List.mem_append_right _ List.mem_cons_self⟩
  have hlen : e < (s.setEth e fun p => { p with fill := modifyNth (fun _ => kib) prio.toNat p.fill }).je.ports.length :=
    (modifyNth_length ..).symm ▸ h
  refine (congrArg (fun p : EthPort => p.xoffSent.getLsbD prio.toNat) (eth_setEth_same _ hlen)).trans ?_
  rw [getLsbD_resume _ _ prio.isLt]
  simp

theorem xoffRepeat_one {k : Nat} (h0 : (s.eth e).state ≠ 0) (hl : s.je.loaded = true) :
    ∃ l, s.xoffRepeat e [k] = { s.bufferUse e 0 k with out := (s.bufferUse e 0 k).out ++ l } := by
  have hu : (if s.je.loaded then [k].zipIdx.foldl (fun s x => s.bufferUse e (BitVec.ofNat 3 x.2) x.1) s else s) =
      s.bufferUse e 0 k := if_pos hl
  unfold State.xoffRepeat
  rw [if_neg h0, hu]
  exact ⟨_, foldl_emit ..⟩

end

/-! ### The requester's timers (R275, R277) -/

/-- ROCE_ACK_TIMEOUT of a queue with something in flight. -/
def State.ackTimeout (s : State) (n : Nat) : State :=
  match s.queue n with
  | some q => if q.state = 1 ∧ q.ops.any SqOp.started then (s.retryQueue q).kickAll else s
  | none => s

/-- RNR_TIMER_EXPIRY of a queue that waits. -/
def State.rnrExpiry (s : State) (n : Nat) : State :=
  match s.queue n with
  | some q => if q.state = 1 ∧ q.rnrWait then (s.setQueue { q with rnrWait := false }).kickAll else s
  | none => s

theorem ackTimeout_retries {s : State} {n : Nat} {q : Queue} (hq : s.queue n = some q) (h1 : q.state = 1)
    (hs : q.ops.any SqOp.started = true) : s.ackTimeout n = (s.retryQueue q).kickAll := by
  unfold State.ackTimeout
  rw [hq]
  exact if_pos ⟨h1, hs⟩

theorem rnrExpiry_resumes {s : State} {n : Nat} {q : Queue} (hq : s.queue n = some q) (h1 : q.state = 1) (hw : q.rnrWait = true) :
    s.rnrExpiry n = (s.setQueue { q with rnrWait := false }).kickAll := by
  unfold State.rnrExpiry
  rw [hq]
  exact if_pos ⟨h1, hw⟩

/-- Settles O40. -/
theorem ethernetTimersAct : Obligations.EthernetTimersAct := by
  refine ⟨fun s e prio enable quanta hlen => ?_, fun s num q hq h1 => ⟨fun hs => ?_, fun hw => ?_⟩⟩
  · intro n p
    have hn : n < s.begin_.je.ports.length := (e.isLt.trans_eq hlen.symm :)
    refine ⟨fun h0 hl => ?_, fun hp => ?_, fun fill h0 => ?_, fun k h0 hl hx hk => ?_, fun hp => ?_⟩
    · refine exec_to (fun s => s.pfcIn n enable quanta) rfl ((if_neg h0).trans (if_neg (by
        show ¬ (!s.je.loaded) = true
        rw [hl]
        decide))) fun i hi => ?_
      exact (congrArg (fun b : Byte => b.getLsbD i) (released_paused _ hn)).trans (getLsbD_pfc _ _ _ hi)
    · refine exec_to (fun s => if (s.eth n).paused.getLsbD prio.toNat then
        (((s.setEth n fun p => { p with paused := p.paused &&& ~~~ BitVec.ofNat 8 (2 ^ prio.toNat) }).releaseEth n).kickAll) else s)
        rfl (if_pos hp) fun i hi => ?_
      exact (congrArg (fun b : Byte => b.getLsbD i) (released_paused _ hn)).trans (getLsbD_resume _ _ hi)
    · exact does_run (fun s => s.xoffRepeat n fill) rfl ((if_neg h0).trans (foldl_emit ..))
    · obtain ⟨hx', hout⟩ := bufferUse_xon (s := s.begin_) (prio := 0) (kib := k) hn hx hk
      obtain ⟨l, hu⟩ := xoffRepeat_one (s := s.begin_) (k := k) h0 hl
      generalize s.begin_.bufferUse n 0 k = u at *
      exact exec_to (fun s => s.xoffRepeat n [k]) rfl hu ⟨List.mem_append_left _ hout, hx'⟩
    · exact does_run (fun s => if (s.eth n).paused.getLsbD prio.toNat then
        s.event (0x49 + n) 0x0804 1 [i1 n, i1 prio.toNat] else s) rfl (if_pos hp)
  · have hg := ackTimeout_retries (s := s.begin_) hq h1 hs
    by_cases hr : q.ctx.retry ≤ q.tries
    · obtain ⟨⟨q', hq', hst, -⟩, herr⟩ := retry_fails s.begin_ (num_of_queue hq) hr
      exact exec_to_with (fun s => s.ackTimeout num.toNat) rfl hg ⟨q', hq', fun _ => ⟨hst, herr⟩, fun h => absurd hr (Nat.not_le.mpr h)⟩
    · obtain ⟨q', hq', hb⟩ := retry_counts s.begin_ (num_of_queue hq) (Nat.not_le.mp hr)
        (lasts_base ({ q.goBack with tries := q.tries + 1 } : Queue).base) rfl
      exact exec_to_with (fun s => s.ackTimeout num.toNat) rfl hg ⟨q', hq', fun h => absurd h hr, fun _ => (congrArg Queue.tries hb :)⟩
  · have hn : q.num = num.toNat := num_of_queue hq
    obtain ⟨q', hq', hr⟩ := kickAll_queue lasts_noRnr ⟨_, queue_setQueue_of (q := { q with rnrWait := false }) hn s.begin_, rfl⟩
    exact exec_to_with (fun s => s.rnrExpiry num.toNat) rfl (rnrExpiry_resumes (s := s.begin_) hq h1 hw) ⟨q', hq', hr⟩

/-! ### Pages, links and the configuration (R277, R281, R283, R284) -/

section

variable {s t : State} {e n : Nat} {q : Queue} {pkt : RocePacket}

theorem sendReadData_jeView (s : State) (q : Queue) (pkt : RocePacket) (pieces : List (Nat × Nat)) :
    (s.sendReadData q pkt pieces).jeView = s.jeView := by
  unfold State.sendReadData
  exact (foldl_view (g := State.jeView) (fun _ _ => emitRoce_jeView ..) _ _).trans
    (foldl_view (g := State.jeView) (fun _ _ => portRead_jeView ..) _ _)

/-- What placing a packet leaves of its queue (R266, R277). -/
structure Queue.Placed (q x : Queue) : Prop where
  num : x.num = q.num
  stalled : x.stalled = q.stalled
  still : q.Still → x.Still

theorem placePacket_effect (s : State) (q : Queue) (pkt : RocePacket) (pieces : List (Nat × Nat)) :
    (s.placePacket q pkt pieces).1.jeView = s.jeView ∧ q.Placed (s.placePacket q pkt pieces).2 := by
  unfold State.placePacket
  split
  · exact ⟨sendReadData_jeView .., rfl, rfl, id⟩
  · extract_lets u starts x y
    have hu : u.jeView = s.jeView := (scatter_effect ..).2.2
    have hy : y.1.jeView = s.jeView ∧ q.Placed y.2 := by
      show State.jeView (if _ then _ else _ : State × Queue).1 = _ ∧ q.Placed (if _ then _ else _ : State × Queue).2
      split
      · exact ⟨(hostWrite_jeView ..).trans hu, rfl, rfl, id⟩
      · exact ⟨hu, rfl, rfl, id⟩
    clear_value y
    refine ⟨?_, hy.2⟩
    show State.jeView (if _ then _ else _) = _
    split
    · exact (emitRoce_jeView ..).trans hy.1
    · exact hy.1

/-- A packet whose memory is good is placed, or waits for a posted receive (R277). -/
theorem takePacket_good {force : Option Nat} {l : List (Nat × Nat)} (hm : s.packetMem q pkt force = .good l) :
    s.takePacket q pkt force = s.emitRoce q (.rnrNak pkt.psn q.ctx.rnrTimer) ∨
      ∃ l', s.takePacket q pkt force = (s.placePacket q pkt l').1.setQueue (s.placePacket q pkt l').2 := by
  unfold State.takePacket
  split
  · exact .inl rfl
  · rw [hm]
    dsimp only
    split
    · exact .inr ⟨[], rfl⟩
    · exact .inr ⟨l, rfl⟩

/-- Whichever of the two, the queue named stays itself, and the Ethernet block changes in it alone. -/
theorem takePacket_kept {force : Option Nat} {l : List (Nat × Nat)} (hm : s.packetMem q pkt force = .good l)
    (hq : s.queue q.num = some q) : ∃ x, q.Placed x ∧ (s.takePacket q pkt force).queue q.num = some x ∧
      (s.takePacket q pkt force).je.parked = s.je.parked ∧
      ((∀ y ∈ s.je.queues, y.Still) → q.Still → ∀ y ∈ (s.takePacket q pkt force).je.queues, y.Still) := by
  rcases takePacket_good hm with h | ⟨l', h⟩
  · rw [h]
    have hv := emitRoce_jeView s q (.rnrNak pkt.psn q.ctx.rnrTimer)
    exact ⟨q, ⟨rfl, rfl, id⟩, (queue_of_jeView hv _).trans hq, (congrArg JeBlock.parked hv :), fun hs _ => still_of_jeView hv hs⟩
  · rw [h]
    obtain ⟨hv, hp⟩ := placePacket_effect s q pkt l'
    generalize s.placePacket q pkt l' = y at *
    refine ⟨y.2, hp, queue_setQueue_of hp.num y.1, (congrArg JeBlock.parked hv :), fun hs hst => ?_⟩
    exact still_setQueue (still_of_jeView hv hs) (hp.still hst)

/-- The state in which the oldest parked packet is taken up again. -/
def State.unparked (s : State) (rest : List Parked) (q : Queue) : State :=
  State.setQueue { s with je := { s.je with parked := rest } } { q with stalled := false }

theorem placeParked_taken {k : Parked} {rest : List Parked} (hk : s.je.parked = k :: rest) (hq : s.queue k.queue = some q) :
    s.placeParked = ((s.unparked rest q).takePacket { q with stalled := false } k.pkt (some k.page.toNat)).kickAll := by
  unfold State.placeParked
  rw [hk]
  show (match s.queue k.queue with
    | none => _
    | some q => _) = _
  rw [hq]
  rfl

/-- PAGE_DONE of a block that has nothing to send (R277). -/
theorem placeParked_effect {k : Parked} {rest : List Parked} {pieces : List (Nat × Nat)} (hk : s.je.parked = k :: rest)
    (hq : s.queue k.queue = some q) (hm : s.packetMem q k.pkt (some k.page.toNat) = .good pieces) (hi : s.sendsIdle = true) :
    ∃ x, s.placeParked.je.parked = rest ∧ s.placeParked.queue k.queue = some x ∧ x.stalled = false ∧
      (k.pkt.op = .writeOnly → k.pkt.payload ≠ [] → x.expPsn = k.pkt.psn + 1 ∧ s.placeParked.hostMem =
        (pieces.foldl (fun x l => (memWrite x.1 l.1 (x.2.take l.2), x.2.drop l.2)) (s.hostMem, k.pkt.payload)).1) := by
  have hn := num_of_queue hq
  have hstill := still_of_sendsIdle hi
  have hqs : q.Still := hstill q (List.mem_of_find?_eq_some hq)
  have hus : ∀ y ∈ (s.unparked rest q).je.queues, y.Still := still_setQueue (q := { q with stalled := false }) hstill hqs
  have hum : (s.unparked rest q).packetMem { q with stalled := false } k.pkt (some k.page.toNat) = .good pieces := hm
  obtain ⟨x, hp, hx, hpark, hlast⟩ := takePacket_kept hum (queue_setQueue_same _ _)
  rw [placeParked_taken hk hq, kickAll_still (hlast hus hqs)]
  refine ⟨x, hpark, hn ▸ hx, hp.stalled, fun ho hb => ?_⟩
  rw [takePacket_write ho hb hum] at hx ⊢
  obtain ⟨h1, -, h3, -, -⟩ := placed_effect (s.unparked rest q) { q with stalled := false } k.pkt pieces
  obtain rfl := Option.some.inj (h3.symm.trans hx)
  exact ⟨rfl, h1⟩

/-! ### The link and the configuration (R281, R283, R284) -/

/-- A port whose PCS lock has changed. -/
def State.relinked (s : State) (e : Nat) (locked : Bool) : State :=
  let st : BitVec 2 := if !locked then 0 else if s.je.loaded then 2 else 1
  (s.setEth e fun p => { p with locked := locked, state := st }).event (0x49 + e) 0x0803 0 [i1 e, i1 st.toNat]

theorem ethLink_changes {locked : Bool} (h : (s.eth e).locked ≠ locked) :
    s.ethLink e locked = ((s.relinked e locked).releaseEth e).kickAll :=
  if_neg h

theorem ethLink_port {locked : Bool} (h : (s.eth e).locked ≠ locked) (he : e < s.je.ports.length) :
    ((s.ethLink e locked).eth e).locked = locked ∧
      ((s.ethLink e locked).eth e).state = if !locked then 0 else if s.je.loaded then 2 else 1 := by
  have hg : (s.ethLink e locked).gates = (s.relinked e locked).gates := by
    rw [ethLink_changes h]
    exact (kickAll_gates _).trans (releaseEth_gates ..)
  have hp := eth_of_gates hg e
  have hs : (s.relinked e locked).eth e = _ := eth_setEth_same _ he
  rw [hs] at hp
  exact ⟨(congrArg EthPort.locked hp :), (congrArg EthPort.state hp :)⟩

/-- In a block that has nothing to send the only event is the link's. -/
theorem ethLink_ring {locked : Bool} (h : (s.eth e).locked ≠ locked) (hi : s.sendsIdle = true) :
    (s.ethLink e locked).js.ring = (s.relinked e locked).js.ring := by
  rw [ethLink_changes h, kickAll_still]
  · rfl
  · exact still_of_sendsIdle hi

/-- XON on every priority of a port that is locked (R283). -/
def State.xonAll (s : State) (e : Nat) : State :=
  if (s.eth e).locked then (List.range 8).foldl (fun s i => s.emit (.pfc e i false)) s else s

theorem xonAll_effect (s : State) (e : Nat) : (s.xonAll e).je = s.je ∧ (∀ o ∈ s.out, o ∈ (s.xonAll e).out) ∧
    ((s.eth e).locked = true → ∀ i, i < 8 → .pfc e i false ∈ (s.xonAll e).out) := by
  unfold State.xonAll
  split
  · rw [foldl_emit]
    refine ⟨rfl, fun o ho => List.mem_append_left _ ho, fun _ i hi => List.mem_append_right _ ?_⟩
    exact List.mem_map.mpr ⟨i, List.mem_range.mpr hi, rfl⟩
  next hl => exact ⟨rfl, fun o ho => ho, fun h => absurd h hl⟩

/-- A port is opened (R283). -/
theorem ethOpen_effect (s : State) (h : e < s.je.ports.length) :
    (s.ethOpen e).je.ports.length = s.je.ports.length ∧ (∀ n, n ≠ e → (s.ethOpen e).eth n = s.eth n) ∧
      ((s.ethOpen e).eth e).xoffSent = 0 ∧ ((s.ethOpen e).eth e).state = (if (s.eth e).locked then 2 else 0) ∧
      (∀ o ∈ s.out, o ∈ (s.ethOpen e).out) ∧
      ((s.eth e).locked = true → ∀ i, i < 8 → .pfc e i false ∈ (s.ethOpen e).out) ∧
      (s.ethOpen e).je.loaded = s.je.loaded ∧ (s.ethOpen e).je.queues = s.je.queues ∧ (s.ethOpen e).je.parked = s.je.parked := by
  have hopen : s.ethOpen e = (s.xonAll e).setEth e fun p => { p with xoffSent := 0, state := if (s.eth e).locked then 2 else 0 } := rfl
  obtain ⟨hje, hout, hpfc⟩ := xonAll_effect s e
  rw [hopen]
  generalize s.xonAll e = u at *
  have hlen : e < u.je.ports.length := hje.symm ▸ h
  have hsame := (eth_setEth_same (fun p => { p with xoffSent := 0, state := if (s.eth e).locked then 2 else 0 }) hlen).trans
    (congrArg (fun j : JeBlock => { j.ports.getD e EthPort.reset with xoffSent := 0, state := if (s.eth e).locked then 2 else 0 }) hje)
  refine ⟨(modifyNth_length ..).trans (congrArg (fun j : JeBlock => j.ports.length) hje), fun n hn => ?_,
    congrArg EthPort.xoffSent hsame, congrArg EthPort.state hsame, hout, hpfc, (congrArg JeBlock.loaded hje :),
    (congrArg JeBlock.queues hje :), (congrArg JeBlock.parked hje :)⟩
  exact (modifyNth_getD_ne _ _ _ _ _ hn).trans (congrArg (fun j : JeBlock => j.ports.getD n EthPort.reset) hje)

/-- The RDMA engine with its configuration loaded, its ports still closed. -/
def State.ethLoaded (s : State) : State := { s with je := { s.je with loaded := true, queues := [], parked := [] } }

theorem ethConfig_loads (hv : s.js.boot.verified = true) (hl : s.je.loaded = false) :
    s.ethConfig = (s.ethLoaded.ethOpen 0).ethOpen 1 :=
  if_neg (by rw [hv, hl]; decide)

end

/-- Settles O41. -/
theorem pagesAndPortsComeBack : Obligations.PagesAndPortsComeBack := by
  refine ⟨fun s port v k rest q pieces hl h30 hk hq hm hi => ?_, fun s e locked hlen hne he => ?_, fun s hv hl hlen => ?_⟩
  · obtain ⟨x, hpark, hx, hst, hw⟩ := placeParked_effect (s := s.begin_) hk hq hm hi
    have hg : s.begin_.wrPage port v = (s.begin_.placeParked).ok port := by
      unfold State.wrPage
      refine (guarded_of_listening (s := s.begin_) port _ _ hl).trans ?_
      exact congrArg (State.ok · port) (if_pos h30)
    generalize s.begin_.placeParked = t at *
    have hkeep : (t.ok port).je = t.je ∧ (t.ok port).hostMem = t.hostMem := by cases port <;> exact ⟨rfl, rfl⟩
    exact exec_to_with (fun s => if v.getLsbD 30 then s.wrPage port v else s) rfl ((if_pos h30).trans hg)
      ⟨x, (congrArg JeBlock.parked hkeep.1).trans hpark, (queue_ok ..).trans hx, hst, response_ok ..,
        fun ho hb => ⟨(hw ho hb).1, hkeep.2.trans (hw ho hb).2⟩⟩
  · have hn : e.toNat < s.begin_.je.ports.length := (e.isLt.trans_eq hlen.symm :)
    obtain ⟨h1, h2⟩ := ethLink_port (s := s.begin_) hne hn
    have hring := ethLink_ring (s := s.begin_) (e := e.toNat) (locked := locked) hne
    generalize hu : s.begin_.ethLink e.toNat locked = u at *
    exact exec_to (fun s => s.ethLink e.toNat locked) rfl hu ⟨h1, h2, fun hi =>
      newest_code_of_one (u := u) (r := s.begin_.js.ring) (evq_of_eventsIn he) (hring hi)⟩
  · have h0 : 0 < s.begin_.ethLoaded.je.ports.length := Nat.lt_of_lt_of_eq (by decide) hlen.symm
    obtain ⟨hlen0, hne0, hx0, hs0, -, hp0, hl0, hq0, hpk0⟩ := ethOpen_effect s.begin_.ethLoaded h0
    have h1 : 1 < (s.begin_.ethLoaded.ethOpen 0).je.ports.length := hlen0.symm ▸ Nat.lt_of_lt_of_eq (by decide) hlen.symm
    obtain ⟨hlen1, hne1, hx1, hs1, hout1, hp1, hl1, hq1, hpk1⟩ := ethOpen_effect (s.begin_.ethLoaded.ethOpen 0) h1
    rw [hne0 1 (by decide)] at hs1 hp1
    have h01 := hne1 0 (by decide)
    have hg := ethConfig_loads (s := s.begin_) hv hl
    generalize s.begin_.ethLoaded.ethOpen 0 = u at *
    generalize u.ethOpen 1 = t at *
    refine exec_to State.ethConfig rfl hg ⟨hl1.trans hl0, hq1.trans hq0, hpk1.trans hpk0, fun n hn => ?_⟩
    rcases Nat.lt_succ_iff_lt_or_eq.mp hn with h | rfl
    · obtain rfl := Nat.lt_one_iff.mp h
      exact ⟨(congrArg EthPort.xoffSent h01).trans hx0, (congrArg EthPort.state h01).trans hs0, fun hk i hi => hout1 _ (hp0 hk i hi)⟩
    · exact ⟨hx1, hs1, hp1⟩

end Sys2Proof.Machine
end

section
/-!
The peer links: the checks of a frame, DATA frames, control frames, training, identity and the link timers (R240, R245–R264).
-/

namespace Sys2Proof.Machine

/-! ### A port updated twice -/

theorem setPort_setPort (s : State) (p : Nat) (f g : PeerPort → PeerPort) :
    (s.setPort p f).setPort p g = s.setPort p fun q => g (f q) :=
  congrArg (fun l => ({ s with jl := { s.jl with ports := l } } : State)) (modifyNth_modifyNth f g p s.jl.ports)

/-! ### The checks of a frame (R240, R247–R249) -/

section

variable (s : State) (n typ : Nat) (f : Frame)

/-- The port has heard the frame: its header is the last one, and the frame is taken from those cut out of blocks. -/
def State.heard : State :=
  s.setPort n fun q => { q with lastFrame := f.hdr, rx := { q.rx with cut := q.rx.cut.eraseP fun c => c.frame == f } }

/-- A header that passes ends resync (R248). -/
def State.synced : State := (s.heard n f).setPort n fun q => { q with rx := { q.rx with resync := false } }

/-- Were the frame's bytes marked errored, or does its FCRC fail (R240, R249)? -/
def State.crcFails : Bool :=
  (match s.cutOf n f with | some c => c.errored | none => false) || frameCrc f.hdr f.payload != f.trailer.extractLsb' 0 32

theorem needRetry_of_open {t : State} (h : (t.port n).rx.retryOut = true) : t.needRetry n = t := if_pos h

theorem testFrame_resync (h : s.inResync n f = true) : s.testFrame n typ f = (s, .notDue) := by
  unfold State.testFrame
  simp only [h, Bool.or_true, if_true]

theorem synced_eq : s.synced n f = s.setPort n fun q =>
    { q with lastFrame := f.hdr, rx := { q.rx with cut := q.rx.cut.eraseP fun c => c.frame == f, resync := false } } :=
  setPort_setPort ..

/-- What a frame that is heard changes of a port is no retry. -/
theorem retryOut_setPort {g : PeerPort → PeerPort} (hg : ∀ q, (g q).rx.retryOut = q.rx.retryOut) (t : State) :
    ((t.setPort n g).port n).rx.retryOut = (t.port n).rx.retryOut :=
  port_setPort_keeps (fun q => q.rx.retryOut) hg t n n

theorem heard_retryOut : ((s.heard n f).port n).rx.retryOut = (s.port n).rx.retryOut :=
  retryOut_setPort n (by exact fun _ => rfl) s

theorem synced_retryOut : ((s.synced n f).port n).rx.retryOut = (s.port n).rx.retryOut :=
  (retryOut_setPort n (by exact fun _ => rfl) _).trans (heard_retryOut ..)

/-- With a retry already asked for, resync asks for nothing more. -/
theorem enterResync_of_open {t : State} (h : (t.port n).rx.retryOut = true) :
    t.enterResync n = t.setPort n fun q => { q with rx := { q.rx with resync := true } } :=
  needRetry_of_open n ((retryOut_setPort n (by exact fun _ => rfl) t).trans h)

variable {s n typ f} (hears : (s.port n).hears = true) (due : s.inResync n f = false) (sof : (frameHdr f.hdr).sof = 0xD5)

include hears due sof

theorem testFrame_heard :
    s.testFrame n typ f =
      if headerCrc f.hdr.toNat ≠ (frameHdr f.hdr).hcrc then
        (((s.heard n f).setPort n fun q => { q with cntHcrc := stick q.cntHcrc 1 }).enterResync n, .bad)
      else if (frameHdr f.hdr).typ ≠ typ then (s.heard n f, .notDue)
      else if !frameSizeOk (frameHdr f.hdr) f then
        (((s.synced n f).setPort n fun q => { q with cntSize := stick q.cntSize 1 }).enterResync n, .bad)
      else if s.crcFails n f then
        (if typ = 0 then ((s.synced n f).setPort n fun q => { q with cntFcrc := stick q.cntFcrc 1 }).needRetry n
          else (s.synced n f).setPort n fun q => { q with cntFcrc := stick q.cntFcrc 1 }, .badCrc (frameHdr f.hdr))
      else ((s.synced n f).takeAck n (frameHdr f.hdr), .good (frameHdr f.hdr)) := by
  have hcond : ((!(s.port n).hears || s.inResync n f) = true) = False := by simp [hears, due]
  unfold State.testFrame
  simp only [hcond, if_false]
  exact if_neg (not_not_intro sof)

variable (openRetry : (s.port n).rx.retryOut = true)

include openRetry

theorem testFrame_badHeader (hcrc : headerCrc f.hdr.toNat ≠ (frameHdr f.hdr).hcrc) :
    s.testFrame n typ f = ((s.heard n f).setPort n fun q =>
      { q with cntHcrc := stick q.cntHcrc 1, rx := { q.rx with resync := true } }, .bad) := by
  have still := (retryOut_setPort n (g := fun q => { q with cntHcrc := stick q.cntHcrc 1 }) (fun _ => rfl) (s.heard n f)).trans
    ((heard_retryOut s n f).trans openRetry)
  rw [testFrame_heard hears due sof, if_pos hcrc, enterResync_of_open n still, setPort_setPort]

variable (hcrc : headerCrc f.hdr.toNat = (frameHdr f.hdr).hcrc) (htyp : (frameHdr f.hdr).typ = typ)

include hcrc htyp

theorem testFrame_badSize (size : frameSizeOk (frameHdr f.hdr) f = false) :
    s.testFrame n typ f = ((s.heard n f).setPort n fun q =>
      { q with cntSize := stick q.cntSize 1, rx := { q.rx with resync := true } }, .bad) := by
  have still := (retryOut_setPort n (g := fun q => { q with cntSize := stick q.cntSize 1 }) (fun _ => rfl) (s.synced n f)).trans
    ((synced_retryOut s n f).trans openRetry)
  rw [testFrame_heard hears due sof, if_neg (not_not_intro hcrc), if_neg (not_not_intro htyp), size, enterResync_of_open n still,
    State.synced]
  simp only [setPort_setPort, Bool.not_false, if_true]

theorem testFrame_badCrc (size : frameSizeOk (frameHdr f.hdr) f = true) (bad : s.crcFails n f = true) :
    s.testFrame n typ f = ((s.heard n f).setPort n fun q =>
      { q with cntFcrc := stick q.cntFcrc 1, rx := { q.rx with resync := false } }, .badCrc (frameHdr f.hdr)) := by
  have still := (retryOut_setPort n (g := fun q => { q with cntFcrc := stick q.cntFcrc 1 }) (fun _ => rfl) (s.synced n f)).trans
    ((synced_retryOut s n f).trans openRetry)
  rw [testFrame_heard hears due sof, if_neg (not_not_intro hcrc), if_neg (not_not_intro htyp), size, bad, needRetry_of_open n still,
    State.synced]
  simp only [setPort_setPort, Bool.not_true, if_true, ite_self, Bool.false_eq_true, if_false]

end

/-- A frame that passes every check is heard, ends resync, and its cumulative ACK is taken (R249, R251). -/
theorem testFrame_good {s : State} {n typ : Nat} {f : Frame} (h : s.hearsGood n typ f = true) :
    s.testFrame n typ f = ((s.synced n f).takeAck n (frameHdr f.hdr), .good (frameHdr f.hdr)) := by
  simp only [State.hearsGood, Bool.and_eq_true, Bool.not_eq_true', beq_iff_eq] at h
  obtain ⟨⟨⟨⟨⟨⟨⟨hears, due⟩, uncut⟩, sof⟩, hcrc⟩, htyp⟩, size⟩, fcs⟩ := h
  have good : s.crcFails n f = false := by
    unfold State.crcFails
    cases hc : s.cutOf n f with
    | none => simp [fcs]
    | some c => simpa [hc, fcs] using uncut
  rw [testFrame_heard hears due sof, if_neg (not_not_intro hcrc), if_neg (not_not_intro htyp), size, good]
  rfl

theorem onFrame_good {s : State} {n typ : Nat} {f : Frame} (act : State → FrameHdr → State) (h : s.hearsGood n typ f = true) :
    s.onFrame n typ f act = act ((s.synced n f).takeAck n (frameHdr f.hdr)) (frameHdr f.hdr) := by
  unfold State.onFrame
  rw [testFrame_good h]

/-! ### Broken frames (R240, R247–R249, R252) -/

/-- What a frame command does with a frame that fails its checks: the content of a broken DATA frame in sequence is aborted further on. -/
structure Drops (n typ : Nat) (f : Frame) (g : State → State) : Prop where
  undue : ∀ {s t : State}, s.testFrame n typ f = (t, .notDue) → g s = s
  bad : ∀ {s t : State}, s.testFrame n typ f = (t, .bad) → g s = t
  crc : ∀ {s t : State} {h : FrameHdr}, s.testFrame n typ f = (t, .badCrc h) →
    g s = if typ = 0 ∧ h.vc = 0 ∧ h.fseq = (s.port n).rx.expect ∧ ((s.port n).state = 4 ∨ (s.port n).state = 5) then
      t.abortForward n f.payload else t

theorem drops_onFrame {n typ : Nat} (f : Frame) (act : State → FrameHdr → State) (ht : typ ≠ 0) :
    Drops n typ f fun s => s.onFrame n typ f act where
  undue h := by
    unfold State.onFrame
    rw [h]
  bad h := by
    unfold State.onFrame
    rw [h]
  crc h := by
    unfold State.onFrame
    rw [h, if_neg fun hd => ht hd.1]

theorem drops_dataFrame (p : BitVec 3) (f : Frame) : Drops p.toNat 0 f (doDataFrame p f) where
  undue h := by
    unfold doDataFrame
    dsimp only
    rw [h]
  bad h := by
    unfold doDataFrame
    dsimp only
    rw [h]
  crc h := by
    unfold doDataFrame
    dsimp only
    rw [h]
    simp only [true_and]

/-- Every frame command drops broken frames in the same way. -/
theorem frameCommand_drops (p : BitVec 3) (f : Frame) {k : Nat × (BitVec 3 → Frame → Instr)} (hk : k ∈ frameCommands) :
    ∃ g : State → State, (∀ s, exec (k.2 p f) s = run g s) ∧ Drops p.toNat k.1 f g := by
  simp only [frameCommands, List.mem_cons, List.not_mem_nil, or_false] at hk
  obtain rfl | rfl | rfl | rfl | rfl | rfl | rfl := hk
  case inl => exact ⟨_, fun _ => rfl, drops_dataFrame p f⟩
  all_goals exact ⟨_, fun _ => rfl, drops_onFrame f _ (by decide)⟩

theorem crcFails_of_or {s : State} {n : Nat} {f : Frame}
    (h : (s.cutOf n f).any CutFrame.errored = true ∨ frameCrc f.hdr f.payload ≠ f.trailer.extractLsb' 0 32) :
    s.crcFails n f = true := by
  unfold State.crcFails
  cases hc : s.cutOf n f with
  | none => simpa [hc] using h
  | some c => simpa [hc] using h

/-- Settles O31: the checks of a frame count what they refuse, and every frame command drops it in the same way. -/
theorem brokenFramesAreCounted : Obligations.BrokenFramesAreCounted := by
  unfold Obligations.BrokenFramesAreCounted
  intro s p f k hk h n q heard
  obtain ⟨g, hg, drops⟩ := frameCommand_drops p f hk
  refine ⟨fun resync => does_run g (hg s) (drops.undue (testFrame_resync s.begin_ n k.1 f resync)), fun hears due sof openRetry => ⟨?_, ?_, ?_⟩⟩
  · exact fun hcrc => does_run g (hg s) (drops.bad (testFrame_badHeader (s := s.begin_) hears due sof openRetry hcrc))
  · exact fun hcrc htyp size => does_run g (hg s) (drops.bad (testFrame_badSize (s := s.begin_) hears due sof openRetry hcrc htyp size))
  · exact fun hcrc htyp size bad => does_run g (hg s)
      (drops.crc (testFrame_badCrc (s := s.begin_) hears due sof openRetry hcrc htyp size (crcFails_of_or bad)))

/-! ### What sending leaves of a port -/

/-- A port without what waits to be driven, and without the ACK that any frame carries (R251). -/
def PeerPort.undriven (q : PeerPort) : PeerPort :=
  { q with rx := { q.rx with ackDue := false }, tx := { q.tx with wire := [] } }

/-- A port without its sending: what it hears, the credits it has, and the retry it was asked for (R250, R254). -/
def PeerPort.ear (q : PeerPort) : PeerPort :=
  { q with
    rx := { q.rx with ackDue := false }
    tx := { PortTx.reset with recv := q.tx.recv, reqSeq := q.tx.reqSeq, reqCount := q.tx.reqCount } }

theorem ear_of_undriven {q r : PeerPort} (h : q.undriven = r.undriven) : q.ear = r.ear := (congrArg PeerPort.ear h :)

section

variable (s : State) (p : Nat)

@[simp] theorem driveFrame_undriven (typ vc : Nat) (first last : Bool) (fseq : W16) (payload : List Byte) (eof : Nat) (atBlock : Bool)
    (k : Nat) : ((s.driveFrame p typ vc first last fseq payload eof atBlock).port k).undriven = (s.port k).undriven :=
  port_setPort_keeps PeerPort.undriven (by exact fun _ => rfl) s p k

@[simp] theorem sendCtl_undriven (typ payload k : Nat) : ((s.sendCtl p typ payload).port k).undriven = (s.port k).undriven :=
  driveFrame_undriven ..

/-- Every frame driven is one output. -/
theorem driveFrame_out (typ vc : Nat) (first last : Bool) (fseq : W16) (payload : List Byte) (eof : Nat) (atBlock : Bool) :
    (s.driveFrame p typ vc first last fseq payload eof atBlock).out.length = s.out.length + 1 := by
  unfold State.driveFrame State.emit
  dsimp only
  exact List.length_append

theorem sendData_ear (vc k : Nat) : ((s.sendData p vc).port k).ear = (s.port k).ear := by
  unfold State.sendData
  dsimp only
  split
  · rfl
  · rw [port_setPort_keeps PeerPort.ear (by exact fun _ => rfl)]
    split
    all_goals exact ear_of_undriven (driveFrame_undriven s p ..)

theorem dwrr_recv (ready : Nat → Bool) (n : Nat) (t : PortTx) :
    (s.dwrr ready n t).2.recv = t.recv ∧ (s.dwrr ready n t).2.reqSeq = t.reqSeq ∧ (s.dwrr ready n t).2.reqCount = t.reqCount := by
  induction n generalizing t with
  | zero => exact ⟨rfl, rfl, rfl⟩
  | succ n ih =>
    unfold State.dwrr
    split
    · split
      · exact ⟨rfl, rfl, rfl⟩
      · exact ih (s.nextTurn t)
    · exact ih (s.nextTurn t)

theorem pickVc_recv : (s.pickVc p).2.recv = (s.port p).tx.recv ∧ (s.pickVc p).2.reqSeq = (s.port p).tx.reqSeq ∧
    (s.pickVc p).2.reqCount = (s.port p).tx.reqCount := by
  unfold State.pickVc
  dsimp only
  split
  · exact ⟨rfl, rfl, rfl⟩
  · split
    · exact dwrr_recv ..
    · exact ⟨rfl, rfl, rfl⟩

/-- An update of a port that leaves what it hears as this port's is leaves the port as it was. -/
theorem port_setPort_ear {f : PeerPort → PeerPort} (h : (f (s.port p)).ear = (s.port p).ear) (k : Nat) :
    ((s.setPort p f).port k).ear = (s.port k).ear := by
  by_cases hk : k = p
  · subst hk
    by_cases hp : k < s.jl.ports.length
    · rw [port_setPort_same s k f hp, h]
    · rw [port_setPort_of_absent s k k f (by omega)]
  · rw [port_setPort_ne s p k f hk]

theorem pumpN_ear (n k : Nat) : ((State.pumpN p n s).port k).ear = (s.port k).ear := by
  induction n generalizing s with
  | zero => rfl
  | succ n ih =>
    unfold State.pumpN
    obtain ⟨hrecv, hseq, hcount⟩ := pickVc_recv s p
    split
    case h_1 => rfl
    case h_2 vc t hpick =>
      rw [hpick] at hrecv hseq hcount
      refine (ih _).trans ((sendData_ear ..).trans (port_setPort_ear s p ?_ k))
      unfold PeerPort.ear
      rw [← hrecv, ← hseq, ← hcount]

theorem pump_ear (k : Nat) : ((s.pump p).port k).ear = (s.port k).ear := pumpN_ear ..

theorem takeAck_ear (h : FrameHdr) (k : Nat) : ((s.takeAck p h).port k).ear = (s.port k).ear := by
  unfold State.takeAck
  split
  · exact (pump_ear ..).trans (port_setPort_keeps PeerPort.ear (by exact fun _ => rfl) s p k)
  · rfl

theorem pump_of_empty (h : s.queuesEmpty p = true) : s.pump p = s := by
  have none_queued (l : List (List TxFrag)) (hl : l.all List.isEmpty = true) : l.foldl (fun a q => a + q.length) 0 = 0 := by
    induction l with
    | nil => rfl
    | cons q l ih =>
      rw [List.all_cons, Bool.and_eq_true, List.isEmpty_iff] at hl
      rw [hl.1]
      exact ih hl.2
  unfold State.pump
  dsimp only
  rw [none_queued _ h]
  rfl

end

/-- Sending does not change the number of ports. -/
theorem ports_length_of_calm {s t : State} (h : t.calm = s.calm) : t.jl.ports.length = s.jl.ports.length := by
  have := congrArg (fun u : State => u.jl.ports.length) h
  simpa [State.calm] using this

/-- What a port has heard, field by field. -/
theorem ear_fields {q r : PeerPort} (h : q.ear = r.ear) :
    q.state = r.state ∧ q.cause = r.cause ∧ q.cntSeq = r.cntSeq ∧ q.noAdmit = r.noAdmit ∧ q.lastFrame = r.lastFrame ∧ q.attempt = r.attempt ∧
    q.rx.expect = r.rx.expect ∧ q.rx.retryOut = r.rx.retryOut ∧ q.rx.items = r.rx.items ∧ q.rx.granted = r.rx.granted ∧
    q.rx.asm = r.rx.asm ∧ q.tx.recv = r.tx.recv := by
  repeat' apply And.intro
  exacts [(congrArg PeerPort.state h :), (congrArg PeerPort.cause h :), (congrArg PeerPort.cntSeq h :), (congrArg PeerPort.noAdmit h :),
    (congrArg PeerPort.lastFrame h :), (congrArg PeerPort.attempt h :), (congrArg (fun q : PeerPort => q.rx.expect) h :),
    (congrArg (fun q : PeerPort => q.rx.retryOut) h :), (congrArg (fun q : PeerPort => q.rx.items) h :),
    (congrArg (fun q : PeerPort => q.rx.granted) h :), (congrArg (fun q : PeerPort => q.rx.asm) h :),
    (congrArg (fun q : PeerPort => q.tx.recv) h :)]

/-! ### DATA frames (R249, R251–R253, R261) -/

/-- A DATA frame in sequence is taken: the next FSEQ is expected, and an ACK is owed (R249, R251). -/
def State.takenFrame (s : State) (p : Nat) (h : FrameHdr) (epoch : BitVec 2) : State :=
  s.setPort p fun q => { q with rx := { q.rx with
    expect := (s.port p).rx.expect + 1, any := true, retryOut := false,
    retryAt := if (s.port p).rx.retryOut then some s.jq.slot else (s.port p).rx.retryAt,
    retryCount := 0, ackDue := true, asm := modifyNth (fun x => { x with tepoch := epoch }) h.vc (s.port p).rx.asm } }

section

variable {s : State} {p : Nat} {f : Frame} {h : FrameHdr} (up : (s.port p).state = 4 ∨ (s.port p).state = 5)

include up

theorem dataIn_up :
    s.dataIn p f h =
      if (h.fseq - (s.port p).rx.expect).toNat ≥ 32768 then s
      else if (h.fseq - (s.port p).rx.expect).toNat > 0 then
        (s.setPort p fun q => { q with cntSeq := stick q.cntSeq 1 }).needRetry p
      else if bitsAt f.trailer.toNat 32 8 = 0xFE then (s.takenFrame p h (s.rxEpoch p h f.payload)).dropContent p h
      else if !s.admits p (s.rxEpoch p h f.payload) then
        ((s.takenFrame p h (s.rxEpoch p h f.payload)).setPort p fun q => { q with noAdmit := stick q.noAdmit 1 }).dropContent p h
      else (s.takenFrame p h (s.rxEpoch p h f.payload)).assemble p h f.payload := by
  have hup : (!((s.port p).state == 4 || (s.port p).state == 5)) = false := by
    rcases up with hs | hs <;> rw [hs] <;> rfl
  unfold State.dataIn
  simp only [hup, Bool.false_eq_true, if_false]
  rfl

theorem dataIn_dup (dup : 32768 ≤ (h.fseq - (s.port p).rx.expect).toNat) : s.dataIn p f h = s :=
  (dataIn_up up).trans (if_pos dup)

theorem dataIn_ahead (ahead : 0 < (h.fseq - (s.port p).rx.expect).toNat) (near : (h.fseq - (s.port p).rx.expect).toNat < 32768)
    (openRetry : (s.port p).rx.retryOut = true) :
    s.dataIn p f h = s.setPort p fun q => { q with cntSeq := stick q.cntSeq 1 } := by
  rw [dataIn_up up, if_neg (by omega), if_pos ahead]
  exact needRetry_of_open p ((retryOut_setPort p (by exact fun _ => rfl) s).trans openRetry)

end

/-- A whole item in one frame on a port that is admitted: it is delivered (R246, R261). -/
theorem assemble_whole {s : State} {p : Nat} {h : FrameHdr} (payload : List Byte) (hf : h.first = true) (hl : h.last = true) :
    s.assemble p h payload = s.setPort p fun q => { q with rx := { q.rx with
      asm := modifyNth (fun x => { x with isOpen := false, bytes := [] }) h.vc q.rx.asm, items := q.rx.items ++ [(h.vc, payload)] } } := by
  unfold State.assemble
  simp only [hf, hl, Bool.not_true, Bool.false_and, Bool.false_eq_true, if_true, if_false]

/-- The buffer of a first frame whose content is dropped is granted back (R253, R261). -/
theorem dropContent_first {s : State} {p : Nat} {h : FrameHdr} (hf : h.first = true) (hp : p < s.jl.ports.length) :
    ((s.dropContent p h).port p).undriven = { (s.port p).undriven with rx := { (s.port p).undriven.rx with
      asm := modifyNth (fun x => { x with isOpen := false, bytes := [] }) h.vc (s.port p).rx.asm,
      granted := modifyNth (· + 1) h.vc (s.port p).rx.granted } } := by
  unfold State.dropContent
  rw [if_pos hf]
  unfold State.grantCredit State.sendCredit
  rw [sendCtl_undriven, setPort_setPort, port_setPort_same s p _ hp]
  rfl

/-- A port that has heard a good frame. -/
def PeerPort.heard (q : PeerPort) (f : Frame) : PeerPort :=
  { q with lastFrame := f.hdr, rx := { q.rx with cut := q.rx.cut.eraseP fun c => c.frame == f, resync := false } }

theorem synced_port (s : State) {n : Nat} (f : Frame) (hn : n < s.jl.ports.length) : (s.synced n f).port n = (s.port n).heard f := by
  rw [synced_eq, port_setPort_same s n _ hn]
  rfl

/-- Taking the ACK of a good frame leaves what the port has heard. -/
theorem heard_ear (s : State) {n : Nat} (f : Frame) (h : FrameHdr) (hn : n < s.jl.ports.length) :
    (((s.synced n f).takeAck n h).port n).ear = ((s.port n).heard f).ear := by
  rw [takeAck_ear, synced_port s f hn]

theorem heard_calm (s : State) (n : Nat) (f : Frame) (h : FrameHdr) :
    ((s.synced n f).takeAck n h).calm = (s.synced n f).calm := takeAck_calm ..

theorem heard_ports_length (s : State) (n : Nat) (f : Frame) (h : FrameHdr) :
    ((s.synced n f).takeAck n h).jl.ports.length = s.jl.ports.length := by
  rw [ports_length_of_calm (heard_calm s n f h), synced_eq, ports_length_setPort]

theorem rxEpoch_first {s : State} {p : Nat} {h : FrameHdr} (payload : List Byte) (hf : h.first = true) :
    s.rxEpoch p h payload = itemEpoch s.jg.epoch.current h.vc payload := if_pos hf

/-- A whole item in one good frame in sequence (R249, R251, R253, R261). -/
theorem dataIn_whole {s : State} {p : Nat} {f : Frame} {h : FrameHdr} (hp : p < s.jl.ports.length)
    (up : (s.port p).state = 4 ∨ (s.port p).state = 5) (next : (h.fseq - (s.port p).rx.expect).toNat = 0) (hf : h.first = true)
    (hl : h.last = true) (eof : bitsAt f.trailer.toNat 32 8 = 0xFD) :
    let t := (s.dataIn p f h).port p
    let admitted := s.admits p (itemEpoch s.jg.epoch.current h.vc f.payload)
    t.rx.expect = (s.port p).rx.expect + 1 ∧ t.rx.retryOut = false ∧ t.lastFrame = (s.port p).lastFrame ∧
      (admitted = true → t.rx.items = (s.port p).rx.items ++ [(h.vc, f.payload)] ∧ t.rx.ackDue = true ∧
        t.noAdmit = (s.port p).noAdmit ∧ t.rx.granted = (s.port p).rx.granted) ∧
      (admitted = false → t.rx.items = (s.port p).rx.items ∧ t.noAdmit = stick (s.port p).noAdmit 1 ∧
        t.rx.granted = modifyNth (· + 1) h.vc (s.port p).rx.granted) := by
  intro t admitted
  have whole : ¬ bitsAt f.trailer.toNat 32 8 = 0xFE := by rw [eof]; decide
  have hd := dataIn_up (f := f) (h := h) up
  rw [if_neg (by omega), if_neg (by omega), if_neg whole, rxEpoch_first f.payload hf] at hd
  cases hadm : admitted with
  | true =>
    have ht : t = _ := congrArg (fun u : State => u.port p)
      ((hd.trans (if_neg (by rw [Bool.not_eq_true']; exact Bool.not_eq_false _ ▸ hadm))).trans (assemble_whole f.payload hf hl))
    rw [State.takenFrame, setPort_setPort, port_setPort_same s p _ hp] at ht
    rw [ht]
    exact ⟨rfl, rfl, rfl, fun _ => ⟨rfl, rfl, rfl, rfl⟩, fun hb => absurd hb (by decide)⟩
  | false =>
    have ht : t = _ := congrArg (fun u : State => u.port p) (hd.trans (if_pos (by rw [Bool.not_eq_true']; exact hadm)))
    have hdrop := dropContent_first (s := (s.takenFrame p h (itemEpoch s.jg.epoch.current h.vc f.payload)).setPort p
      fun q => { q with noAdmit := stick q.noAdmit 1 }) hf (by rw [State.takenFrame, setPort_setPort, ports_length_setPort]; exact hp)
    rw [← ht, State.takenFrame, setPort_setPort, port_setPort_same s p _ hp] at hdrop
    exact ⟨(congrArg (fun q : PeerPort => q.rx.expect) hdrop :), (congrArg (fun q : PeerPort => q.rx.retryOut) hdrop :),
      (congrArg PeerPort.lastFrame hdrop :), fun hb => absurd hb (by decide), fun _ => ⟨(congrArg (fun q : PeerPort => q.rx.items) hdrop :),
        (congrArg PeerPort.noAdmit hdrop :), (congrArg (fun q : PeerPort => q.rx.granted) hdrop :)⟩⟩

theorem doDataFrame_good {s : State} {p : BitVec 3} {f : Frame} (good : s.hearsGood p.toNat 0 f = true) :
    doDataFrame p f s = ((s.synced p.toNat f).takeAck p.toNat (frameHdr f.hdr)).dataIn p.toNat f (frameHdr f.hdr) := by
  unfold doDataFrame
  dsimp only
  rw [testFrame_good good]

/-- Settles O32: what a good DATA frame does is decided by its place in the port's sequence and by the port's admission. -/
theorem dataFramesAreDeliveredInOrder : Obligations.DataFramesAreDeliveredInOrder := by
  unfold Obligations.DataFramesAreDeliveredInOrder
  intro s p f h n ahead admitted good hn up
  have hdo := doDataFrame_good (s := s.begin_) good
  have hear := heard_ear s.begin_ f h hn
  have hcalm := heard_calm s.begin_ n f h
  have hlen : n < ((s.begin_.synced n f).takeAck n h).jl.ports.length := hn.trans_eq (heard_ports_length s.begin_ n f h).symm
  change doDataFrame p f s.begin_ = ((s.begin_.synced n f).takeAck n h).dataIn n f h at hdo
  generalize (s.begin_.synced n f).takeAck n h = v at hdo hear hcalm hlen
  obtain ⟨hstate, -, hcnt, hno, hlast, -, hexpect, hopen, hitems, hgranted, -, -⟩ := ear_fields hear
  have hadm : v.admits n (itemEpoch v.jg.epoch.current h.vc f.payload) = admitted :=
    (congrArg (fun u : State => u.admits n (itemEpoch u.jg.epoch.current h.vc f.payload)) hcalm :)
  have hahead : (h.fseq - (v.port n).rx.expect).toNat = ahead := by rw [hexpect]; rfl
  have vup : (v.port n).state = 4 ∨ (v.port n).state = 5 := by rw [hstate]; exact up
  refine ⟨fun next hf hl eof => ?_, fun pos near openRetry => ?_, fun dup => ?_⟩
  · obtain ⟨wexpect, wopen, wlast, win, wout⟩ := dataIn_whole hlen vup (hahead.trans next) hf hl eof
    rw [hadm] at win wout
    generalize v.dataIn n f h = u at hdo wexpect wopen wlast win wout
    refine exec_to (doDataFrame p f) rfl hdo ⟨wexpect.trans (congrArg (· + 1) hexpect), wopen, wlast.trans hlast, fun ha => ?_, fun ha => ?_⟩
    · obtain ⟨aitems, aack, ano, agranted⟩ := win ha
      exact ⟨aitems.trans (congrArg (· ++ [(h.vc, f.payload)]) hitems), aack, ano.trans hno, agranted.trans hgranted⟩
    · obtain ⟨aitems, ano, agranted⟩ := wout ha
      exact ⟨aitems.trans hitems, ano.trans (congrArg (stick · 1) hno), agranted.trans (congrArg (modifyNth (· + 1) h.vc) hgranted)⟩
  · have hd := dataIn_ahead (f := f) (h := h) vup (hahead ▸ pos) (hahead ▸ near) (hopen.trans openRetry)
    have hport := port_setPort_same v n (fun q => { q with cntSeq := stick q.cntSeq 1 }) hlen
    generalize v.setPort n (fun q => { q with cntSeq := stick q.cntSeq 1 }) = u at hd hport
    exact exec_to (doDataFrame p f) rfl (hdo.trans hd) ⟨(congrArg PeerPort.cntSeq hport).trans (congrArg (stick · 1) hcnt),
      (congrArg (fun q : PeerPort => q.rx.expect) hport).trans hexpect, (congrArg (fun q : PeerPort => q.rx.items) hport).trans hitems⟩
  · exact exec_to (doDataFrame p f) rfl (hdo.trans (dataIn_dup vup (hahead ▸ dup))) ⟨hexpect, hitems, hcnt⟩

theorem setPort_congr (s : State) (p : Nat) {f g : PeerPort → PeerPort} (h : f (s.port p) = g (s.port p)) : s.setPort p f = s.setPort p g :=
  congrArg (fun l => ({ s with jl := { s.jl with ports := l } } : State)) (modifyNth_congr h)

/-! ### A port fails (R250, R255, R259, R264) -/

theorem portFail_port {s : State} {p : Nat} (cause : Nat) (hp : p < s.jl.ports.length) (unfailed : (s.port p).state ≠ 7)
    (single : ¬((s.port p).state = 6 ∧ (s.port p).cause = 2)) :
    (s.portFail p cause).port p = { (s.port p).fresh with
      state := 7, cause := BitVec.ofNat 3 cause, realign := false, widen := false, attempt := 0, partnerValid := false } := by
  have hport (e : List EvItem) := port_setPort_same ((s.stageClear p).event (0x41 + p) 0x0701 1 e) p (fun x =>
    { x.fresh with state := 7, cause := BitVec.ofNat 3 cause, realign := false, widen := false, attempt := 0, partnerValid := false }) hp
  unfold State.portFail
  dsimp only
  rw [if_neg fun h => h.elim unfailed single]
  split
  · split
    · exact (memberFail_port ..).trans (hport _)
    · exact (donorPorts_port ..).trans (hport _)
  · exact (donorPorts_port ..).trans (hport _)

/-! ### Control frames (R246, R250, R251, R254, R262) -/

theorem takeAck_of_clear {s : State} {p : Nat} {h : FrameHdr} (clear : h.ackv = false) : s.takeAck p h = s := by
  unfold State.takeAck
  rw [clear]
  rfl

theorem takeAck_of_empty {s : State} {p : Nat} {h : FrameHdr} (valid : h.ackv = true) (empty : s.queuesEmpty p = true) :
    s.takeAck p h = s.setPort p fun q => { q with tx := { q.tx with replay := dropAcked h.ack q.tx.replay } } := by
  unfold State.takeAck
  rw [if_pos valid]
  refine pump_of_empty _ p ?_
  unfold State.queuesEmpty
  rw [port_setPort_keeps (fun q => q.tx.queues) (by exact fun _ => rfl)]
  exact empty

theorem synced_queuesEmpty {s : State} {n : Nat} (f : Frame) (h : s.queuesEmpty n = true) : (s.synced n f).queuesEmpty n = true := by
  unfold State.queuesEmpty
  rw [synced_eq, port_setPort_keeps (fun q => q.tx.queues) (by exact fun _ => rfl)]
  exact h

/-- A failed attempt ends with its reason (R262). -/
theorem attemptFails_port {s : State} {p : Nat} (why : Nat) (hp : p < s.jl.ports.length) :
    let q := (s.attemptFails p why).port p
    q.attempt = 0 ∧ q.failed = (s.port p).failed + 1 ∧ q.lastFail = why ∧ q.state = (s.port p).state := by
  have hone := port_setPort_same s p (fun q => { q with attempt := 0, failed := q.failed + 1, lastFail := why }) hp
  unfold State.attemptFails
  dsimp only
  split
  · rw [event_port, setPort_setPort, port_setPort_same s p _ hp]
    exact ⟨rfl, rfl, rfl, rfl⟩
  · rw [hone]
    exact ⟨rfl, rfl, rfl, rfl⟩

/-- A replayed fragment is one frame, and no port's replay buffer changes. -/
def State.replayOne (p : Nat) (s : State) (x : SentFrag × Nat) : State :=
  (if x.1.frag.vc = 0 then s.useVc0 p (fragSize x.1.frag) else s).driveFrag p x.1.fseq x.1.frag (x.2 == 0)

theorem replayOne_undriven (s : State) (p : Nat) (x : SentFrag × Nat) (k : Nat) :
    ((s.replayOne p x).port k).undriven = (s.port k).undriven := by
  unfold State.replayOne
  split
  all_goals exact driveFrame_undriven ..

theorem replayOne_out (s : State) (p : Nat) (x : SentFrag × Nat) : (s.replayOne p x).out.length = s.out.length + 1 := by
  unfold State.replayOne
  split
  all_goals exact driveFrame_out ..

theorem foldl_replayOne_out (p : Nat) (l : List (SentFrag × Nat)) (s : State) :
    (l.foldl (State.replayOne p) s).out.length = s.out.length + l.length := by
  induction l generalizing s with
  | nil => rfl
  | cons x l ih => rw [List.foldl_cons, ih, replayOne_out, List.length_cons]; omega

theorem replay_effect {s : State} {p : Nat} (k : W16) (hp : p < s.jl.ports.length) (empty : s.queuesEmpty p = true) :
    ((s.replay p k).port p).undriven = { (s.port p) with replayed := stick (s.port p).replayed 1 }.undriven ∧
    (s.replay p k).out.length =
      s.out.length + ((s.port p).tx.replay.filter fun x => decide ((x.fseq - k).toNat < 32768)).length := by
  have folded : s.replay p k = State.pump ((((s.port p).tx.replay.filter fun x => decide ((x.fseq - k).toNat < 32768)).zipIdx).foldl
    (State.replayOne p) (s.setPort p fun q => { q with replayed := stick q.replayed 1 })) p := rfl
  generalize hl : ((s.port p).tx.replay.filter fun x => decide ((x.fseq - k).toNat < 32768)) = l at folded ⊢
  have kept := foldl_view (g := fun t : State => (t.port p).undriven) (fun t x => replayOne_undriven t p x p) l.zipIdx
    (s.setPort p fun q => { q with replayed := stick q.replayed 1 })
  have sent := foldl_replayOne_out p l.zipIdx (s.setPort p fun q => { q with replayed := stick q.replayed 1 })
  rw [port_setPort_same s p _ hp] at kept
  generalize l.zipIdx.foldl (State.replayOne p) (s.setPort p fun q => { q with replayed := stick q.replayed 1 }) = u at kept sent folded
  have still : u.queuesEmpty p = true := ((congrArg (fun q : PeerPort => q.tx.queues.all List.isEmpty) kept :)).trans empty
  rw [folded, pump_of_empty u p still]
  exact ⟨kept, by rw [sent, List.length_zipIdx]; rfl⟩

/-- A RETRY request is counted: the same one again, or a new one (R250). -/
def PeerPort.asked (q : PeerPort) (k : W16) : PeerPort :=
  { q with tx := { q.tx with reqSeq := k, reqCount := if q.tx.reqSeq = k ∧ 0 < q.tx.reqCount then q.tx.reqCount + 1 else 1 } }

theorem retryIn_eq (s : State) (p : Nat) (k : W16) :
    s.retryIn p k =
      if s.jl.retryLimit.toNat ≤ ((s.port p).asked k).tx.reqCount then (s.setPort p (·.asked k)).portFail p 3
      else if k = (s.port p).tx.next then s.setPort p (·.asked k)
      else if (s.port p).tx.replay.any fun x => x.fseq == k then (s.setPort p (·.asked k)).replay p k
      else (s.setPort p (·.asked k)).portFail p 4 := by
  have hset : (s.setPort p fun q => { q with tx := { q.tx with
      reqSeq := k, reqCount := if (s.port p).tx.reqSeq = k ∧ (s.port p).tx.reqCount > 0 then (s.port p).tx.reqCount + 1 else 1 } }) =
      s.setPort p (·.asked k) := setPort_congr s p rfl
  unfold State.retryIn
  dsimp only
  rw [hset]
  rfl

/-- A RETRY replays from the FSEQ it asks for, asks nothing of a port that has nothing to resend, and else fails the port (R250). -/
theorem retryIn_effect {s : State} {p : Nat} (k : W16) (hp : p < s.jl.ports.length) (unfailed : (s.port p).state ≠ 7)
    (single : ¬((s.port p).state = 6 ∧ (s.port p).cause = 2)) :
    let q := s.port p
    let t := s.retryIn p k
    (((q.asked k).tx.reqCount < s.jl.retryLimit.toNat → q.tx.next ≠ k → (q.tx.replay.any fun x => x.fseq == k) = true →
      s.queuesEmpty p = true → (t.port p).undriven = { q.asked k with replayed := stick q.replayed 1 }.undriven ∧
        t.out.length = s.out.length + (q.tx.replay.filter fun x => decide ((x.fseq - k).toNat < 32768)).length)) ∧
    ((q.asked k).tx.reqCount < s.jl.retryLimit.toNat → q.tx.next = k → t.port p = q.asked k ∧ t.out = s.out) ∧
    ((q.asked k).tx.reqCount < s.jl.retryLimit.toNat → q.tx.next ≠ k → (q.tx.replay.any fun x => x.fseq == k) = false →
      (t.port p).state = 7 ∧ (t.port p).cause = 4) ∧
    (s.jl.retryLimit.toNat ≤ (q.asked k).tx.reqCount → (t.port p).state = 7 ∧ (t.port p).cause = 3) := by
  intro q t
  have ht : t = _ := retryIn_eq s p k
  have hasked := port_setPort_same s p (·.asked k) hp
  have alen : p < (s.setPort p (·.asked k)).jl.ports.length := (ports_length_setPort ..).symm ▸ hp
  have failed (cause : Nat) : (((s.setPort p (·.asked k)).portFail p cause).port p).state = 7 ∧
      (((s.setPort p (·.asked k)).portFail p cause).port p).cause = BitVec.ofNat 3 cause := by
    rw [portFail_port cause alen (by rw [hasked]; exact unfailed) (by rw [hasked]; exact single)]
    exact ⟨rfl, rfl⟩
  refine ⟨fun few other held empty => ?_, fun few same => ?_, fun few other gone => ?_, fun many => ?_⟩
  · obtain ⟨eport, eout⟩ := replay_effect k alen ((congrArg (fun q : PeerPort => q.tx.queues.all List.isEmpty) hasked).trans empty)
    rw [hasked] at eport eout
    rw [ht, if_neg (not_le_of_gt few), if_neg fun h => other h.symm, if_pos held]
    exact ⟨eport, eout⟩
  · rw [ht, if_neg (not_le_of_gt few), if_pos same.symm]
    exact ⟨hasked, rfl⟩
  · rw [ht, if_neg (not_le_of_gt few), if_neg fun h => other h.symm, if_neg (Bool.eq_false_iff.mp gone)]
    exact failed 4
  · rw [ht, if_pos many]
    exact failed 3

theorem ports_length_synced (s : State) (n : Nat) (f : Frame) : (s.synced n f).jl.ports.length = s.jl.ports.length := by
  rw [synced_eq, ports_length_setPort]

/-- Settles O33: what each control frame leaves of its port. -/
theorem controlFramesAct : Obligations.ControlFramesAct := by
  unfold Obligations.ControlFramesAct
  constructor <;> intro s p f
  on_goal 1 => intro h n hn; refine ⟨fun good valid empty => ?_, fun good => ?_, fun good clear attempting => ?_⟩
  on_goal 4 => intro n q k times good clear hn unfailed single
  · have hdo := onFrame_good (s := s.begin_) (fun s _ => s) good
    replace hdo := hdo.trans (takeAck_of_empty valid (synced_queuesEmpty (s := s.begin_) f empty))
    rw [synced_eq, setPort_setPort] at hdo
    have hport := port_setPort_same s.begin_ n (fun q => { q with
      lastFrame := f.hdr, rx := { q.rx with cut := q.rx.cut.eraseP fun c => c.frame == f, resync := false },
      tx := { q.tx with replay := dropAcked h.ack q.tx.replay } }) hn
    exact exec_to (fun s => s.onFrame n 1 f fun s _ => s) rfl hdo
      ⟨(congrArg (fun q : PeerPort => q.tx.next) hport :), rfl, (congrArg (fun q : PeerPort => q.tx.replay) hport :)⟩
  · have hdo := onFrame_good (s := s.begin_) (fun s _ => s.creditIn n f.payload) good
    have hear := heard_ear s.begin_ f h hn
    have hlen : n < ((s.begin_.synced n f).takeAck n h).jl.ports.length := hn.trans_eq (heard_ports_length s.begin_ n f h).symm
    change _ = ((s.begin_.synced n f).takeAck n h).creditIn n f.payload at hdo
    generalize (s.begin_.synced n f).takeAck n h = v at hdo hear hlen
    have hcredit : ((v.creditIn n f.payload).port n).ear = _ :=
      (pump_ear ..).trans (congrArg PeerPort.ear (port_setPort_same v n _ hlen))
    obtain ⟨-, -, -, -, -, -, vexpect, -⟩ := ear_fields hear
    obtain ⟨-, -, -, -, -, -, hexpect, -, -, -, -, hrecv⟩ := ear_fields hcredit
    generalize v.creditIn n f.payload = u at hdo hexpect hrecv
    exact exec_to (fun s => s.onFrame n 3 f fun s _ => s.creditIn n f.payload) rfl hdo ⟨hexpect.trans vexpect, hrecv⟩
  · have hdo := onFrame_good (s := s.begin_) (fun s _ => if (s.port n).attempt = 2 then s.attemptFails n 3 else s) good
    have hport := synced_port s.begin_ f hn
    have hlen : n < (s.begin_.synced n f).jl.ports.length := (ports_length_synced s.begin_ n f).symm ▸ hn
    rw [takeAck_of_clear clear] at hdo
    generalize s.begin_.synced n f = v at hdo hport hlen
    obtain ⟨hattempt, hfailed, hwhy, hstate⟩ := attemptFails_port 3 hlen
    rw [if_pos ((congrArg PeerPort.attempt hport).trans attempting)] at hdo
    generalize v.attemptFails n 3 = u at hdo hattempt hfailed hwhy hstate
    exact exec_to (fun s => s.onFrame n 5 f fun s _ => if (s.port n).attempt = 2 then s.attemptFails n 3 else s) rfl hdo
      ⟨hattempt, hfailed.trans (congrArg (·.failed + 1) hport), hwhy, hstate.trans (congrArg PeerPort.state hport :)⟩
  · have hdo := onFrame_good (s := s.begin_) (fun s _ => s.retryIn n k) good
    rw [takeAck_of_clear clear] at hdo
    have hport := synced_port s.begin_ f hn
    have hlen : n < (s.begin_.synced n f).jl.ports.length := (ports_length_synced s.begin_ n f).symm ▸ hn
    have hempty := synced_queuesEmpty (s := s.begin_) (n := n) f
    have hlimit : (s.begin_.synced n f).jl.retryLimit = s.jl.retryLimit := rfl
    have hout : (s.begin_.synced n f).out = [] := rfl
    change State.onFrame s.begin_ n 2 f (fun s _ => s.retryIn n k) = (s.begin_.synced n f).retryIn n k at hdo
    generalize s.begin_.synced n f = v at hdo hport hlen hempty hlimit hout
    obtain ⟨hreplay, hidle, hgone, hmany⟩ := retryIn_effect k hlen (by rw [hport]; exact unfailed) (by rw [hport]; exact single)
    rw [hport, hlimit] at hreplay hidle hgone hmany
    refine ⟨fun few held other empty => ?_, fun few same => ?_, fun few other gone => ?_, fun many => ?_⟩
    · obtain ⟨eport, eout⟩ := hreplay few other held (hempty empty)
      rw [hout, List.length_nil, Nat.zero_add] at eout
      generalize v.retryIn n k = w at hdo eport eout
      exact exec_to (fun s => s.onFrame n 2 f fun s _ => s.retryIn n k) rfl hdo
        ⟨(congrArg PeerPort.replayed eport :), (congrArg (fun q : PeerPort => q.tx.replay) eport :),
          (congrArg (fun q : PeerPort => q.tx.reqCount) eport :), eout⟩
    · obtain ⟨eport, eout⟩ := hidle few same
      rw [hout] at eout
      generalize v.retryIn n k = w at hdo eport eout
      exact exec_to (fun s => s.onFrame n 2 f fun s _ => s.retryIn n k) rfl hdo
        ⟨eout, (congrArg (fun q : PeerPort => q.tx.reqCount) eport :), (congrArg PeerPort.state eport :)⟩
    · have failed := hgone few other gone
      generalize v.retryIn n k = w at hdo failed
      exact exec_to (fun s => s.onFrame n 2 f fun s _ => s.retryIn n k) rfl hdo failed
    · have failed := hmany many
      generalize v.retryIn n k = w at hdo failed
      exact exec_to (fun s => s.onFrame n 2 f fun s _ => s.retryIn n k) rfl hdo failed

/-! ### The link timers (R250, R251, R254, R259, R260) -/

/-- A retry asked for below the limit: one RETRY frame more (R250). -/
theorem askRetry_effect {s : State} {p : Nat} (hp : p < s.jl.ports.length) (few : (s.port p).rx.retryCount + 1 < s.jl.retryLimit.toNat) :
    let q := (s.askRetry p).port p
    q.retrySent = stick (s.port p).retrySent 1 ∧ q.rx.retryCount = (s.port p).rx.retryCount + 1 ∧ q.state = (s.port p).state ∧
      (s.askRetry p).out.length = s.out.length + 1 := by
  unfold State.askRetry
  dsimp only
  generalize hu : s.setPort p _ = u
  have hport := hu ▸ port_setPort_same s p _ hp
  have hout : u.out = s.out := hu ▸ rfl
  have hsent := (sendCtl_undriven u p 2 (s.port p).rx.expect.toNat p).trans (congrArg PeerPort.undriven hport)
  rw [if_neg (by rw [← hu]; exact not_le_of_gt few)]
  exact ⟨(congrArg PeerPort.retrySent hsent :), (congrArg (fun q : PeerPort => q.rx.retryCount) hsent :), (congrArg PeerPort.state hsent :),
    (driveFrame_out ..).trans (congrArg (·.length + 1) hout)⟩

/-- The same request once too often fails the port (R250). -/
theorem askRetry_many {s : State} {p : Nat} (hp : p < s.jl.ports.length) (many : s.jl.retryLimit.toNat ≤ (s.port p).rx.retryCount + 1)
    (unfailed : (s.port p).state ≠ 7) (single : ¬((s.port p).state = 6 ∧ (s.port p).cause = 2)) :
    ((s.askRetry p).port p).state = 7 ∧ ((s.askRetry p).port p).cause = 3 := by
  unfold State.askRetry
  dsimp only
  generalize hu : s.setPort p _ = u
  have hport := hu ▸ port_setPort_same s p _ hp
  have hsent := (sendCtl_undriven u p 2 (s.port p).rx.expect.toNat p).trans (congrArg PeerPort.undriven hport)
  have hstate : ((u.sendCtl p 2 (s.port p).rx.expect.toNat).port p).state = (s.port p).state := (congrArg PeerPort.state hsent :)
  have hcause : ((u.sendCtl p 2 (s.port p).rx.expect.toNat).port p).cause = (s.port p).cause := (congrArg PeerPort.cause hsent :)
  rw [if_pos (by rw [← hu]; exact many), portFail_port 3 (by rw [sendCtl_ports_length, ← hu, ports_length_setPort]; exact hp)
    (by rw [hstate]; exact unfailed) (by rw [hstate, hcause]; exact single)]
  exact ⟨rfl, rfl⟩

/-- Settles O36: each timer acts only while what it times is open. -/
theorem linkTimersAct : Obligations.LinkTimersAct := by
  unfold Obligations.LinkTimersAct
  intro s p n q hn single
  have hretry (h : q.rx.retryOut = true) : (if (s.begin_.port n).rx.retryOut then s.begin_.askRetry n else s.begin_) = s.begin_.askRetry n :=
    if_pos h
  refine ⟨fun hopen few => ?_, fun hopen many unfailed => ?_, fun due => ?_, fun up => ?_, fun hreal hbad => ?_, fun hwide => ?_,
    fun hreal hwide unfailed => ?_⟩
  · obtain ⟨hsent, hcount, hstate, hout⟩ := askRetry_effect (s := s.begin_) hn few
    generalize hu : s.begin_.askRetry n = u at hsent hcount hstate hout
    exact exec_to (fun s => if (s.port n).rx.retryOut then s.askRetry n else s) rfl ((hretry hopen).trans hu) ⟨hsent, hcount, hstate, hout⟩
  · have failed := askRetry_many (s := s.begin_) hn many unfailed single
    generalize hu : s.begin_.askRetry n = u at failed
    exact exec_to (fun s => if (s.port n).rx.retryOut then s.askRetry n else s) rfl ((hretry hopen).trans hu) failed
  · exact does_run (fun s => if (s.port n).rx.ackDue then s.sendCtl n 1 0 else s) rfl (if_pos due)
  · exact does_run (fun s => if (s.port n).state = 4 ∨ (s.port n).state = 5 then s.sendCredit n else s) rfl (if_pos up)
  · exact does_run (fun s => if (s.port n).realign && (s.port n).lanes.any Lane.bad then s.sendCtl n 6 (b2n (s.port n).half) else s) rfl
      (if_pos (Bool.and_eq_true_iff.mpr ⟨hreal, hbad⟩))
  · exact does_run (State.realignTimeout · n) rfl (if_pos hwide)
  · have hport := portFail_port (s := s.begin_) 6 hn unfailed single
    have hdo : s.begin_.realignTimeout n = s.begin_.portFail n 6 := (if_neg (Bool.eq_false_iff.mp hwide)).trans (if_pos hreal)
    generalize s.begin_.portFail n 6 = u at hdo hport
    exact exec_to (State.realignTimeout · n) rfl hdo
      ⟨(congrArg PeerPort.state hport :), (congrArg PeerPort.cause hport :), (congrArg PeerPort.realign hport :)⟩

/-! ### Training and identity (R237, R256–R259, R262) -/

section

variable {s : State} {p : Nat} (hp : p < s.jl.ports.length)

theorem answerIdent_undriven (s : State) (p k : Nat) : ((s.answerIdent p).port k).undriven = (s.port k).undriven := by
  unfold State.answerIdent
  split
  · exact sendCtl_undriven ..
  · split
    · exact sendCtl_undriven ..
    · exact driveFrame_undriven ..

theorem answerIdent_calm (s : State) (p : Nat) : (s.answerIdent p).calm = s.calm := by
  unfold State.answerIdent
  split
  · exact sendCtl_calm ..
  · split
    · exact sendCtl_calm ..
    · exact driveFrame_calm ..

/-- A duplicate identity is looked for at the other ports (R258). -/
theorem dupPort_congr {t : State} {id : Nat} (peers : t.peer = s.peer)
    (others : ∀ k, k ≠ p → (t.port k).partnerValid = (s.port k).partnerValid ∧ (t.port k).partner = (s.port k).partner) :
    t.dupPort p id = s.dupPort p id := by
  unfold State.dupPort
  rw [peers]
  congr 1
  funext k
  by_cases hk : k = p
  · simp [hk]
  · obtain ⟨hvalid, hpartner⟩ := others k hk
    simp only [hvalid, hpartner]

include hp

theorem fence_port (cause : Nat) :
    (s.fence p cause).port p = { (s.port p).fresh with
      state := 6, cause := BitVec.ofNat 3 cause, realign := false, widen := false, attempt := 0 } :=
  port_setPort_same (s.stageClear p) p _ hp

/-- A port that is not UP comes up; one that is stays as it is (R255, R261). -/
theorem portUp_port :
    ((s.portUp p).port p).state = (if (s.port p).state = 4 ∨ (s.port p).state = 5 then (s.port p).state else 4) ∧
    ((s.portUp p).port p).partner = (s.port p).partner ∧ ((s.portUp p).port p).partnerValid = (s.port p).partnerValid := by
  unfold State.portUp
  dsimp only
  by_cases up : (s.port p).state = 4 ∨ (s.port p).state = 5
  · rw [if_pos up, if_pos up]
    exact ⟨rfl, rfl, rfl⟩
  · rw [if_neg up, if_neg up]
    have hsent (u : State) := (sendCtl_undriven u p 3 (((u.port p).rx.granted.map BitVec.toNat).foldr (fun c a => c + 65536 * a) 0) p)
    generalize hu : (s.stageClear p).setPort p _ = u
    have hport := hu ▸ port_setPort_same (s.stageClear p) p _ hp
    have hup := (hsent u).trans (congrArg PeerPort.undriven hport)
    exact ⟨(congrArg PeerPort.state hup :), (congrArg PeerPort.partner hup :), (congrArg PeerPort.partnerValid hup :)⟩

end

/-- The partner that an IDENT announces (R256). -/
def PeerPort.met (q : PeerPort) (i : IdentIn) : PeerPort :=
  { q with partner := BitVec.ofNat 16 i.id, partnerPort := BitVec.ofNat 3 i.port, partnerValid := true }

/-- An IDENT is answered and its partner noted, and then its declaration decides (R256–R258). -/
theorem identFrameIn_of_declared {s : State} {p : Nat} {payload : List Byte} {d : PeerDecl} (verified : s.verified = true)
    (declared : s.peer p = some d) (single : s.dupPort p (identIn payload).id = none)
    (unfenced : ¬((s.port p).state = 6 ∧ (s.port p).cause = 2)) :
    ∃ u : State, u.jl.ports.length = s.jl.ports.length ∧
      (p < s.jl.ports.length → (u.port p).undriven = ((s.port p).met (identIn payload)).undriven) ∧
      s.identFrameIn p payload =
        if s.identPasses d (identIn payload) then u.portUp p
        else
          let i := identIn payload
          let t := (u.fence p 1).event (0x41 + p) 0x0702 1 [i1 p, i2 i.id, i1 i.x, i1 i.y, i1 i.z, i1 i.port, i2 d.member]
          if t.js.boot.state = 4 then (t.declMismatch 5 d.member i.id).enterSafe 10 else t := by
  have hcalm := answerIdent_calm s p
  have hund := answerIdent_undriven s p
  unfold State.identFrameIn
  dsimp only
  generalize s.answerIdent p = a at hcalm hund
  have hlen := ports_length_of_calm hcalm
  have hport (hp : p < s.jl.ports.length) := port_setPort_same a p (·.met (identIn payload)) (hlen.symm ▸ hp)
  have hver : (a.setPort p (·.met (identIn payload))).verified = true := (congrArg (fun u : State => u.verified) hcalm :).trans verified
  have hpeer : (a.setPort p (·.met (identIn payload))).peer = s.peer := (congrArg (fun u : State => u.peer) hcalm :)
  have hpass : (a.setPort p (·.met (identIn payload))).identPasses d (identIn payload) = s.identPasses d (identIn payload) :=
    (congrArg (fun u : State => u.identPasses d (identIn payload)) hcalm :)
  have hdup : (a.setPort p (·.met (identIn payload))).dupPort p (identIn payload).id = none :=
    (dupPort_congr hpeer fun k hk => by
      rw [port_setPort_ne a p k _ hk]
      exact ⟨(congrArg PeerPort.partnerValid (hund k) :), (congrArg PeerPort.partner (hund k) :)⟩).trans single
  have hstate := (port_setPort_keeps PeerPort.state (f := (·.met (identIn payload))) (fun _ => rfl) a p p).trans
    (congrArg PeerPort.state (hund p) :)
  have hcause := (port_setPort_keeps PeerPort.cause (f := (·.met (identIn payload))) (fun _ => rfl) a p p).trans
    (congrArg PeerPort.cause (hund p) :)
  have hnote (hp : p < s.jl.ports.length) := (congrArg PeerPort.undriven (hport hp)).trans
    (congrArg (fun q : PeerPort => q.met (identIn payload)) (hund p))
  generalize hset : a.setPort p _ = u
  obtain rfl : a.setPort p (·.met (identIn payload)) = u := hset
  refine ⟨a.setPort p (·.met (identIn payload)), (ports_length_setPort ..).trans hlen, hnote, ?_⟩
  generalize a.setPort p (·.met (identIn payload)) = u at hver hpeer hpass hdup hstate hcause
  have hfence : ¬((u.port p).state = 6 ∧ (u.port p).cause = 2) := by
    rw [hstate, hcause]
    exact unfenced
  rw [hver, hdup, hpeer, declared]
  simp only [Bool.not_true, Bool.false_eq_true, if_false, if_neg hfence, hpass]

/-- An IDENT that does not match the declaration fences the port (R257, R332). -/
theorem mismatch_port {s : State} {p : Nat} (hp : p < s.jl.ports.length) (items : List EvItem) (declared id : Nat) :
    let t := (s.fence p 1).event (0x41 + p) 0x0702 1 items
    let q := (if t.js.boot.state = 4 then (t.declMismatch 5 declared id).enterSafe 10 else t).port p
    q.state = 6 ∧ q.cause = 1 ∧ q.partner = (s.port p).partner := by
  intro t q
  have hq : q = (s.fence p 1).port p := by
    show (if t.js.boot.state = 4 then (t.declMismatch 5 declared id).enterSafe 10 else t).port p = _
    split <;> rfl
  rw [hq, fence_port hp]
  exact ⟨rfl, rfl, rfl⟩

/-- The far end's half is taken (R259). -/
theorem degradeIn_takes {s : State} {p : Nat} {d : PeerDecl} (half : Bool) (hp : p < s.jl.ports.length) (declared : s.peer p = some d)
    (full : (s.port p).state = 4) (may : d.degraded = true) (openRetry : (s.port p).rx.retryOut = true) :
    let q := (s.degradeIn p half).port p
    q.state = 5 ∧ q.half = half ∧ q.realign = true := by
  have hport := port_setPort_same s p (fun q => { q with
    state := 5, half := half, realign := true, widen := false, lanes := q.lanes.map Lane.relock }) hp
  have hopen : ((s.toHalf p half 4).port p).rx.retryOut = true :=
    (congrArg (fun q : PeerPort => q.rx.retryOut) hport :).trans openRetry
  have hin : s.degradeIn p half = s.toHalf p half 4 := by
    unfold State.degradeIn
    dsimp only
    rw [declared, full]
    simp only [may, if_true]
    exact needRetry_of_open p hopen
  rw [hin]
  exact ⟨(congrArg PeerPort.state hport :), (congrArg PeerPort.half hport :), (congrArg PeerPort.realign hport :)⟩

theorem trainingAttempt_eq {s : State} (p : BitVec 3) (verified : s.verified = true) (h4 : (s.port p.toNat).state ≠ 4)
    (h5 : (s.port p.toNat).state ≠ 5) (single : ¬((s.port p.toNat).state = 6 ∧ (s.port p.toNat).cause = 2)) :
    doTrainingAttempt p s =
      if (s.port p.toNat).aligned then (s.setPort p.toNat fun q => { q with state := 3, attempt := 2 }).sendIdent p.toNat
      else (s.setPort p.toNat fun q => { q with state := 1, attempt := 1 }).setAdapt p.toNat true := by
  unfold doTrainingAttempt
  refine if_neg ?_
  simp only [verified, Bool.not_true, Bool.false_or, Bool.or_eq_true, Bool.and_eq_true, beq_iff_eq]
  exact fun h => h.elim (fun h => h.elim h4 h5) single

/-- A port that trains and is aligned sends its IDENT (R256, R262). -/
theorem sendIdent_training {s : State} {p : Nat} (hp : p < s.jl.ports.length) :
    let t := (s.setPort p fun q => { q with state := 3, attempt := 2 }).sendIdent p
    (t.port p).state = 3 ∧ (t.port p).attempt = 2 ∧ t.out.length = s.out.length + 1 := by
  intro t
  have hport := port_setPort_same s p (fun q => { q with state := 3, attempt := 2 }) hp
  have hsent : (t.port p).undriven = _ := (driveFrame_undriven ..).trans (congrArg PeerPort.undriven hport)
  exact ⟨(congrArg PeerPort.state hsent :), (congrArg PeerPort.attempt hsent :), driveFrame_out ..⟩

/-- Settles O34: the port after an attempt, a timeout, an IDENT and a DEGRADE. -/
theorem portsTrainAndIdentify : Obligations.PortsTrainAndIdentify := by
  unfold Obligations.PortsTrainAndIdentify
  constructor <;> intro s p
  · intro n q hn
    refine ⟨fun verified h4 h5 single => ⟨fun apart => ?_, fun aligned => ?_⟩, fun first => ?_, fun second => ?_, ?_⟩
    · exact does_run (doTrainingAttempt p) rfl
        ((trainingAttempt_eq (s := s.begin_) p verified h4 h5 single).trans (if_neg (Bool.eq_false_iff.mp apart)))
    · have hdo := (trainingAttempt_eq (s := s.begin_) p verified h4 h5 single).trans (if_pos aligned)
      obtain ⟨hstate, hattempt, hout⟩ := sendIdent_training (s := s.begin_) (p := n) hn
      generalize (s.begin_.setPort n fun q => { q with state := 3, attempt := 2 }).sendIdent n = u at hdo hstate hattempt hout
      exact exec_to (doTrainingAttempt p) rfl hdo ⟨hstate, hattempt, hout⟩
    · obtain ⟨hattempt, hfailed, hwhy, -⟩ := attemptFails_port (s := s.begin_) 1 hn
      have hdo : (if (s.begin_.port n).attempt = 1 then s.begin_.attemptFails n 1 else s.begin_) = _ := if_pos first
      generalize hu : s.begin_.attemptFails n 1 = u at hattempt hfailed hwhy
      exact exec_to (fun s => if (s.port n).attempt = 1 then s.attemptFails n 1 else s) rfl (hdo.trans hu) ⟨hattempt, hfailed, hwhy⟩
    · obtain ⟨hattempt, hfailed, hwhy, -⟩ := attemptFails_port (s := s.begin_) 2 hn
      have hdo : (if (s.begin_.port n).attempt = 2 then s.begin_.attemptFails n 2 else s.begin_) = _ := if_pos second
      generalize hu : s.begin_.attemptFails n 2 = u at hattempt hfailed hwhy
      exact exec_to (fun s => if (s.port n).attempt = 2 then s.attemptFails n 2 else s) rfl (hdo.trans hu) ⟨hattempt, hfailed, hwhy⟩
    · exact does_run (State.setAdapt · n false) rfl rfl
  · intro f d n q i hn declared clear
    have hport := synced_port s.begin_ f hn
    have hlen : n < (s.begin_.synced n f).jl.ports.length := (ports_length_synced s.begin_ n f).symm ▸ hn
    refine ⟨fun good verified single unfenced => ?_, fun good full may openRetry => ?_⟩
    · have hdo := onFrame_good (s := s.begin_) (fun s _ => s.identFrameIn n f.payload) good
      rw [takeAck_of_clear clear] at hdo
      have hdup : (s.begin_.synced n f).dupPort n i.id = none :=
        (dupPort_congr (s := s.begin_) (t := s.begin_.synced n f) rfl fun k hk => by
          rw [synced_eq, port_setPort_ne _ n k _ hk]
          exact ⟨rfl, rfl⟩).trans single
      obtain ⟨u, ulen, uport, hin⟩ := identFrameIn_of_declared (s := s.begin_.synced n f) verified declared hdup
        (by rw [hport]; exact unfenced)
      have uport := uport hlen
      rw [hport] at uport
      have hu : n < u.jl.ports.length := ulen.symm ▸ hlen
      have hpass : (s.begin_.synced n f).identPasses d (identIn f.payload) = s.identPasses d i := rfl
      rw [hpass] at hin
      refine ⟨fun pass => ?_, fun fail => ?_⟩
      · obtain ⟨hstate, hpartner, hvalid⟩ := portUp_port hu
        have hdo := hdo.trans (hin.trans (if_pos pass))
        generalize u.portUp n = w at hdo hstate hpartner hvalid
        have ustate : (u.port n).state = (s.begin_.port n).state := (congrArg PeerPort.state uport :)
        rw [ustate] at hstate
        exact exec_to (fun s => s.onFrame n 4 f fun s _ => s.identFrameIn n f.payload) rfl hdo
          ⟨hpartner.trans (congrArg PeerPort.partner uport :), hvalid.trans (congrArg PeerPort.partnerValid uport :), hstate⟩
      · have hdo := hdo.trans (hin.trans (if_neg (Bool.eq_false_iff.mp fail)))
        obtain ⟨hstate, hcause, hpartner⟩ := mismatch_port hu
          [i1 n, i2 i.id, i1 i.x, i1 i.y, i1 i.z, i1 i.port, i2 d.member] d.member i.id
        exact exec_to (fun s => s.onFrame n 4 f fun s _ => s.identFrameIn n f.payload) rfl hdo
          ⟨hstate, hcause, hpartner.trans (congrArg PeerPort.partner uport :)⟩
    · have hdo := onFrame_good (s := s.begin_) (fun s _ => s.degradeIn n (bitAt (natLE (f.payload.take 1)) 0)) good
      rw [takeAck_of_clear clear] at hdo
      obtain ⟨hstate, hhalf, hreal⟩ := degradeIn_takes (s := s.begin_.synced n f) (bitAt (natLE (f.payload.take 1)) 0) hlen declared
        (by rw [hport]; exact full) may (by rw [hport]; exact openRetry)
      change _ = (s.begin_.synced n f).degradeIn n (bitAt (natLE (f.payload.take 1)) 0) at hdo
      generalize (s.begin_.synced n f).degradeIn n (bitAt (natLE (f.payload.take 1)) 0) = w at hdo hstate hhalf hreal
      exact exec_to (fun s => s.onFrame n 6 f fun s _ => s.degradeIn n (bitAt (natLE (f.payload.take 1)) 0)) rfl hdo
        ⟨hstate, hhalf, hreal⟩

end Sys2Proof.Machine
end

section
/-!
Update programs: what a tile does with its next word, and how invocations start and end (R190–R207).
-/

namespace Sys2Proof.Machine

/-! ### A tile issues its next word (R192, R195–R198) -/

section

variable {s : State} {tile : Nat} {w : W32} {x : TileCtx}

/-- What a tile's next instruction meets names the tile and its invocation. -/
theorem tile_of_tileCtx (h : s.tileCtx tile = some x) : x.tile = tile ∧ (s.tile tile).inv = some x.inv := by
  unfold State.tileCtx at h
  split at h
  · cases h
  case h_2 inv hinv =>
    split at h
    · cases h
    · split at h
      · cases h
      · split at h
        · cases h
        · obtain rfl := Option.some.inj h
          exact ⟨rfl, hinv⟩

theorem issue_atWord (h : s.atWord tile w x) {op : Nat} (hop : (word7 w).op = op)
    (body : State → TileCtx → Word7 → State × Bool) :
    s.issue tile w op body = if (body s x (word7 w)).2 then (body s x (word7 w)).1 else (body s x (word7 w)).1.nextWord x := by
  obtain ⟨-, hctx, hgen, hreset, hfinished, hdue, hcode⟩ := h
  unfold State.issue State.nextWord
  rw [hctx, (tile_of_tileCtx hctx).1]
  dsimp only
  rw [hgen, hreset, hfinished, hdue, hop, hcode]
  simp only [Bool.or_self, bne_self_eq_false, Bool.false_eq_true, if_false]

/-- An instruction that ends no invocation does what its body does, and the next word is next. -/
theorem issue_does {c : Instr} (h : s.atWord tile w x) {op : Nat} (hop : (word7 w).op = op)
    {body : State → TileCtx → Word7 → State × Bool} {f : State → State}
    (hc : exec c s = runUnit (tileOk tile) (fun s => s.issue tile w op body) s)
    (hf : body s.begin_ x (word7 w) = (f s.begin_, false)) : Does c s fun s => (f s).nextWord x := by
  refine does_runUnit (tileOk tile) _ hc (decide_eq_true h.1) ?_
  have hb : s.begin_.atWord tile w x := h
  rw [issue_atWord hb hop, hf]
  rfl

/-- A lane-wise instruction (R198). -/
theorem lanes_does {c : Instr} (h : s.atWord tile w x) {op : Nat} (hop : (word7 w).op = op) {uses : Bool × Bool × Bool}
    {f : W32 → W32 → W32 → W32} (hc : exec c s = runUnit (tileOk tile) (fun s => s.lanes tile w op uses f) s) :
    let i := word7 w
    let va := s.vreg tile i.a
    let vb := s.operandB x i
    let vc := s.operandC x i
    let r := (List.range 64).map fun l => f (va.getD l 0) (vb.getD l 0) (vc.getD l 0)
    Does c s fun s => ((s.setV tile i.d r).nonFiniteIf (x.anyNonFinite r || (uses.1 && x.anyNonFinite va) ||
      (uses.2.1 && x.anyNonFinite vb) || (uses.2.2 && x.anyNonFinite vc)) .tiles).nextWord x :=
  issue_does h hop hc rfl

/-- Settles O25: every lane-wise instruction is one operation of its three operands. -/
theorem laneInstructions : Obligations.LaneInstructions := by
  unfold Obligations.LaneInstructions
  intro s tile w x h i va vb vc a b c does na nb nc
  have lanes {cmd : Instr} {op : Nat} {g : Nat → W32} {bad : Bool} (uses : Bool × Bool × Bool) (f : W32 → W32 → W32 → W32)
      (hc : exec cmd s = runUnit (tileOk tile) (fun s => s.lanes tile w op uses f) s) (hg : g = fun l => f (a l) (b l) (c l))
      (hbad : bad = (uses.1 && na || uses.2.1 && nb || uses.2.2 && nc)) (hop : i.op = op) : does cmd g bad := by
    subst hg hbad
    have hlanes := lanes_does h hop hc
    simp only [Bool.or_assoc] at hlanes ⊢
    exact hlanes
  refine ⟨fun hop => issue_does (f := id) h hop rfl rfl, ?_, ?_, ?_, ?_, ?_, ?_, ?_, ?_, ?_, ?_, ?_, ?_, ?_, ?_⟩
  · exact lanes (false, true, false) (fun _ b _ => f32Canon b) rfl rfl (by simp)
  · exact lanes (true, true, false) (fun a b _ => f32Add a b) rfl rfl (by simp)
  · exact lanes (true, true, false) (fun a b _ => f32Sub a b) rfl rfl (by simp)
  · exact lanes (true, true, false) (fun a b _ => f32Mul a b) rfl rfl (by simp)
  · exact lanes (true, true, false) (fun a b _ => f32Div a b) rfl rfl (by simp)
  · exact lanes (true, true, false) (fun a b _ => f32Min a b) rfl rfl (by simp)
  · exact lanes (true, true, false) (fun a b _ => f32Max a b) rfl rfl (by simp)
  · exact lanes (true, true, true) f32Fma rfl rfl (by simp)
  · exact lanes (true, true, true) (fun a b c => f32Fma (f32Neg a) b c) rfl rfl (by simp)
  · exact lanes (true, false, false) (fun a _ _ => f32Sqrt a) rfl rfl (by simp)
  · exact lanes (true, false, false) (fun a _ _ => f32Canon (f32Abs a)) rfl rfl (by simp)
  · exact lanes (true, false, false) (fun a _ _ => f32Canon (f32Neg a)) rfl rfl (by simp)
  · exact lanes (true, true, false) (fun a b _ => if f32Lt a b then f32One else 0) rfl rfl (by simp)
  · exact lanes (true, true, true) (fun a b c => f32Canon (if f32IsZero c then b else a)) rfl rfl (by simp)

end

/-! ### Accumulators (R66–R72, R198, R200) -/

section

variable {s : State} {tile : Nat} {w : W32} {x : TileCtx}

/-- Settles O26: ACC and ACCSQ accumulate one function of vA, and FOLD folds the register. -/
theorem accumulatorInstructions : Obligations.AccumulatorInstructions := by
  unfold Obligations.AccumulatorInstructions
  intro s tile w x h i v acc bad sum
  exact ⟨fun hop => issue_does h hop rfl rfl, fun hop => issue_does h hop rfl rfl, fun hop => issue_does h hop rfl rfl⟩

/-! ### Loads and the update scratch (R194, R198, R203, R204, R211) -/

/-- Loads of the FP32 master read the active bank as it stands (R211). -/
theorem loadLane_master (s : State) (x : TileCtx) (full : s.decl.lean = false) (l : Nat) :
    s.loadLane x 3 l =
      (w32LE (memRead s.stateMem ((s.dirEntry x.inv.tensor).wBase + s.bank * s.decl.bank1Off + 4 * (x.at_.flat + l)) 4), false) :=
  if_neg (Bool.eq_false_iff.mp full)

theorem inRegionS_iff (a : Nat) : inRegionS a = true ↔ 0x440000 ≤ a ∧ a < 0x450000 := by
  simp [inRegionS]

theorem inRegionC_iff (s : State) (a : Nat) :
    s.inRegionC a = true ↔ 0x500000 ≤ a ∧ a + 256 ≤ 0x500000 + s.img.regionC.length := by
  simp [State.inRegionC]

theorem loadX_inside (a : Nat) (ha : a = x.xAddr (word7 w)) (h : s.atWord tile w x) (hop : (word7 w).op = 0x12)
    (inside : (0x440000 ≤ a ∧ a < 0x450000) ∨ (0x500000 ≤ a ∧ a + 256 ≤ 0x500000 + s.img.regionC.length)) :
    let bytes := if 0x440000 ≤ a ∧ a < 0x450000 then memRead (s.regionS x) (a - 0x440000) 256
      else (s.img.regionC.drop (a - 0x500000)).take 256
    Does (.ldx tile w) s fun s =>
      let v := (List.range 64).map fun l => if x.active l then f32Canon (w32LE (bytes.drop (4 * l))) else 0
      ((s.setV tile (word7 w).d v).nonFiniteIf (v.any f32NonFinite) .tiles).nextWord x := by
  intro bytes
  refine issue_does h hop rfl ?_
  subst ha
  dsimp only
  rw [← inRegionS_iff, ← inRegionC_iff, ← Bool.or_eq_true] at inside
  refine (if_pos inside).trans ?_
  simp only [inRegionS_iff]
  rfl

theorem storeX_inside (a : Nat) (ha : a = x.xAddr (word7 w)) (h : s.atWord tile w x) (hop : (word7 w).op = 0x13)
    (inside : 0x440000 ≤ a ∧ a < 0x450000) :
    Does (.stx tile w) s fun s =>
      let m := (s.vreg tile (word7 w).d).zipIdx.foldl
        (fun m p => if x.active p.2 then memWrite m (a - 0x440000 + 4 * p.2) (bytes32 p.1) else m) (s.regionS x)
      let bad := (s.vreg tile (word7 w).d).zipIdx.any fun p => x.active p.2 && f32NonFinite p.1
      ((s.nonFiniteIf bad .tiles).setTile tile fun t =>
        if x.inv.isSection then { t with regSBlock := m } else { t with regS := m }).nextWord x := by
  refine issue_does h hop rfl ?_
  subst ha
  dsimp only
  refine (if_pos ((inRegionS_iff _).mpr inside)).trans ?_
  have hv (bad : Bool) (u : State) (n : Nat) : (u.nonFiniteIf bad .tiles).vreg tile n = u.vreg tile n := by cases bad <;> rfl
  have hr (bad : Bool) (u : State) : (u.nonFiniteIf bad .tiles).regionS x = u.regionS x := by cases bad <;> rfl
  simp only [hv, hr]

/-- What a program fault shows, apart from the invocation that it ends. -/
def State.faultSide (s : State) : JqBlock × Mem × Mem × JsBlock × ProgFault := (s.jq, s.stateMem, s.hostMem, s.js, s.ju.progFault)

theorem leaveInv_faultSide (s : State) (tile : Nat) : (s.leaveInv tile).faultSide = s.faultSide := by
  unfold State.leaveInv
  dsimp only
  split <;> rfl

theorem consume_faultSide (s : State) (i : Nat) : (s.consume i).faultSide = s.faultSide := rfl

/-- The fault as it is recorded, before its invocation ends. -/
def State.recordFault (s : State) (x : TileCtx) (cause addr : Nat) : State :=
  let s := s.fault
  let s := if s.ju.progFault.valid then s
    else { s with ju := { s.ju with progFault :=
      ⟨BitVec.ofNat 3 cause, true, BitVec.ofNat 6 x.tile, x.inv.epoch, BitVec.ofNat 13 x.pc, BitVec.ofNat 23 addr⟩ } }
  s.event x.tile 0x0601 1
    [i1 cause, i2 x.tile, i1 x.inv.epoch.toNat, i4 x.pc, i4 addr, i4 x.inv.tensor, i8 s.jq.step.toNat]

theorem progFault_faultSide (s : State) (x : TileCtx) (cause addr : Nat) :
    (s.progFault x cause addr).faultSide = (s.recordFault x cause addr).faultSide := by
  have hrecord : s.progFault x cause addr = if x.inv.isSection then
      let u := (s.recordFault x cause addr).leaveInv x.tile
      let u := { u with ju := { u.ju with norms := u.ju.norms.filter fun n =>
        !(n.tensor == x.inv.tensor && n.isBlock && n.index == x.inv.index) } }
      (u.blockChunks x.cat x.inv.index).foldl State.consume (u.endSection x.inv.tensor x.inv.index)
    else ((s.recordFault x cause addr).leaveInv x.tile).consume x.inv.index := rfl
  rw [hrecord]
  have hleft := leaveInv_faultSide (s.recordFault x cause addr) x.tile
  generalize (s.recordFault x cause addr).leaveInv x.tile = u at hleft ⊢
  rw [← hleft]
  split
  · exact foldl_view (g := State.faultSide) (fun s i => consume_faultSide s i) ..
  · exact consume_faultSide ..

/-- A program fault: FAULT, EV_PROG_FAULT, and the first one latched (R203, R204). -/
theorem progFault_effect (s : State) (x : TileCtx) (cause addr : Nat) :
    let t := s.progFault x cause addr
    t.jq.verdict.fault = true ∧ t.stateMem = s.stateMem ∧ t.hostMem = s.hostMem ∧
      (∃ e : EvRec, e.code = 0x0601 ∧ t.js.ring = { s.js.ring with evq := s.js.ring.evq ++ [e] }) ∧
      (s.ju.progFault.valid = false → t.ju.progFault =
        ⟨BitVec.ofNat 3 cause, true, BitVec.ofNat 6 x.tile, x.inv.epoch, BitVec.ofNat 13 x.pc, BitVec.ofNat 23 addr⟩) := by
  intro t
  have hside : t.faultSide = _ := progFault_faultSide s x cause addr
  generalize t = u at hside
  generalize hr : s.recordFault x cause addr = r at hside
  obtain ⟨hfault, hstate, hhost, hring, hlatch⟩ : r.jq.verdict.fault = true ∧ r.stateMem = s.stateMem ∧ r.hostMem = s.hostMem ∧
      (∃ e : EvRec, e.code = 0x0601 ∧ r.js.ring = { s.js.ring with evq := s.js.ring.evq ++ [e] }) ∧
      (s.ju.progFault.valid = false → r.ju.progFault =
        ⟨BitVec.ofNat 3 cause, true, BitVec.ofNat 6 x.tile, x.inv.epoch, BitVec.ofNat 13 x.pc, BitVec.ofNat 23 addr⟩) := by
    subst hr
    unfold State.recordFault
    dsimp only
    split
    · next valid => exact ⟨rfl, rfl, rfl, ⟨_, rfl, rfl⟩, fun first => absurd valid (Bool.eq_false_iff.mp first)⟩
    · exact ⟨rfl, rfl, rfl, ⟨_, rfl, rfl⟩, fun _ => rfl⟩
  have hjq : u.jq = r.jq := congrArg (·.1) hside
  have hsm : u.stateMem = r.stateMem := congrArg (·.2.1) hside
  have hhm : u.hostMem = r.hostMem := congrArg (·.2.2.1) hside
  have hjs : u.js = r.js := congrArg (·.2.2.2.1) hside
  have hpf : u.ju.progFault = r.ju.progFault := congrArg (·.2.2.2.2) hside
  rw [hjq, hsm, hhm, hjs, hpf]
  exact ⟨hfault, hstate, hhost, hring, hlatch⟩

theorem mem_consume (s : State) (i : Nat) : i ∈ (s.consume i).jx.consumed := by
  show i ∈ if s.jx.consumed.contains i then s.jx.consumed else i :: s.jx.consumed
  split
  · next h => exact List.contains_iff_mem.mp h
  · exact List.mem_cons_self

/-- A fault of an element program consumes its chunk (R203). -/
theorem progFault_consumed (s : State) (x : TileCtx) (cause addr : Nat) (element : x.inv.isSection = false) :
    x.inv.index ∈ (s.progFault x cause addr).jx.consumed := by
  unfold State.progFault
  dsimp only
  rw [element]
  exact mem_consume ..

/-- An access outside its region is a program fault (R203, R204). -/
theorem faults_of_issue {s : State} {tile : Nat} {w : W32} {x : TileCtx} {c : Instr} {cause a : Nat} (h : s.atWord tile w x)
    (he : s.eventsIn = true) {g : State → State} (hc : exec c s = run g s) (hg : g s.begin_ = s.begin_.progFault x cause a) :
    ∃ t, exec c s = .next t ∧ t.jq.verdict.fault = true ∧
      t.stateMem = s.stateMem ∧ t.hostMem = s.hostMem ∧ t.newest.map EvEntry.code = some 0x0601 ∧
      (s.ju.progFault.valid = false → t.ju.progFault =
        ⟨BitVec.ofNat 3 cause, true, BitVec.ofNat 6 tile, x.inv.epoch, BitVec.ofNat 13 x.pc, BitVec.ofNat 23 a⟩) ∧
      (x.inv.isSection = false → x.inv.index ∈ t.jx.consumed) := by
  obtain ⟨hfault, hstate, hhost, ⟨e, hcode, hring⟩, hlatch⟩ := progFault_effect s.begin_ x cause a
  have hconsumed := progFault_consumed s.begin_ x cause a
  rw [(tile_of_tileCtx h.2.1).1] at hlatch
  generalize s.begin_.progFault x cause a = u at hg hfault hstate hhost hring hlatch hconsumed
  have hnewest : u.finish.newest.map EvEntry.code = some 0x0601 := by
    rw [newest_code_of_one (u := u) (r := s.begin_.js.ring) (evq_of_eventsIn he) hring, hcode]
    rfl
  exact exec_to g hc hg ⟨hfault, hstate, hhost, hnewest, hlatch, hconsumed⟩

theorem loadX_outside {s : State} {tile : Nat} {w : W32} {x : TileCtx} (h : s.atWord tile w x) (hop : (word7 w).op = 0x12)
    (outS : ¬(0x440000 ≤ x.xAddr (word7 w) ∧ x.xAddr (word7 w) < 0x450000))
    (outC : ¬(0x500000 ≤ x.xAddr (word7 w) ∧ x.xAddr (word7 w) + 256 ≤ 0x500000 + s.img.regionC.length)) :
    s.loadX tile w = s.progFault x 3 (x.xAddr (word7 w)) := by
  rw [← inRegionS_iff] at outS
  rw [← inRegionC_iff] at outC
  have hout : ¬((inRegionS (x.xAddr (word7 w)) || s.inRegionC (x.xAddr (word7 w))) = true) := by
    rw [Bool.or_eq_true]
    exact fun h => h.elim outS outC
  unfold State.loadX
  rw [issue_atWord h hop]
  dsimp only
  rw [if_neg hout]
  rfl

theorem storeX_outside {s : State} {tile : Nat} {w : W32} {x : TileCtx} (h : s.atWord tile w x) (hop : (word7 w).op = 0x13)
    (outS : ¬(0x440000 ≤ x.xAddr (word7 w) ∧ x.xAddr (word7 w) < 0x450000)) :
    s.storeX tile w =
      s.progFault x (if 0x400000 ≤ x.xAddr (word7 w) ∧ x.xAddr (word7 w) < 0x430000 then 1 else 2) (x.xAddr (word7 w)) := by
  rw [← inRegionS_iff] at outS
  unfold State.storeX
  rw [issue_atWord h hop]
  dsimp only
  rw [if_neg outS]
  rfl

/-- Settles O27: loads read what stands there, and an access outside its regions faults. -/
theorem loadsAndScratchAccesses : Obligations.LoadsAndScratchAccesses := by
  unfold Obligations.LoadsAndScratchAccesses
  constructor <;> intro s tile w x h
  · intro i vals hop
    exact ⟨issue_does h hop rfl rfl, fun full l => loadLane_master s x full l⟩
  · intro he i a inS inC bytes faults
    have htile := decide_eq_true h.1
    refine ⟨fun hop inside => loadX_inside a rfl h hop inside, fun hop outS outC => ?_, fun hop inside => storeX_inside a rfl h hop inside,
      fun hop outS => ?_⟩
    · exact faults_of_issue h he (runUnit_next _ (State.loadX · tile w) s htile) (loadX_outside (s := s.begin_) h hop outS outC)
    · exact faults_of_issue h he (runUnit_next _ (State.storeX · tile w) s htile) (storeX_outside (s := s.begin_) h hop outS)

end

/-! ### Stores (R60–R63, R194, R208, R211, R221) -/

theorem bytesLE_length (n x : Nat) : (bytesLE n x).length = n := by
  induction n generalizing x with
  | zero => rfl
  | succ n ih => exact congrArg (· + 1) (ih _)

theorem jb8Bytes_length (codes : List Byte) (v : W16) : (jb8Bytes codes v).length = codes.length + 2 := by
  unfold jb8Bytes bytes16
  rw [List.length_append, bytesLE_length]

theorem jb8M1_length {ms : List W32} {rs : List (Option W16)} (h : rs.length = ms.length) : (jb8M1 ms rs).1.length = ms.length := by
  unfold jb8M1
  dsimp only
  split
  · exact List.length_map ..
  · split
    · exact List.length_map ..
    · rw [List.length_zipWith, h, Nat.min_self]

theorem jb8M2_length {vs : List W32} {rs : List (Option W16)} (h : rs.length = vs.length) : (jb8M2 vs rs).1.length = vs.length := by
  unfold jb8M2
  dsimp only
  split
  · exact List.length_map ..
  · split
    · exact List.length_map ..
    · rw [List.length_zipWith, List.length_map, h, Nat.min_self]

/-- What an update leaves of a tile it leaves of every tile. -/
theorem tile_setTile_keeps {α : Type} (view : TileSt → α) {f : TileSt → TileSt} (h : ∀ t, view (f t) = view t) (s : State) (k n : Nat) :
    view ((s.setTile k f).tile n) = view (s.tile n) := by
  show view ((modifyNth f k s.tiles).getD n TileSt.reset) = view (s.tiles.getD n TileSt.reset)
  exact (List.getD_map _ _ view).symm.trans ((congrArg (·.getD n (view TileSt.reset)) (map_modifyNth_of_eq h k s.tiles)).trans
    (List.getD_map _ _ view))

theorem setInv_regs (s : State) (k n : Nat) (f : Inv → Inv) : ((s.setInv k f).tile n).regs = (s.tile n).regs :=
  tile_setTile_keeps TileSt.regs (by exact fun _ => rfl) s k n

/-- What a store leaves: the slot and step sequencing and the registers of the tile, and the two memories that it may write. -/
structure Stores (tile : Nat) (host state : Mem) (s t : State) : Prop where
  jq : t.jq = s.jq
  regs : (t.tile tile).regs = (s.tile tile).regs
  host : t.hostMem = host
  state : t.stateMem = state

theorem hostWrite_stores (s : State) (unit tile a : Nat) (b : List Byte) :
    Stores tile (memWrite s.hostMem a b) s.stateMem s (s.hostWrite unit a b) := by
  have h := hostWrite_noPorts s unit a b
  exact ⟨(congrArg State.jq h :), (congrArg (fun u : State => (u.tile tile).regs) h :), (congrArg State.hostMem h :), (congrArg State.stateMem h :)⟩

theorem stateWrite_stores (s : State) (unit tile a : Nat) (b : List Byte) :
    Stores tile s.hostMem (memWrite s.stateMem a b) s (s.stateWrite unit a b) := by
  have h := stateWrite_noPorts s unit a b
  exact ⟨(congrArg State.jq h :), (congrArg (fun u : State => (u.tile tile).regs) h :), (congrArg State.hostMem h :), (congrArg State.stateMem h :)⟩

theorem Stores.setInv {tile : Nat} {host state : Mem} {s t : State} (h : Stores tile host state s t) (k : Nat) (f : Inv → Inv) :
    Stores tile host state s (t.setInv k f) :=
  ⟨h.jq, (setInv_regs t k tile f).trans h.regs, h.host, h.state⟩

/-- A sticky bit that a store sets besides. -/
theorem Stores.nonFinite {tile : Nat} {host state : Mem} {s t : State} {bad : Bool} {u : NfUnit}
    (h : Stores tile host state (s.nonFiniteIf bad u) t) : Stores tile host state s t := by
  cases bad
  · exact h
  · exact ⟨h.jq, h.regs, h.host, h.state⟩

/-- The stored bytes go to the inactive bank, of host memory or of the state tier (R211). -/
theorem storeBytes_stores (s : State) (x : TileCtx) (tile stream : Nat) (host : Bool) (addr0 : Nat) (b : List Byte) :
    Stores tile
      (if host then memWrite s.hostMem (addr0 + (1 - s.jq.step.toNat % 2) * s.decl.hbank1Off) b else s.hostMem)
      (if host then s.stateMem else memWrite s.stateMem (addr0 + (1 - s.jq.step.toNat % 2) * s.decl.bank1Off) b) s
      (s.storeBytes x stream host addr0 b) := by
  unfold State.storeBytes
  dsimp only
  by_cases copy : stream = 11
  · rw [if_pos copy]
    cases host
    · exact stateWrite_stores ..
    · exact hostWrite_stores ..
  · rw [if_neg copy]
    cases host
    · exact (stateWrite_stores ..).setInv ..
    · exact (hostWrite_stores ..).setInv ..

/-- So too behind a sticky bit. -/
theorem storeBytes_nonFinite (s : State) (bad : Bool) (x : TileCtx) (tile stream : Nat) (host : Bool) (addr0 : Nat) (b : List Byte) :
    Stores tile
      (if host then memWrite s.hostMem (addr0 + (1 - s.jq.step.toNat % 2) * s.decl.hbank1Off) b else s.hostMem)
      (if host then s.stateMem else memWrite s.stateMem (addr0 + (1 - s.jq.step.toNat % 2) * s.decl.bank1Off) b) s
      ((s.nonFiniteIf bad .tiles).storeBytes x stream host addr0 b) := by
  have h := storeBytes_stores (s.nonFiniteIf bad .tiles) x tile stream host addr0 b
  cases bad <;> exact h.nonFinite

/-! ### The gradient buffers (R194) -/

theorem giveArea_eq (s : State) (tile : Nat) (b : Nat × Nat) : s.giveArea tile b = { s with ju := (s.giveArea tile b).ju } := by
  unfold State.giveArea
  split
  · rfl
  · split <;> rfl

theorem giveArea_ju {s t : State} (hju : t.ju = s.ju) (hdecl : t.decl = s.decl) (tile : Nat) (b : Nat × Nat) :
    (t.giveArea tile b).ju = (s.giveArea tile b).ju := by
  unfold State.giveArea State.areaOf
  rw [hju, hdecl]
  split
  · exact hju
  · split
    · rfl
    · exact hju

theorem giveArea_decl (s : State) (tile : Nat) (b : Nat × Nat) : (s.giveArea tile b).decl = s.decl := by
  rw [giveArea_eq]
  rfl

/-- The work areas given depend on the areas held and on the image's declarations only. -/
theorem giveAreas_ju {s t : State} (hju : t.ju = s.ju) (hdecl : t.decl = s.decl) (x : TileCtx) (vals : List W32) :
    (t.giveAreas x vals).ju = (s.giveAreas x vals).ju := by
  unfold State.giveAreas
  induction x.gbGroups vals generalizing s t with
  | nil => exact hju
  | cons g l ih => exact ih (giveArea_ju hju hdecl ..) ((giveArea_decl ..).trans (hdecl.trans (giveArea_decl ..).symm))

theorem giveAreas_stores (s : State) (tile : Nat) (x : TileCtx) (vals : List W32) :
    Stores tile s.hostMem s.stateMem s (s.giveAreas x vals) := by
  unfold State.giveAreas
  induction x.gbGroups vals generalizing s with
  | nil => exact ⟨rfl, rfl, rfl, rfl⟩
  | cons g l ih =>
    have h := ih (s.giveArea x.tile (x.inv.tensor, g.1.1))
    have hg : Stores tile s.hostMem s.stateMem s (s.giveArea x.tile (x.inv.tensor, g.1.1)) := by
      rw [giveArea_eq]
      exact ⟨rfl, rfl, rfl, rfl⟩
    exact ⟨h.jq.trans hg.jq, h.regs.trans hg.regs, h.host.trans hg.host, h.state.trans hg.state⟩

theorem foldl_stateWrite_stores (tile unit : Nat) (l : List (Nat × List Byte)) (s : State) :
    Stores tile s.hostMem (l.foldl (fun m p => memWrite m p.1 p.2) s.stateMem) s
      (l.foldl (fun s p => s.stateWrite unit p.1 p.2) s) := by
  induction l generalizing s with
  | nil => exact ⟨rfl, rfl, rfl, rfl⟩
  | cons p l ih =>
    have h := ih (s.stateWrite unit p.1 p.2)
    have hw := stateWrite_stores s unit tile p.1 p.2
    rw [hw.host, hw.state] at h
    exact ⟨h.jq.trans hw.jq, h.regs.trans hw.regs, h.host, h.state⟩

theorem gbPieces_congr {s t : State} (hju : t.ju = s.ju) (x : TileCtx) (vals : List W32) : t.gbPieces x vals = s.gbPieces x vals := by
  unfold State.gbPieces State.bufAddr State.areaOf
  rw [hju]

theorem storeGb_stores (s : State) (tile : Nat) (x : TileCtx) (vals : List W32) :
    Stores tile s.hostMem (((s.giveAreas x vals).gbPieces x vals).foldl (fun m p => memWrite m p.1 p.2) s.stateMem) s
      (s.storeGb x vals) := by
  have hpieces (bad : Bool) : ((s.nonFiniteIf bad .tiles).giveAreas x vals).gbPieces x vals = (s.giveAreas x vals).gbPieces x vals :=
    gbPieces_congr (giveAreas_ju (by cases bad <;> rfl) (by cases bad <;> rfl) x vals) x vals
  unfold State.storeGb
  dsimp only
  rw [hpieces]
  generalize vals.any f32NonFinite = bad
  have hg := giveAreas_stores (s.nonFiniteIf bad .tiles) tile x vals
  have hf := foldl_stateWrite_stores tile x.tile ((s.giveAreas x vals).gbPieces x vals) ((s.nonFiniteIf bad .tiles).giveAreas x vals)
  rw [hg.host, hg.state] at hf
  have hall : Stores tile (s.nonFiniteIf bad .tiles).hostMem _ (s.nonFiniteIf bad .tiles) _ :=
    ⟨hf.jq.trans hg.jq, hf.regs.trans hg.regs, hf.host, hf.state⟩
  cases bad <;> exact hall.nonFinite

/-! ### The streams of a store -/

theorem mapIdx_of_value {α β : Type} (f : α → β) (l : List α) : (l.mapIdx fun _ a => f a) = l.map f := by
  refine List.ext_getElem (by simp) fun i _ _ => ?_
  simp

/-- An iteration has at most the 64 lanes of a vector active (R192). -/
theorem act_le {s : State} {tile : Nat} {x : TileCtx} (h : s.tileCtx tile = some x) : x.at_.act ≤ 64 := by
  have hiter (c : CatEntry) (inv : Inv) (e : Option ChunkEntry) : (iterAt c inv e).act ≤ 64 := by
    unfold iterAt
    split
    · exact le_refl 64
    · split
      · exact Nat.min_le_left ..
      · exact Nat.zero_le 64
  unfold State.tileCtx at h
  split at h
  · cases h
  · split at h
    · cases h
    · split at h
      · cases h
      · split at h
        · cases h
        · obtain rfl := Option.some.inj h
          exact hiter ..

/-- The stored blocks of a moment (R60). -/
def jb8Blocks (conv : List W32 → List (Option W16) → List Byte × W16 × Bool) (round : List W32 → Nat → List (Option W16))
    (vals : List W32) (n : Nat) : List Byte :=
  (List.range n).flatMap fun k =>
    let vs := (vals.drop (32 * k)).take 32
    let r := conv vs (round vs k)
    jb8Bytes r.1 r.2.1

theorem jb8Blocks_length {conv : List W32 → List (Option W16) → List Byte × W16 × Bool}
    (hconv : ∀ ms rs, rs.length = ms.length → (conv ms rs).1.length = ms.length) {round : List W32 → Nat → List (Option W16)}
    (hround : ∀ vs k, (round vs k).length = vs.length) {vals : List W32} {n : Nat} (hn : 32 * n ≤ vals.length) :
    (jb8Blocks conv round vals n).length = 34 * n := by
  have hblock : ∀ k ∈ List.range n, (jb8Bytes (conv ((vals.drop (32 * k)).take 32) (round ((vals.drop (32 * k)).take 32) k)).1
      (conv ((vals.drop (32 * k)).take 32) (round ((vals.drop (32 * k)).take 32) k)).2.1).length = 34 := fun k hk => by
    have hk := List.mem_range.mp hk
    rw [jb8Bytes_length, hconv _ _ (hround ..), List.length_take, List.length_drop]
    omega
  unfold jb8Blocks
  rw [List.length_flatMap, List.map_congr_left hblock, List.map_const', List.sum_replicate, List.length_range]
  simp only [smul_eq_mul]
  omega

/-- How a tensor's moments are rounded: by the seed's random words, or to the nearest value (R61, R63). -/
def State.momentRounds (s : State) (x : TileCtx) (p : Purpose) (vs : List W32) (k : Nat) : List (Option W16) :=
  vs.mapIdx fun j _ => if x.cat.srM then some (srValue s.ju.seed p x.inv.tensor (x.at_.flat + 32 * k + j) s.jq.step 0) else none

theorem momentRounds_plain (s : State) (x : TileCtx) (p : Purpose) (plain : x.cat.srM = false) (vs : List W32) (k : Nat) :
    s.momentRounds x p vs k = vs.map fun _ => none := by
  unfold State.momentRounds
  rw [plain]
  exact mapIdx_of_value (fun _ => none) vs

theorem storeJb8_stores (s : State) (tile : Nat) (x : TileCtx) (stream base : Nat) (p : Purpose)
    (conv : List W32 → List (Option W16) → List Byte × W16 × Bool) (vals : List W32) :
    Stores tile s.hostMem (memWrite s.stateMem (base + 34 * (x.at_.flat / 32) + (1 - s.jq.step.toNat % 2) * s.decl.bank1Off)
      (jb8Blocks conv (s.momentRounds x p) vals (x.at_.act / 32))) s (s.storeJb8 x stream base p conv vals) := by
  unfold State.storeJb8
  dsimp only
  rw [List.flatMap_map]
  exact storeBytes_nonFinite s _ x tile stream false _ _

theorem storeWn_full (s : State) (tile : Nat) (x : TileCtx) (vals : List W32) (full : s.decl.lean = false) :
    Stores tile s.hostMem (memWrite s.stateMem
      ((s.dirEntry x.inv.tensor).wBase + 4 * x.at_.flat + (1 - s.jq.step.toNat % 2) * s.decl.bank1Off) (vals.flatMap bytes32)) s
      (s.storeWn x vals) := by
  unfold State.storeWn
  rw [full]
  exact storeBytes_nonFinite s _ x tile 8 false _ _

/-- The lean weights' bytes (R208). -/
def State.leanBytes (s : State) (x : TileCtx) (vals : List W32) : List Byte :=
  (vals.mapIdx fun l v => if x.cat.srW then bf16Sr v (srValue s.ju.seed .weight x.inv.tensor (x.at_.flat + l) s.jq.step 0)
    else bf16Rne v).flatMap bytes16

theorem leanBytes_plain (s : State) (x : TileCtx) (vals : List W32) (plain : x.cat.srW = false) :
    s.leanBytes x vals = vals.flatMap fun v => bytes16 (bf16Rne v) := by
  unfold State.leanBytes
  rw [plain]
  exact (congrArg (List.flatMap bytes16) (mapIdx_of_value bf16Rne vals)).trans (List.flatMap_map ..)

theorem storeWn_lean (s : State) (tile : Nat) (x : TileCtx) (vals : List W32) (hlean : s.decl.lean = true) :
    Stores tile (memWrite s.hostMem
      ((s.dirEntry x.inv.tensor).wBase + 2 * x.at_.flat + (1 - s.jq.step.toNat % 2) * s.decl.hbank1Off) (s.leanBytes x vals))
      s.stateMem s (s.storeWn x vals) := by
  unfold State.storeWn
  rw [hlean]
  exact storeBytes_nonFinite s _ x tile 8 true _ _

theorem storeWc_bf16 (s : State) (tile : Nat) (x : TileCtx) (vals : List W32) (wide : x.cat.cls = 2) :
    Stores tile (memWrite s.hostMem
      ((s.dirEntry x.inv.tensor).wcBase + 2 * x.at_.flat + (1 - s.jq.step.toNat % 2) * s.decl.hbank1Off)
        (vals.flatMap fun v => bytes16 (bf16Rne v))) s.stateMem s (s.storeWc x vals) := by
  unfold State.storeWc
  dsimp only
  rw [if_pos wide, List.flatMap_map]
  exact storeBytes_nonFinite s _ x tile 11 true _ _

theorem storeWc_fp8 (s : State) (tile : Nat) (x : TileCtx) (vals : List W32) (narrow : x.cat.cls ≠ 2) :
    Stores tile (memWrite s.hostMem
      ((s.dirEntry x.inv.tensor).wcBase + x.at_.flat + (1 - s.jq.step.toNat % 2) * s.decl.hbank1Off)
        (vals.map fun v => fp8Of (s.dirEntry x.inv.tensor).e5m2 (f32Mul v (f32Pow2 (s.scaleE x.inv.tensor))))) s.stateMem s
      (s.storeWc x vals) := by
  unfold State.storeWc
  dsimp only
  rw [if_neg narrow, List.map_map]
  exact storeBytes_nonFinite s _ x tile 11 true _ _

/-- A store to the stream that its word names (R194). -/
def State.storeTo (s : State) (x : TileCtx) (stream : Nat) (vals : List W32) : State :=
  match stream with
  | 1 => s.storeGb x vals
  | 8 => s.storeWn x vals
  | 9 => s.storeJb8 x 9 (s.dirEntry x.inv.tensor).m1Base .moment1 jb8M1 vals
  | 10 => s.storeJb8 x 10 (s.dirEntry x.inv.tensor).m2Base .moment2 jb8M2 vals
  | 11 => s.storeWc x vals
  | _ => s

theorem storeStream_eq {s : State} {tile : Nat} {w : W32} {x : TileCtx} (h : s.atWord tile w x) (hop : (word7 w).op = 0x11) :
    s.storeStream tile w = (s.storeTo x (word7 w).d ((s.vreg tile (word7 w).a).take x.at_.act)).nextWord x :=
  issue_atWord h hop _

/-- Whatever the stream, a store leaves the sequencing and the registers. -/
theorem storeTo_stores (s : State) (tile : Nat) (x : TileCtx) (stream : Nat) (vals : List W32) :
    ∃ host state : Mem, Stores tile host state s (s.storeTo x stream vals) := by
  unfold State.storeTo
  split
  · exact ⟨_, _, storeGb_stores ..⟩
  · cases hlean : s.decl.lean
    · exact ⟨_, _, storeWn_full s tile x vals hlean⟩
    · exact ⟨_, _, storeWn_lean s tile x vals hlean⟩
  · exact ⟨_, _, storeJb8_stores ..⟩
  · exact ⟨_, _, storeJb8_stores ..⟩
  · by_cases wide : x.cat.cls = 2
    · exact ⟨_, _, storeWc_bf16 s tile x vals wide⟩
    · exact ⟨_, _, storeWc_fp8 s tile x vals wide⟩
  · exact ⟨_, _, rfl, rfl, rfl, rfl⟩

theorem jb8Blocks_congr {conv : List W32 → List (Option W16) → List Byte × W16 × Bool} {f g : List W32 → Nat → List (Option W16)}
    (h : ∀ vs k, f vs k = g vs k) (vals : List W32) (n : Nat) : jb8Blocks conv f vals n = jb8Blocks conv g vals n := by
  rw [show f = g from funext fun vs => funext (h vs)]

theorem momentRounds_length (s : State) (x : TileCtx) (p : Purpose) (vs : List W32) (k : Nat) :
    (s.momentRounds x p vs k).length = vs.length := List.length_mapIdx

/-- Settles O28: a store writes one run of bytes to the inactive bank, and nothing of the sequencing. -/
theorem storesWriteTheInactiveBank : Obligations.StoresWriteTheInactiveBank := by
  unfold Obligations.StoresWriteTheInactiveBank
  intro s tile w x h i vals d other jb8 hop hfull
  have hdo := storeStream_eq (s := s.begin_) h hop
  obtain ⟨host, state, hall⟩ := storeTo_stores s.begin_ tile x i.d vals
  have hlen : 32 * (x.at_.act / 32) ≤ vals.length := by
    have hact := act_le h.2.1
    rw [List.length_take, hfull]
    omega
  have named (host state : Mem) {stream : Nat} (hd : i.d = stream) (hs : Stores tile host state s.begin_ (s.begin_.storeTo x stream vals)) :
      (s.begin_.storeTo x i.d vals).hostMem = host ∧ (s.begin_.storeTo x i.d vals).stateMem = state := by
    rw [hd]
    exact ⟨hs.host, hs.state⟩
  have gb := fun hd : i.d = 1 => named _ _ hd (storeGb_stores s.begin_ tile x vals)
  have wn := fun (hd : i.d = 8) full => named _ _ hd (storeWn_full s.begin_ tile x vals full)
  have wl := fun (hd : i.d = 8) lean => named _ _ hd (storeWn_lean s.begin_ tile x vals lean)
  have m1 := fun hd : i.d = 9 => named _ _ hd (storeJb8_stores s.begin_ tile x 9 d.m1Base .moment1 jb8M1 vals)
  have m2 := fun hd : i.d = 10 => named _ _ hd (storeJb8_stores s.begin_ tile x 10 d.m2Base .moment2 jb8M2 vals)
  have wc := fun (hd : i.d = 11) wide => named _ _ hd (storeWc_bf16 s.begin_ tile x vals wide)
  have wf := fun (hd : i.d = 11) narrow => named _ _ hd (storeWc_fp8 s.begin_ tile x vals narrow)
  have blocks (conv : List W32 → List (Option W16) → List Byte × W16 × Bool) (p : Purpose)
      (hconv : ∀ ms rs, rs.length = ms.length → (conv ms rs).1.length = ms.length) :
      (jb8Blocks conv (s.begin_.momentRounds x p) vals (x.at_.act / 32)).length = 34 * (x.at_.act / 32) ∧
        (x.cat.srM = false → jb8Blocks conv (s.begin_.momentRounds x p) vals (x.at_.act / 32) = jb8 conv) :=
    ⟨jb8Blocks_length hconv (momentRounds_length s.begin_ x p) hlen, fun plain => jb8Blocks_congr (momentRounds_plain s.begin_ x p plain) ..⟩
  have m1blocks := blocks jb8M1 .moment1 fun _ _ => jb8M1_length
  have m2blocks := blocks jb8M2 .moment2 fun _ _ => jb8M2_length
  rw [gbPieces_congr (giveAreas_ju (s := s) (t := s.begin_) rfl rfl x vals)] at gb
  change _ = (s.begin_.storeTo x i.d vals).nextWord x at hdo
  have hend := hall.setInv x.tile fun i => i.next x.pass x.iters
  generalize hu : s.begin_.storeTo x i.d vals = u at *
  refine exec_to (State.storeStream · tile w) (runUnit_next _ _ _ (decide_eq_true h.1)) hdo
    ⟨hend.jq, hend.regs, gb, wn, fun hd lean plain => ?_, fun hd => ⟨(m1 hd).1, _, (m1blocks).1, m1blocks.2, (m1 hd).2⟩,
      fun hd => ⟨(m2 hd).1, _, m2blocks.1, m2blocks.2, (m2 hd).2⟩, fun hd wide => (wc hd wide).symm, fun hd narrow => (wf hd narrow).symm⟩
  have hbytes := leanBytes_plain s.begin_ x vals plain
  have hmem := wl hd lean
  rw [hbytes] at hmem
  exact hmem.symm

end Sys2Proof.Machine
end

section
/-!
The arrays, the factors and the Markhor sequencer: what their work leaves alone, drains and merges, and refreshes (R160–R187).
-/

namespace Sys2Proof.Machine

/-! ### What the arrays' work leaves alone (R160–R162) -/

/-- The state without the arrays, their merges and counters, the sticky bits, the state tier, the memory ports and the events that wait. -/
def State.offArrays (s : State) : State :=
  { s.noPorts with
    jk := { s.jk with arrays := [], merges := [], nfTiles := 0 }
    jg := { s.jg with nf := State.reset.jg.nf }
    stateMem := []
    js := { s.js with ring := { s.js.ring with evq := [] } } }

section

variable (s : State)

@[simp] theorem stateWrite_offArrays (unit a : Nat) (b : List Byte) : (s.stateWrite unit a b).offArrays = s.offArrays :=
  (congrArg State.offArrays (stateWrite_noPorts s unit a b) :)

@[simp] theorem setArray_offArrays (n : Nat) (f : ArrayUnit → ArrayUnit) : (s.setArray n f).offArrays = s.offArrays := rfl

@[simp] theorem nonFiniteIf_offArrays (bad : Bool) (u : NfUnit) : (s.nonFiniteIf bad u).offArrays = s.offArrays := by
  cases bad
  · rfl
  · show (s.nonFinite u).offArrays = _
    unfold State.nonFinite
    dsimp only
    split <;> rfl

/-- An output tile counts as merged (R175). -/
def State.recorded (s : State) (m : Merge) (side : Side) (index : Nat) : State :=
  { s with jk := { s.jk with merges := s.jk.merges.map fun x => if m.same x then x.record side (index + 1) else x } }

/-- γ of a factor (R173). -/
def Merge.gamma (m : Merge) : Side → W32
  | .L => m.gammaL
  | .R => m.gammaR

/-- The merged elements of an output tile (R173). -/
def State.mergedVals (s : State) (m : Merge) (c : CatEntry) (side : Side) (index : Nat) (vals : List W32) : List W32 :=
  vals.zipWith (fun c f => f32Fma (m.gamma side) c (f32Mul m.alpha f)) (s.factTile m.tensor c m.block side (c.factTiles.getD index (0, 0)))

/-- A merged tile is written unless it has a non-finite element (R173, R175). -/
theorem mergeTaken_eq {c : CatEntry} (m : Merge) (hcat : s.cat m.tensor = some c) (side : Side) (index : Nat) (vals : List W32) :
    s.mergeTaken m side index vals =
      if (s.mergedVals m c side index vals).any f32NonFinite then
        let u := (s.recorded m side index).nonFinite .arrays
        ({ u with jk := { u.jk with nfTiles := stick u.jk.nfTiles 1 } }).event (s.blockTile m.tensor c m.block) 0x0503 1
          [i4 m.tensor, i4 m.block, i1 (match side with | .L => 0 | .R => 1), i4 index, i8 m.step.toNat]
      else (s.recorded m side index).stateWrite (s.blockTile m.tensor c m.block)
        (s.factTileAddr m.tensor c m.block side (c.factTiles.getD index (0, 0)))
        ((s.mergedVals m c side index vals).flatMap bytes32) := by
  unfold State.mergeTaken
  rw [hcat]
  cases side <;> rfl

@[simp] theorem mergeTaken_offArrays (m : Merge) (side : Side) (index : Nat) (vals : List W32) :
    (s.mergeTaken m side index vals).offArrays = s.offArrays := by
  cases hcat : s.cat m.tensor with
  | none =>
    unfold State.mergeTaken
    rw [hcat]
  | some c =>
    rw [mergeTaken_eq s m hcat]
    split
    · exact nonFiniteIf_offArrays (s.recorded m side index) true .arrays
    · exact stateWrite_offArrays ..

@[simp] theorem takeTile_offArrays (n : Nat) (q : Taker × List W32) : (s.takeTile n q).offArrays = s.offArrays := by
  unfold State.takeTile
  split
  · exact stateWrite_offArrays ..
  · exact mergeTaken_offArrays ..

@[simp] theorem drainSet_offArrays (n : Nat) (i : BitVec 1) : (s.drainSet n i).offArrays = s.offArrays := by
  unfold State.drainSet
  dsimp only
  split
  · rfl
  · unfold State.serveQueue
    refine (foldl_view (g := State.offArrays) (fun s x => takeTile_offArrays s n x) _ _).trans ?_
    rw [setArray_offArrays, setArray_offArrays, nonFiniteIf_offArrays]

@[simp] theorem feedTile_offArrays (n : Nat) (t : AccSet) : (s.feedTile n t).offArrays = s.offArrays :=
  (setArray_offArrays ..).trans (drainSet_offArrays ..)

@[simp] theorem passTiles_offArrays (r c : Nat) : (s.passTiles r c).offArrays = s.offArrays :=
  foldl_view (g := State.offArrays) (fun s n => feedTile_offArrays s (tileArray n) AccSet.empty) _ s

@[simp] theorem newtonTiles_offArrays (p4 : Bool) (b : Nat) : (s.newtonTiles p4 b).offArrays = s.offArrays :=
  foldl_view (g := State.offArrays) (fun s _ => passTiles_offArrays s b b) _ s

@[simp] theorem precondTiles_offArrays (tensor block b : Nat) : (s.precondTiles tensor block b).offArrays = s.offArrays := by
  unfold State.precondTiles
  dsimp only
  split
  · split
    · exact (passTiles_offArrays ..).trans (passTiles_offArrays ..)
    · exact passTiles_offArrays ..
  · split
    · exact passTiles_offArrays ..
    · rfl

end

/-! ### Refreshes (R176–R181, R184, R186, R189) -/

theorem rootEntry_poolFree (s : State) (slot tensor block : Nat) :
    (s.poolFree slot).rootEntry tensor block = s.rootEntry tensor block := rfl

/-- A block's directory entry that counts one more stale refresh (R181, R184). -/
def RootEntry.staler (e : RootEntry) : RootEntry := { e with staleN := stick e.staleN 1 }

/-- The record of a refresh that has ended stale (R181). -/
def State.endStale (s : State) (m : Markhor) (iters : Nat) (r : W32) (nonFin : Bool) : State :=
  ({ s with jk := { s.jk with current := none, stale := stick s.jk.stale 1,
                              finished := s.jk.finished ++ [Finished.mk m.ref none] } }).event 0x2A 0x0501 0
    [i4 m.ref.tensor, i4 m.ref.block, i1 (match m.ref.side with | .L => 0 | .R => 1), i8 m.ref.due.toNat, i1 iters, i4 r.toNat,
      i1 (b2n nonFin)]

theorem endStale_ring (s : State) (m : Markhor) (iters : Nat) (r : W32) (nonFin : Bool) : ∃ v : EvRec, v.code = 0x0501 ∧
    (s.endStale m iters r nonFin).js.ring = { s.js.ring with evq := s.js.ring.evq ++ [v] } := ⟨_, rfl, rfl⟩

theorem refStale_eq (s : State) (m : Markhor) (iters : Nat) (r : W32) (nonFin : Bool) :
    s.refStale m iters r nonFin =
      (((s.poolFree m.slot).stateWrite 0x2A (s.rootAddr m.ref.tensor m.ref.block)
        ((s.poolFree m.slot).rootEntry m.ref.tensor m.ref.block).staler.bytes).nonFiniteIf nonFin .markhor).endStale m iters r nonFin := rfl

/-- A refresh that ends stale: its slot is free, STALE_N counts it, and EV_REFRESH_STALE is recorded (R181, R184). -/
theorem refStale_effect (s : State) (m : Markhor) (iters : Nat) (r : W32) (nonFin : Bool) :
    let t := s.refStale m iters r nonFin
    t.jk = { s.jk with pool := s.jk.pool.filter (fun p => p.slot != m.slot), current := none, stale := stick s.jk.stale 1,
                       finished := s.jk.finished ++ [⟨m.ref, none⟩] } ∧
      t.stateMem = memWrite s.stateMem (s.rootAddr m.ref.tensor m.ref.block) (s.rootEntry m.ref.tensor m.ref.block).staler.bytes ∧
      ∃ v : EvRec, v.code = 0x0501 ∧ t.js.ring = { s.js.ring with evq := s.js.ring.evq ++ [v] } := by
  intro t
  have ht : t = _ := refStale_eq s m iters r nonFin
  rw [rootEntry_poolFree] at ht
  generalize (s.rootEntry m.ref.tensor m.ref.block).staler.bytes = b at ht ⊢
  have hw := stateWrite_noPorts (s.poolFree m.slot) 0x2A (s.rootAddr m.ref.tensor m.ref.block) b
  generalize (s.poolFree m.slot).stateWrite 0x2A (s.rootAddr m.ref.tensor m.ref.block) b = u at ht hw
  have hjk : u.jk = (s.poolFree m.slot).jk := (congrArg State.jk hw :)
  have hjs : u.js = s.js := (congrArg State.js hw :)
  have hmem : u.stateMem = memWrite s.stateMem (s.rootAddr m.ref.tensor m.ref.block) b := (congrArg State.stateMem hw :)
  obtain ⟨vjk, vjs, vmem⟩ : (u.nonFiniteIf nonFin .markhor).jk = u.jk ∧ (u.nonFiniteIf nonFin .markhor).js = u.js ∧
      (u.nonFiniteIf nonFin .markhor).stateMem = u.stateMem := by cases nonFin <;> exact ⟨rfl, rfl, rfl⟩
  generalize u.nonFiniteIf nonFin .markhor = v at ht vjk vjs vmem
  have ring := endStale_ring v m iters r nonFin
  rw [vjs, hjs] at ring
  have hend : (v.endStale m iters r nonFin).jk =
      { v.jk with current := none, stale := stick v.jk.stale 1, finished := v.jk.finished ++ [⟨m.ref, none⟩] } := rfl
  rw [vjk, hjk] at hend
  rw [ht]
  exact ⟨hend, vmem.trans hmem, ring⟩

/-- The scale of the start value: c^(−1/p) (R179). -/
theorem scale_eq (p4 : Bool) (cc : W32) :
    (if p4 then f32Div f32One (f32Sqrt (f32Sqrt cc)) else f32Div f32One (f32Sqrt cc)) =
      f32Div f32One (f32Sqrt (if p4 then f32Sqrt cc else cc)) := by
  cases p4 <;> rfl

/-- The sequencer takes up the first refresh of its queue, in the lowest free pool slot (R178). -/
def State.refreshTaken (s : State) (r : Refresh) (rest : List Refresh) : State :=
  let u := s.poolPut s.freeSlot []
  { u with jk := { u.jk with queue := rest, tensor := BitVec.ofNat 18 r.tensor, side := decide (r.side = Side.R), iter := 0,
                             block := BitVec.ofNat 16 r.block } }

/-- The start values M = F_d / c and X = c^(−1/p) on the diagonal (R179). -/
def State.refreshBegun (s : State) (r : Refresh) (c : CatEntry) (fd : List W32) (cc : W32) (slot : Nat) : State :=
  let sc := f32Div f32One (f32Sqrt (if c.p4 then f32Sqrt cc else cc))
  { s with jk := { s.jk with current := some ⟨r, slot, 0,
    (List.range c.edge).flatMap fun i => (List.range c.edge).map fun j => if i = j then sc else 0,
    fd.map fun v => f32Mul v (f32Div f32One cc), !s.jk.hold⟩ } }

theorem refreshStart_eq {s : State} {r : Refresh} {rest : List Refresh} {c : CatEntry} (idle : s.jk.current = none)
    (hqueue : s.jk.queue = r :: rest) (hcat : s.cat r.tensor = some c) (on : s.markhorOn = true) (ready : s.refWaits c r = false)
    {fd : List W32} (hfd : s.damped c r = fd) {cc : W32} (hcc : f32Sqrt (frobenius c.edge fd) = cc) :
    s.refreshStart = if f32IsZero cc || f32NonFinite cc then
        (s.refreshTaken r rest).refStale ⟨r, s.freeSlot, 0, [], [], false⟩ 0 s.jk.resid true
      else (s.refreshTaken r rest).refreshBegun r c fd cc s.freeSlot := by
  unfold State.refreshStart
  rw [idle, hqueue]
  dsimp only
  rw [hcat]
  dsimp only
  rw [on, ready, hfd, hcc, if_neg (by decide), scale_eq]
  rfl

/-! ### The coupled Newton iteration (R180, R181, R186) -/

/-- The iteration's number and residual are shown (R180). -/
def State.iterShown (s : State) (k : Nat) (r : W32) : State := { s with jk := { s.jk with iter := BitVec.ofNat 5 k, resid := r } }

/-- A refresh converges: its slot holds the root in BF16 (R181). -/
def State.converged (s : State) (m : Markhor) (x : List W32) : State :=
  let u := s.poolPut m.slot (x.map bf16Rne)
  { u with jk := { u.jk with current := none, finished := u.jk.finished ++ [Finished.mk m.ref (some m.slot)] } }

/-- A refresh goes on, or holds (R186). -/
def State.iterated (s : State) (m : Markhor) (k : Nat) (x n : List W32) : State :=
  { s with jk := { s.jk with current := some { m with iter := k, x := x, m := n, running := !s.jk.hold } } }

theorem markhorIter_eq {s : State} {m : Markhor} {c : CatEntry} (current : s.jk.current = some m) (hcat : s.cat m.ref.tensor = some c)
    (on : s.markhorOn = true) (running : m.running = true) {x n : List W32} (hstep : newtonStep c.p4 c.edge m.x m.m = (x, n)) {r : W32}
    (hr : newtonResid c.edge n = r) {u : State} (hu : (s.newtonTiles c.p4 c.edge).iterShown (m.iter + 1) r = u) :
    s.markhorIter =
      if f32NonFinite r || x.any f32NonFinite || n.any f32NonFinite then u.refStale m (m.iter + 1) r true
      else if f32Le r u.jk.tol then u.converged m x
      else if m.iter + 1 ≥ 24 then u.refStale m (m.iter + 1) r false
      else u.iterated m (m.iter + 1) x n := by
  subst hu
  unfold State.markhorIter
  rw [current]
  dsimp only
  rw [hcat]
  dsimp only
  rw [on, running, hstep, hr, if_neg (by decide)]
  rfl

theorem markhorIter_held {s : State} {m : Markhor} (current : s.jk.current = some m) (held : m.running = false) : s.markhorIter = s := by
  unfold State.markhorIter
  rw [current]
  dsimp only
  split
  · rfl
  · rw [held, Bool.not_false, Bool.or_true, if_pos rfl]

/-- The sequencer's block, apart from the arrays' part, through an iteration's products. -/
theorem jk_of_offArrays {s t : State} (h : t.offArrays = s.offArrays) :
    t.jk = { s.jk with arrays := t.jk.arrays, merges := t.jk.merges, nfTiles := t.jk.nfTiles } :=
  (congrArg (fun u : State => { u.jk with arrays := t.jk.arrays, merges := t.jk.merges, nfTiles := t.jk.nfTiles }) h :)

/-- What a write to `JK_CFG` sets (R186, R189). -/
def State.jkCfg (v : W32) (s : State) : State :=
  { s with jk := { s.jk with installLag := v.extractLsb' 0 5, hold := v.getLsbD 8,
                             current := s.jk.current.map fun m => { m with running := m.running || !v.getLsbD 8 } } }

theorem wrJkCfg_listening {s : State} (port : Mgmt) (v : W32) (h : s.listening = true) :
    s.wrJkCfg port v = s.rwl port 0x050000 (v.extractLsb' 0 5 != s.jk.installLag) (v.extractLsb' 0 5 != 0) (State.jkCfg v) :=
  guarded_of_listening port 0x050000 (fun s => s.rwl port 0x050000 (v.extractLsb' 0 5 != s.jk.installLag) (v.extractLsb' 0 5 != 0)
    (State.jkCfg v)) h

/-- What an iteration leaves in the sequencer's block (R180, R181, R186). -/
theorem markhorIter_effect {s : State} {m : Markhor} {c : CatEntry} (current : s.jk.current = some m) (hcat : s.cat m.ref.tensor = some c)
    (on : s.markhorOn = true) (running : m.running = true) {x n : List W32} (hstep : newtonStep c.p4 c.edge m.x m.m = (x, n)) {r : W32}
    (hr : newtonResid c.edge n = r) :
    let t := s.markhorIter
    let bad := f32NonFinite r || x.any f32NonFinite || n.any f32NonFinite
    t.jk.resid = r ∧ t.jk.iter = BitVec.ofNat 5 (m.iter + 1) ∧ t.jk.queue = s.jk.queue ∧
      (bad = false → f32Le r s.jk.tol = true → t.jk.current = none ∧ t.jk.finished = s.jk.finished ++ [⟨m.ref, some m.slot⟩] ∧
        (t.jk.pool.find? fun p => p.slot == m.slot) = some ⟨m.slot, x.map bf16Rne⟩) ∧
      (bad = false → f32Le r s.jk.tol = false → m.iter + 1 < 24 →
        t.jk.current = some { m with iter := m.iter + 1, x := x, m := n, running := !s.jk.hold } ∧ t.jk.finished = s.jk.finished) ∧
      ((bad = true ∨ (f32Le r s.jk.tol = false ∧ 24 ≤ m.iter + 1)) → t.jk.current = none ∧
        t.jk.finished = s.jk.finished ++ [⟨m.ref, none⟩] ∧ t.jk.stale = stick s.jk.stale 1) := by
  intro t bad
  have ht : t = _ := markhorIter_eq current hcat on running hstep hr rfl
  have hjk := jk_of_offArrays (newtonTiles_offArrays s c.p4 c.edge)
  generalize s.newtonTiles c.p4 c.edge = w at ht hjk
  obtain ⟨hresid, hiter, hqueue, htol, hfinished, hstale, hhold⟩ : (w.iterShown (m.iter + 1) r).jk.resid = r ∧
      (w.iterShown (m.iter + 1) r).jk.iter = BitVec.ofNat 5 (m.iter + 1) ∧ (w.iterShown (m.iter + 1) r).jk.queue = s.jk.queue ∧
      (w.iterShown (m.iter + 1) r).jk.tol = s.jk.tol ∧ (w.iterShown (m.iter + 1) r).jk.finished = s.jk.finished ∧
      (w.iterShown (m.iter + 1) r).jk.stale = s.jk.stale ∧ (w.iterShown (m.iter + 1) r).jk.hold = s.jk.hold := by
    unfold State.iterShown
    dsimp only
    rw [hjk]
    exact ⟨rfl, rfl, rfl, rfl, rfl, rfl, rfl⟩
  generalize w.iterShown (m.iter + 1) r = u at ht hresid hiter hqueue htol hfinished hstale hhold
  have stale (b : Bool) : (u.refStale m (m.iter + 1) r b).jk = _ := (refStale_effect u m (m.iter + 1) r b).1
  rw [htol] at ht
  rw [ht]
  by_cases hbad : bad = true
  · rw [if_pos hbad, stale]
    exact ⟨hresid, hiter, hqueue, fun h => absurd hbad (Bool.eq_false_iff.mp h), fun h => absurd hbad (Bool.eq_false_iff.mp h),
      fun _ => ⟨rfl, congrArg (· ++ [_]) hfinished, congrArg (stick · 1) hstale⟩⟩
  · rw [if_neg hbad]
    by_cases small : f32Le r s.jk.tol = true
    · rw [if_pos small]
      refine ⟨hresid, hiter, hqueue, fun _ _ => ⟨rfl, congrArg (· ++ [_]) hfinished, List.find?_cons_of_pos (beq_self_eq_true _)⟩,
        fun _ h => absurd small (Bool.eq_false_iff.mp h), fun h => h.elim (fun h => absurd h hbad) fun h => absurd small (Bool.eq_false_iff.mp h.1)⟩
    · rw [if_neg small]
      by_cases last : m.iter + 1 ≥ 24
      · rw [if_pos last, stale]
        exact ⟨hresid, hiter, hqueue, fun _ h => absurd h small, fun _ _ h => absurd last (not_le_of_gt h),
          fun _ => ⟨rfl, congrArg (· ++ [_]) hfinished, congrArg (stick · 1) hstale⟩⟩
      · rw [if_neg last]
        refine ⟨hresid, hiter, hqueue, fun _ h => absurd h small, fun _ _ _ => ⟨?_, hfinished⟩,
          fun h => h.elim (fun h => absurd h hbad) fun h => absurd h.2 last⟩
        exact congrArg (fun b : Bool => some { m with iter := m.iter + 1, x := x, m := n, running := !b }) hhold

/-- Settles O24: a refresh starts, goes on, converges or ends stale. -/
theorem refreshesRun : Obligations.RefreshesRun := by
  unfold Obligations.RefreshesRun
  refine ⟨fun s r rest c idle hqueue hcat on ready he => ?_, fun s m c current hcat => ⟨fun held => ?_, fun on running => ?_⟩,
    fun s port v h => answersRwl_run (State.wrJkCfg · port v) rfl (wrJkCfg_listening (s := s.begin_) port v h)⟩
  · intro fd cc sc e
    have hdo := refreshStart_eq (s := s.begin_) (r := r) (rest := rest) idle hqueue hcat on ready (fd := fd) rfl (cc := cc) rfl
    obtain ⟨hjk, hmem, v, hcode, ring⟩ :=
      refStale_effect (s.begin_.refreshTaken r rest) ⟨r, s.freeSlot, 0, [], [], false⟩ 0 s.jk.resid true
    cases bad : f32IsZero cc || f32NonFinite cc with
    | false =>
      rw [bad] at hdo
      exact exec_to State.refreshStart rfl hdo ⟨rfl, rfl, rfl, rfl, fun _ => ⟨rfl, rfl, rfl⟩, fun h => absurd h (by decide)⟩
    | true =>
      rw [bad, if_pos rfl] at hdo
      change _ = (s.begin_.refreshTaken r rest).refStale ⟨r, s.freeSlot, 0, [], [], false⟩ 0 s.jk.resid true at hdo
      generalize (s.begin_.refreshTaken r rest).refStale ⟨r, s.freeSlot, 0, [], [], false⟩ 0 s.jk.resid true = u at hdo hjk hmem ring
      have hnewest : u.finish.newest.map EvEntry.code = some 0x0501 := by
        rw [newest_code_of_one (u := u) (r := s.begin_.js.ring) (evq_of_eventsIn he) ring, hcode]
        rfl
      exact exec_to State.refreshStart rfl hdo ⟨(congrArg JkBlock.queue hjk :), (congrArg JkBlock.iter hjk :), (congrArg JkBlock.tensor hjk :),
        (congrArg JkBlock.merges hjk :), fun h => absurd h (by decide), fun _ => ⟨(congrArg JkBlock.current hjk :),
          (congrArg JkBlock.stale hjk :), hmem, (congrArg JkBlock.finished hjk :), hnewest⟩⟩
  · exact does_run State.markhorIter rfl (markhorIter_held (s := s.begin_) current held)
  · intro xm r bad
    obtain ⟨hresid, hiter, hqueue, hgood, hon, hbad⟩ := markhorIter_effect (s := s.begin_) current hcat on running (x := xm.1) (n := xm.2) rfl (r := r) rfl
    generalize hu : s.begin_.markhorIter = u at hresid hiter hqueue hgood hon hbad
    exact exec_to State.markhorIter rfl hu ⟨hresid, hiter, hqueue, hgood, hon, hbad⟩

end Sys2Proof.Machine
end

section
/-!
Invocations of update programs start and end (R187–R206, R219, R227).
-/

namespace Sys2Proof.Machine

/-! ### Invocations start (R187, R191, R192, R196, R203, R206) -/

section

variable {s : State} {tile : Nat}

theorem setTile_congr (s : State) (k : Nat) {f g : TileSt → TileSt} (h : f (s.tile k) = g (s.tile k)) : s.setTile k f = s.setTile k g :=
  congrArg (fun l => ({ s with tiles := l } : State)) (modifyNth_congr h)

theorem chunkPass_starts {i : Nat} {c : CatEntry} {f : Folded} {g : ProgEntry} {p : PassDir}
    (ready : s.nextReady tile = some i) (hcat : s.cat (s.chunkTensor i) = some c) (held : (s.jx.hold.find? fun f => f.chunk == i) = some f)
    (hprog : s.progEntry f.tepoch c.prog = some g) (hpass : g.passes[0]? = some p) (training : s.jq.gen = false)
    (awake : s.inReset = false) (free : (s.tile tile).inv = none) :
    s.chunkPass tile =
      (({ s with ju := { s.ju with ready := s.ju.ready.filter fun x => x != i } }).setTile tile fun t =>
        { t with saved := none,
                 inv := some (newInv (if g.isBlock then 2 else 1) (s.chunkTensor i) i f.tepoch 0 p),
                 regs := TileRegs.zero, regS := if g.usesS then [] else t.regS }).showJob tile 1 (s.chunkTensor i) := by
  unfold State.chunkPass
  rw [ready]
  dsimp only
  rw [hcat, held]
  dsimp only
  rw [hprog]
  dsimp only
  rw [hpass, free, training, awake]
  refine congrArg (fun u : State => u.showJob tile 1 (s.chunkTensor i)) (setTile_congr _ tile ?_)
  exact congrArg (fun v : Option Inv => ({ (s.tile tile) with
    saved := v.map fun old => (old, (s.tile tile).regs),
    inv := some (newInv (if g.isBlock then 2 else 1) (s.chunkTensor i) i f.tepoch 0 p), regs := TileRegs.zero,
    regS := if g.usesS then [] else (s.tile tile).regS } : TileSt)) free

theorem blockSection_starts {tensor block : Nat} {rest : List (Nat × Nat)} {c : CatEntry} {g : ProgEntry} {p : PassDir}
    (ready : s.readyBlocks tile = (tensor, block) :: rest) (hcat : s.cat tensor = some c)
    (hprog : s.progEntry (s.blockEpoch c block) c.prog = some g) (isBlock : g.isBlock = true) (hpass : g.passes[1]? = some p)
    (free : (s.tile tile).inv = none) (training : s.jq.gen = false) (awake : s.inReset = false) :
    s.blockSection tile =
      (s.setTile tile fun t =>
        { t with inv := some (newInv 3 tensor block (s.blockEpoch c block) 1 p), regs := TileRegs.zero,
                 regSBlock := if g.usesS then [] else t.regSBlock }).showJob tile 2 tensor := by
  unfold State.blockSection
  rw [ready, List.filterMap_cons]
  dsimp only
  rw [hcat]
  dsimp only
  rw [hprog]
  dsimp only
  rw [isBlock, hpass, free, training, awake]
  rfl

/-- Work of the arrays gives no block a work area. -/
theorem precondTiles_ju (s : State) (tensor block b : Nat) : (s.precondTiles tensor block b).ju = s.ju :=
  (congrArg State.ju (precondTiles_offArrays s tensor block b) :)

theorem prePass_starts {x : TileCtx} (hctx : s.tileCtx tile = some x) (due : x.inv.preDue = true) (training : s.jq.gen = false)
    (awake : s.inReset = false) :
    let b := x.cat.edge
    let r := s.precondition x.inv.tensor x.inv.index b x.pass.preSplit (s.bufVals x.inv.tensor x.cat x.inv.index false 0 (b * b))
    let u := (s.precondTiles x.inv.tensor x.inv.index b).nonFiniteIf r.2 .arrays
    s.prePass tile = (match s.bufAddr x.inv.tensor x.cat x.inv.index true 0 with
      | some a => u.stateWrite tile a (r.1.flatMap bytes32)
      | none => u).setInv tile fun i => { i with preDue := false } := by
  intro b r u
  have hju : u.ju = s.ju := by
    have hnf : u.ju = (s.precondTiles x.inv.tensor x.inv.index b).ju := by
      show ((s.precondTiles x.inv.tensor x.inv.index b).nonFiniteIf r.2 .arrays).ju = _
      cases r.2 <;> rfl
    exact hnf.trans (precondTiles_ju ..)
  have haddr : u.bufAddr x.inv.tensor x.cat x.inv.index true 0 = s.bufAddr x.inv.tensor x.cat x.inv.index true 0 := by
    unfold State.bufAddr State.areaOf
    rw [hju]
  unfold State.prePass
  rw [hctx]
  dsimp only
  rw [due, training, awake, ← haddr, (tile_of_tileCtx hctx).1]
  rfl

/-- Settles O29: a free tile takes its next job, and a PRE pass starts with the arrays' product. -/
theorem invocationsStart : Obligations.InvocationsStart := by
  unfold Obligations.InvocationsStart
  refine ⟨fun s tile i c f g p ht ready hcat held hprog hpass training awake free => ?_,
    fun s tile tensor block rest c g p ht ready hcat hprog isBlock hpass free training awake => ?_, ?_⟩
  · exact does_runUnit _ (State.chunkPass · tile) rfl (decide_eq_true ht)
      (chunkPass_starts (s := s.begin_) ready hcat held hprog hpass training awake free)
  · exact does_runUnit _ (State.blockSection · tile) rfl (decide_eq_true ht)
      (blockSection_starts (s := s.begin_) ready hcat hprog isBlock hpass free training awake)
  · intro s tile x ht hctx due training awake b r run
    have hpre := prePass_starts (s := s.begin_) hctx due training awake
    refine ⟨fun a harea => does_runUnit _ (State.prePass · tile) rfl (decide_eq_true ht) ?_,
      fun harea => does_runUnit _ (State.prePass · tile) rfl (decide_eq_true ht) ?_⟩
    · have harea : s.begin_.bufAddr x.inv.tensor x.cat x.inv.index true 0 = some a := harea
      rw [harea] at hpre
      exact hpre
    · have harea : s.begin_.bufAddr x.inv.tensor x.cat x.inv.index true 0 = none := harea
      rw [harea] at hpre
      exact hpre

end

/-! ### Invocations end (R131, R191, R195, R200, R205, R219, R227) -/

section

variable {s : State} {tile : Nat} {x : TileCtx}

theorem tile_setTile_same (s : State) (k : Nat) (f : TileSt → TileSt) (hk : k < s.tiles.length) :
    (s.setTile k f).tile k = f (s.tile k) :=
  modifyNth_getD_same f k s.tiles TileSt.reset hk

/-- A tile that runs an invocation exists. -/
theorem tile_lt_of_tileCtx (h : s.tileCtx tile = some x) : tile < s.tiles.length := by
  have hinv := (tile_of_tileCtx h).2
  by_contra hlt
  have hreset : s.tile tile = TileSt.reset := List.getD_eq_default _ _ (by omega)
  rw [hreset] at hinv
  cases hinv

/-- The norm slots that a pass end puts down (R200). -/
def State.normsPut (s : State) (tile : Nat) (x : TileCtx) : State :=
  (s.normRegs x).foldl (fun u r => u.putNorm ⟨x.inv.tensor, x.inv.isSection, x.inv.index, x.inv.pass, r, u.areg tile r⟩) s

/-- The state without its norm slots. -/
def State.offNorms (s : State) : State := { s with ju := { s.ju with norms := [] } }

theorem putNorm_offNorms (s : State) (n : NormSlot) : (s.putNorm n).offNorms = s.offNorms := rfl

theorem normsPut_offNorms (s : State) (tile : Nat) (x : TileCtx) : (s.normsPut tile x).offNorms = s.offNorms :=
  foldl_view (g := State.offNorms) (fun u r => putNorm_offNorms u ⟨x.inv.tensor, x.inv.isSection, x.inv.index, x.inv.pass, r, u.areg tile r⟩) _ s

theorem passComplete_eq (hctx : s.tileCtx tile = some x) (finished : x.inv.finished = true) (awake : s.inReset = false) :
    s.passComplete tile =
      match (if x.inv.isSection then x.prog.passes[x.inv.pass + 1]? else none) with
      | some p =>
        ((s.normsPut tile x).setInv tile fun i =>
          { i.startPass (x.inv.pass + 1) p with closed := x.inv.closed ++ x.inv.crcs }).setTile tile fun t =>
            { t with regs := { t.regs with a := t.regs.a.mapIdx fun n a => if n < 3 then zeroStates else a } }
      | none => (s.normsPut tile x).endInv tile x.inv (x.inv.closed ++ x.inv.crcs) := by
  unfold State.passComplete
  rw [hctx]
  dsimp only
  rw [finished, awake]
  rfl

/-- An invocation that ends on a tile with nothing saved leaves it free (R206). -/
theorem leaveInv_free (hk : tile < s.tiles.length) (alone : (s.tile tile).saved = none) :
    ((s.leaveInv tile).tile tile).inv = none ∧ (s.leaveInv tile).ju = s.ju ∧ (s.leaveInv tile).stateMem = s.stateMem ∧
      (s.leaveInv tile).jq = s.jq := by
  unfold State.leaveInv
  dsimp only
  rw [alone]
  dsimp only
  exact ⟨congrArg TileSt.inv (tile_setTile_same s tile (fun t => { t with inv := none }) hk), rfl, rfl, rfl⟩

/-- The step's digests and counters with an invocation that has run to its end (R205, R219, R227). -/
def State.invCounted (s : State) (inv : Inv) (crcs : List RunCrc) : State :=
  let s := { s with ju := { s.ju with acc := crcs.foldl Digests.add s.ju.acc } }
  if inv.isSection then
    ({ s with ju := { s.ju with updBlocks := stick s.ju.updBlocks 1 } }).endSection inv.tensor inv.index
  else { s with ju := { s.ju with updChunks := stick s.ju.updChunks 1, passed := (inv.index, inv.epoch) :: s.ju.passed } }

theorem endInv_eq (s : State) (tile : Nat) (inv : Inv) (crcs : List RunCrc) :
    s.endInv tile inv crcs = (s.invCounted inv crcs).leaveInv tile := rfl

theorem chunkConsumed_done {i : Nat} (done : s.chunkDone i = true) :
    s.chunkConsumed i =
      let s := s.stageTake fun b => b.pool == .hold && b.hdr.toNat == i
      { s with jx := { s.jx with hold := s.jx.hold.filter (fun f => f.chunk != i), consumed := i :: s.jx.consumed },
               ju := { s.ju with ready := s.ju.ready.filter fun x => x != i } } := by
  have unused : s.jx.consumed.contains i = false := by
    unfold State.chunkDone at done
    simp only [Bool.and_eq_true, Bool.not_eq_true'] at done
    exact done.1.2
  unfold State.chunkConsumed
  rw [if_pos done]
  unfold State.consume
  exact congrArg (fun l => ({ s with
    jx := { (s.stageTake fun b => b.pool == .hold && b.hdr.toNat == i).jx with hold := s.jx.hold.filter (fun f => f.chunk != i), consumed := l }
    ju := { s.ju with ready := s.ju.ready.filter fun x => x != i } } : State)) (if_neg (Bool.eq_false_iff.mp unused))

/-- What the norm slots leave of the state that an invocation's end uses. -/
theorem normsPut_fields (s : State) (tile : Nat) (x : TileCtx) :
    let u := s.normsPut tile x
    u.tiles = s.tiles ∧ u.ju.acc = s.ju.acc ∧ u.ju.updChunks = s.ju.updChunks ∧ u.ju.updBlocks = s.ju.updBlocks ∧
      u.stateMem = s.stateMem ∧ u.jq = s.jq := by
  intro u
  have h : u.offNorms = s.offNorms := normsPut_offNorms s tile x
  clear_value u
  exact ⟨(congrArg State.tiles h :), (congrArg (fun u : State => u.ju.acc) h :), (congrArg (fun u : State => u.ju.updChunks) h :),
    (congrArg (fun u : State => u.ju.updBlocks) h :), (congrArg State.stateMem h :), (congrArg State.jq h :)⟩

/-- An invocation that has run to its end is counted, and its tile is free (R205, R219, R227). -/
theorem passComplete_ends (hctx : s.tileCtx tile = some x) (finished : x.inv.finished = true) (awake : s.inReset = false)
    (last : (if x.inv.isSection then x.prog.passes[x.inv.pass + 1]? else none) = none) (alone : (s.tile tile).saved = none) :
    let t := s.passComplete tile
    (t.tile tile).inv = none ∧ t.ju.acc = (x.inv.closed ++ x.inv.crcs).foldl Digests.add s.ju.acc ∧ t.stateMem = s.stateMem ∧
      t.jq = s.jq ∧
      (x.inv.isSection = false → (x.inv.index, x.inv.epoch) ∈ t.ju.passed ∧ t.ju.updChunks = stick s.ju.updChunks 1) ∧
      (x.inv.isSection = true → (x.inv.tensor, x.inv.index) ∈ t.ju.sections ∧ t.ju.updBlocks = stick s.ju.updBlocks 1) := by
  intro t
  have ht : t = _ := passComplete_eq hctx finished awake
  rw [last] at ht
  dsimp only at ht
  rw [endInv_eq] at ht
  obtain ⟨htiles, hacc, hchunks, hblocks, hmem, hjq⟩ := normsPut_fields s tile x
  generalize s.normsPut tile x = u at ht htiles hacc hchunks hblocks hmem hjq
  have hcount : (u.invCounted x.inv (x.inv.closed ++ x.inv.crcs)).tiles = s.tiles ∧
      (u.invCounted x.inv (x.inv.closed ++ x.inv.crcs)).ju.acc = (x.inv.closed ++ x.inv.crcs).foldl Digests.add s.ju.acc ∧
      (u.invCounted x.inv (x.inv.closed ++ x.inv.crcs)).stateMem = s.stateMem ∧
      (u.invCounted x.inv (x.inv.closed ++ x.inv.crcs)).jq = s.jq ∧
      (x.inv.isSection = false → (x.inv.index, x.inv.epoch) ∈ (u.invCounted x.inv (x.inv.closed ++ x.inv.crcs)).ju.passed ∧
        (u.invCounted x.inv (x.inv.closed ++ x.inv.crcs)).ju.updChunks = stick s.ju.updChunks 1) ∧
      (x.inv.isSection = true → (x.inv.tensor, x.inv.index) ∈ (u.invCounted x.inv (x.inv.closed ++ x.inv.crcs)).ju.sections ∧
        (u.invCounted x.inv (x.inv.closed ++ x.inv.crcs)).ju.updBlocks = stick s.ju.updBlocks 1) := by
    rw [← hacc, ← hchunks, ← hblocks]
    unfold State.invCounted
    dsimp only
    split
    · next section_ => exact ⟨htiles, rfl, hmem, hjq, fun h => absurd section_ (Bool.eq_false_iff.mp h), fun _ => ⟨List.mem_cons_self, rfl⟩⟩
    · next element => exact ⟨htiles, rfl, hmem, hjq, fun _ => ⟨List.mem_cons_self, rfl⟩, fun h => absurd h element⟩
  generalize u.invCounted x.inv (x.inv.closed ++ x.inv.crcs) = v at ht hcount
  obtain ⟨vtiles, vacc, vmem, vjq, velement, vsection⟩ := hcount
  obtain ⟨hinv, lju, lmem, ljq⟩ := leaveInv_free (s := v) (tile := tile) (by rw [vtiles]; exact tile_lt_of_tileCtx hctx)
    ((congrArg (fun l : List TileSt => (l.getD tile TileSt.reset).saved) vtiles).trans alone)
  rw [ht, lju, lmem, ljq]
  exact ⟨hinv, vacc, vmem, vjq, velement, vsection⟩

/-- An inner pass of a section goes on to the next (R195, R200). -/
theorem passComplete_goes_on (hctx : s.tileCtx tile = some x) (finished : x.inv.finished = true) (awake : s.inReset = false)
    {p : PassDir} (next : (if x.inv.isSection then x.prog.passes[x.inv.pass + 1]? else none) = some p) :
    let t := s.passComplete tile
    (t.tile tile).inv = some { x.inv.startPass (x.inv.pass + 1) p with closed := x.inv.closed ++ x.inv.crcs } ∧
      t.ju.acc = s.ju.acc ∧ t.stateMem = s.stateMem ∧ t.jq = s.jq := by
  intro t
  have ht : t = _ := passComplete_eq hctx finished awake
  rw [next] at ht
  dsimp only at ht
  obtain ⟨htiles, hacc, -, -, hmem, hjq⟩ := normsPut_fields s tile x
  generalize s.normsPut tile x = u at ht htiles hacc hmem hjq
  have hk : tile < u.tiles.length := htiles ▸ tile_lt_of_tileCtx hctx
  have hinv : (u.tile tile).inv = some x.inv :=
    (congrArg (fun l : List TileSt => (l.getD tile TileSt.reset).inv) htiles).trans (tile_of_tileCtx hctx).2
  rw [ht]
  refine ⟨?_, hacc, hmem, hjq⟩
  rw [tile_setTile_keeps TileSt.inv (by exact fun _ => rfl), State.setInv, tile_setTile_same u tile _ hk]
  dsimp only
  rw [hinv]
  rfl

/-- Settles O30: a pass ends its invocation or goes on, and a chunk is consumed once everything that uses it has completed. -/
theorem invocationsComplete : Obligations.InvocationsComplete := by
  unfold Obligations.InvocationsComplete
  refine ⟨fun s tile x htile hctx finished awake => ?_, fun s i => ⟨fun done => ?_, fun undone => ?_⟩⟩
  · have hrun := runUnit_next (tileOk tile) (State.passComplete · tile) s (decide_eq_true htile)
    refine ⟨fun element alone => ?_, fun isSection last alone => ?_, fun p isSection next => ?_⟩
    · obtain ⟨hinv, hacc, hmem, hjq, hcount, -⟩ := passComplete_ends (s := s.begin_) hctx finished awake
        (if_neg (Bool.eq_false_iff.mp element)) alone
      generalize hu : s.begin_.passComplete tile = u at hinv hacc hmem hjq hcount
      exact exec_to (State.passComplete · tile) hrun hu ⟨hinv, (hcount element).1, (hcount element).2, hacc, hmem, hjq⟩
    · obtain ⟨hinv, hacc, hmem, hjq, -, hcount⟩ := passComplete_ends (s := s.begin_) hctx finished awake
        ((if_pos isSection).trans last) alone
      generalize hu : s.begin_.passComplete tile = u at hinv hacc hmem hjq hcount
      exact exec_to (State.passComplete · tile) hrun hu ⟨hinv, (hcount isSection).1, (hcount isSection).2, hacc, hmem, hjq⟩
    · obtain ⟨hinv, hacc, hmem, hjq⟩ := passComplete_goes_on (s := s.begin_) hctx finished awake ((if_pos isSection).trans next)
      generalize hu : s.begin_.passComplete tile = u at hinv hacc hmem hjq
      exact exec_to (State.passComplete · tile) hrun hu ⟨hinv, hacc, hmem, hjq⟩
  · exact does_run (State.chunkConsumed · i) rfl (chunkConsumed_done (s := s.begin_) done)
  · exact does_run (State.chunkConsumed · i) rfl (if_neg (Bool.eq_false_iff.mp undone))

end

end Sys2Proof.Machine
end

section
/-!
The factors are gathered: output tiles drain, and merges read, weigh and write the stored tiles of a factor (R54, R160–R176).
-/

namespace Sys2Proof.Machine

/-! ### Output tiles drain (R54, R65, R161, R164, R165) -/

theorem array_setArray_same (s : State) (n : Nat) (f : ArrayUnit → ArrayUnit) (hn : n < s.jk.arrays.length) :
    (s.setArray n f).array n = f (s.array n) :=
  modifyNth_getD_same f n s.jk.arrays ArrayUnit.empty hn

theorem setArray_setArray (s : State) (n : Nat) (f g : ArrayUnit → ArrayUnit) :
    (s.setArray n f).setArray n g = s.setArray n fun u => g (f u) :=
  congrArg (fun l => ({ s with jk := { s.jk with arrays := l } } : State)) (modifyNth_modifyNth f g n s.jk.arrays)

theorem array_nonFiniteIf (s : State) (bad : Bool) (u : NfUnit) (n : Nat) : (s.nonFiniteIf bad u).array n = s.array n := by
  cases bad <;> rfl

theorem arrays_nonFiniteIf (s : State) (bad : Bool) (u : NfUnit) : (s.nonFiniteIf bad u).jk = s.jk := by
  cases bad <;> rfl

/-- A full set drains, with nothing else in its array's queue: its taker takes the tile, and the set is free (R161). -/
theorem drainSet_full {s : State} {n : Nat} {i : BitVec 1} {d : Taker} (full : ((s.array n).set i).dst = some d)
    (hn : n < s.jk.arrays.length) (empty : (s.array n).queue = []) :
    s.drainSet n i =
      (((s.nonFiniteIf (((s.array n).set i).drained.any f32NonFinite) .arrays).setArray n fun u =>
        { u.putSet i AccSet.empty with queue := [] }).takeTile n (d, ((s.array n).set i).drained)) := by
  have hlen (bad : Bool) : n < (s.nonFiniteIf bad .arrays).jk.arrays.length := by rw [arrays_nonFiniteIf]; exact hn
  unfold State.drainSet
  dsimp only
  rw [full]
  dsimp only
  unfold State.serveQueue
  dsimp only
  rw [array_setArray_same _ n _ (hlen _), setArray_setArray, array_nonFiniteIf]
  rw [show (({ (s.array n).putSet i AccSet.empty with queue := (s.array n).queue ++ [(d, ((s.array n).set i).drained)] } : ArrayUnit)).queue =
    [(d, ((s.array n).set i).drained)] by rw [empty]; rfl]
  rfl

theorem set_number (i : BitVec 1) : i = 0 ∨ i = 1 := by
  revert i
  decide

theorem set_putSet_same (u : ArrayUnit) (i : BitVec 1) (a : AccSet) : (u.putSet i a).set i = a := by
  obtain rfl | rfl := set_number i <;> rfl

theorem set_putSet_other (u : ArrayUnit) (i : BitVec 1) (a : AccSet) : (u.putSet i a).set (i + 1) = u.set (i + 1) := by
  obtain rfl | rfl := set_number i <;> rfl

/-- What the sticky bit of a unit records outside GEN (R65). -/
theorem now_nonFiniteIf {s : State} (training : s.jq.gen = false) (bad : Bool) :
    (s.nonFiniteIf bad .arrays).jg.nf.now = if bad then s.jg.nf.now ||| 4 else s.jg.nf.now := by
  cases bad
  · rfl
  · show (s.nonFinite .arrays).jg.nf.now = _
    unfold State.nonFinite
    rw [training]
    rfl

/-- What a tile's drain to a state port leaves (R161, R164). -/
theorem arrayTileDrain_effect {s : State} {n : Nat} {i : BitVec 1} {d : Nat} (full : ((s.array n).set i).dst = some (.statePort d))
    (hn : n < s.jk.arrays.length) (empty : (s.array n).queue = []) :
    let t := s.drainSet n i
    let vals := ((s.array n).set i).drained
    t.array n = { (s.array n).putSet i AccSet.empty with queue := [] } ∧ t.stateMem = memWrite s.stateMem d (vals.flatMap bytes32) ∧
      t.hostMem = s.hostMem ∧ (s.jq.gen = false → t.jg.nf.now = if vals.any f32NonFinite then s.jg.nf.now ||| 4 else s.jg.nf.now) ∧
      t.jq = s.jq := by
  intro t vals
  have ht : t = _ := drainSet_full full hn empty
  have hw := stateWrite_noPorts ((s.nonFiniteIf (vals.any f32NonFinite) .arrays).setArray n fun u =>
    { u.putSet i AccSet.empty with queue := [] }) (0x28 + n) d (vals.flatMap bytes32)
  change t = (_ : State).stateWrite (0x28 + n) d (vals.flatMap bytes32) at ht
  rw [← ht] at hw
  have hnow := fun training => now_nonFiniteIf (s := s) training (vals.any f32NonFinite)
  obtain ⟨hjk, hjq, hmem, hhost⟩ : (s.nonFiniteIf (vals.any f32NonFinite) .arrays).jk = s.jk ∧
      (s.nonFiniteIf (vals.any f32NonFinite) .arrays).jq = s.jq ∧ (s.nonFiniteIf (vals.any f32NonFinite) .arrays).stateMem = s.stateMem ∧
      (s.nonFiniteIf (vals.any f32NonFinite) .arrays).hostMem = s.hostMem := by
    cases vals.any f32NonFinite <;> exact ⟨rfl, rfl, rfl, rfl⟩
  generalize s.nonFiniteIf (vals.any f32NonFinite) .arrays = v at hw hnow hjk hjq hmem hhost
  clear ht
  clear_value t
  have harray : t.array n = { (v.array n).putSet i AccSet.empty with queue := [] } :=
    (congrArg (fun u : State => u.array n) hw :).trans (array_setArray_same v n _ (by rw [hjk]; exact hn))
  have hv : v.array n = s.array n := congrArg (fun j : JkBlock => j.arrays.getD n ArrayUnit.empty) hjk
  rw [hv] at harray
  exact ⟨harray, (congrArg State.stateMem hw :).trans (congrArg (memWrite · d (vals.flatMap bytes32)) hmem),
    (congrArg State.hostMem hw :).trans hhost, fun training => (congrArg (fun u : State => u.jg.nf.now) hw :).trans (hnow training),
    (congrArg State.jq hw :).trans hjq⟩

/-! ### Words in memory -/

theorem memRead_getElem? (m : Mem) (a n i : Nat) : (memRead m a n)[i]? = if i < n then some (memGet m (a + i)) else none := by
  induction n generalizing a i with
  | zero => rfl
  | succ n ih =>
    cases i with
    | zero => rfl
    | succ i =>
      rw [memRead, List.getElem?_cons_succ, ih, show a + 1 + i = a + (i + 1) by omega]
      simp only [Nat.add_lt_add_iff_right]

theorem memRead_slice (m : Mem) (a : Nat) {i n len : Nat} (h : i + n ≤ len) :
    memRead m (a + i) n = ((memRead m a len).drop i).take n := by
  refine List.ext_getElem? fun k => ?_
  rw [memRead_getElem?, List.getElem?_take, List.getElem?_drop, memRead_getElem?]
  split
  · rw [if_pos (by omega), Nat.add_assoc]
  · rfl

theorem natLE_bytesLE {n x : Nat} (h : x < 256 ^ n) : natLE (bytesLE n x) = x := by
  induction n generalizing x with
  | zero =>
    rw [pow_zero] at h
    rw [show x = 0 by omega]
    rfl
  | succ n ih =>
    rw [bytesLE, natLE, ih (by rw [pow_succ] at h; omega), BitVec.toNat_ofNat]
    omega

theorem w32LE_bytes32 (v : W32) : w32LE (bytes32 v) = v := by
  unfold w32LE bytes32
  rw [List.take_of_length_le (bytesLE_length ..).le, natLE_bytesLE v.isLt, BitVec.ofNat_toNat, BitVec.setWidth_eq]

theorem flatMap_bytes32_length (l : List W32) : (l.flatMap bytes32).length = 4 * l.length := by
  induction l with
  | nil => rfl
  | cons v l ih => rw [List.flatMap_cons, List.length_append, ih, bytes32, bytesLE_length, List.length_cons]; omega

theorem flatMap_bytes32_slice (l : List W32) (k : Nat) (hk : k < l.length) :
    ((l.flatMap bytes32).drop (4 * k)).take 4 = bytes32 l[k] := by
  induction l generalizing k with
  | nil => exact absurd hk (Nat.not_lt_zero k)
  | cons v l ih =>
    have hv : (bytes32 v).length = 4 := bytesLE_length ..
    cases k with
    | zero =>
      rw [List.flatMap_cons, Nat.mul_zero, List.drop_zero, List.take_left' hv]
      rfl
    | succ k =>
      rw [List.flatMap_cons, show 4 * (k + 1) = 4 + 4 * k by omega, ← List.drop_drop, List.drop_left' hv]
      exact ih k (Nat.lt_of_succ_lt_succ hk)

/-- The words of a run that was written (R12). -/
theorem words_memWrite {m : Mem} (hw : Memory.wf m = true) (a : Nat) (l : List W32) {n : Nat} (hn : l.length = n) :
    (List.range n).map (fun k => w32LE (memRead (memWrite m a (l.flatMap bytes32)) (a + 4 * k) 4)) = l := by
  subst hn
  refine List.ext_getElem (by simp) fun k hk _ => ?_
  have hk : k < l.length := by simpa using hk
  rw [List.getElem_map, List.getElem_range, memRead_slice (len := (l.flatMap bytes32).length) _ _ (by rw [flatMap_bytes32_length]; omega),
    memRead_memWrite _ _ _ hw, flatMap_bytes32_slice l k hk, w32LE_bytes32]

/-! ### The output tiles of a factor (R168, R169) -/

theorem factTiles_nodup (c : CatEntry) : c.factTiles.Nodup := by
  unfold CatEntry.factTiles
  refine List.nodup_flatMap.mpr ⟨fun u _ => ?_, ?_⟩
  · exact (List.nodup_range.filter _).map fun a b h => congrArg Prod.snd h
  · refine List.nodup_range.imp fun {u u'} hne => ?_
    intro x hx hx'
    obtain ⟨v, -, rfl⟩ := List.mem_map.mp hx
    obtain ⟨v', -, h⟩ := List.mem_map.mp hx'
    exact hne (congrArg Prod.fst h).symm

theorem takeWhile_ne_of_nodup {α : Type} [BEq α] [LawfulBEq α] {l : List α} (h : l.Nodup) {k : Nat} (hk : k < l.length) :
    l.takeWhile (fun x => x != l[k]) = l.take k := by
  induction l generalizing k with
  | nil => exact absurd hk (Nat.not_lt_zero k)
  | cons a l ih =>
    obtain ⟨ha, hl⟩ := List.nodup_cons.mp h
    cases k with
    | zero => simp
    | succ k =>
      have hk : k < l.length := Nat.lt_of_succ_lt_succ hk
      have hmem : l[k] ∈ l := List.getElem_mem hk
      have hne : (a != l[k]) = true := bne_iff_ne.mpr fun h => ha (h ▸ hmem)
      rw [List.getElem_cons_succ, List.takeWhile_cons_of_pos (p := fun x => x != l[k]) hne, ih hl hk, List.take_succ_cons]

/-- Bytes before output tile k of a factor (R169). -/
def CatEntry.tileOff (c : CatEntry) (k : Nat) : Nat := 4 * ((c.factTiles.take k).map c.tileElems).foldl (· + ·) 0

theorem tileOff_succ (c : CatEntry) {k : Nat} (hk : k < c.factTiles.length) :
    c.tileOff (k + 1) = c.tileOff k + 4 * c.tileElems c.factTiles[k] := by
  unfold CatEntry.tileOff
  rw [List.take_succ_eq_append_getElem hk, List.map_append, List.foldl_append]
  exact Nat.mul_add ..

theorem tileOff_mono (c : CatEntry) {i j : Nat} (hij : i ≤ j) (hj : j ≤ c.factTiles.length) : c.tileOff i ≤ c.tileOff j := by
  induction j, hij using Nat.le_induction with
  | base => exact le_refl _
  | succ j hij ih => exact (ih (by omega)).trans (by rw [tileOff_succ c (by omega)]; exact Nat.le_add_right ..)

theorem tileOff_length (c : CatEntry) : c.tileOff c.factTiles.length = c.factBytes := by
  unfold CatEntry.tileOff CatEntry.factBytes
  rw [List.take_length]

/-- The output tiles of a factor stand one after the other. -/
theorem tile_within (c : CatEntry) {k : Nat} (hk : k < c.factTiles.length) :
    c.tileOff k + 4 * c.tileElems c.factTiles[k] ≤ c.factBytes := by
  rw [← tileOff_succ c hk, ← tileOff_length]
  exact tileOff_mono c hk (le_refl _)

theorem factTileAddr_eq (s : State) (tensor : Nat) (c : CatEntry) (block : Nat) (side : Side) {k : Nat} (hk : k < c.factTiles.length) :
    s.factTileAddr tensor c block side c.factTiles[k] = s.factAddr tensor c block side + c.tileOff k := by
  unfold State.factTileAddr CatEntry.tileOff
  rw [takeWhile_ne_of_nodup (factTiles_nodup c) hk]

theorem factAddr_R (s : State) (tensor : Nat) (c : CatEntry) (block : Nat) :
    s.factAddr tensor c block .R = s.factAddr tensor c block .L + c.factBytes := rfl

theorem factAddr_congr {s t : State} (h : t.image = s.image) (tensor : Nat) (c : CatEntry) (block : Nat) (side : Side) :
    t.factAddr tensor c block side = s.factAddr tensor c block side := by
  unfold State.factAddr State.blockBase State.cat State.decl State.img
  rw [h]

/-- A stored output tile depends on the image and on its own bytes. -/
theorem factTile_congr {s t : State} (himg : t.image = s.image) {tensor : Nat} {c : CatEntry} {block : Nat} {side : Side} {k : Nat}
    (hk : k < c.factTiles.length)
    (hmem : ∀ j, j < c.tileElems c.factTiles[k] → memRead t.stateMem (s.factAddr tensor c block side + c.tileOff k + 4 * j) 4 =
      memRead s.stateMem (s.factAddr tensor c block side + c.tileOff k + 4 * j) 4) :
    t.factTile tensor c block side c.factTiles[k] = s.factTile tensor c block side c.factTiles[k] := by
  unfold State.factTile
  rw [factTileAddr_eq t tensor c block side hk, factTileAddr_eq s tensor c block side hk, factAddr_congr himg]
  exact List.map_congr_left fun j hj => congrArg w32LE (hmem j (List.mem_range.mp hj))

theorem factTile_length (s : State) (tensor : Nat) (c : CatEntry) (block : Nat) (side : Side) (uv : Nat × Nat) :
    (s.factTile tensor c block side uv).length = c.tileElems uv := by
  unfold State.factTile
  rw [List.length_map, List.length_range]

/-! ### One output tile is merged (R160, R161, R173, R175) -/

/-- An array with nothing in its sets or its queue. -/
def ArrayUnit.rest (next : BitVec 1) : ArrayUnit := ⟨AccSet.empty, AccSet.empty, next, []⟩

/-- Both arrays are at rest. -/
def State.arraysRest (s : State) : Prop := ∃ p q : BitVec 1, s.jk.arrays = [.rest p, .rest q]

theorem tileArray_lt (index : Nat) : tileArray index < 2 := Nat.mod_lt _ (by decide)

theorem array_rest {s : State} (h : s.arraysRest) {n : Nat} (hn : n < 2) : ∃ p, s.array n = .rest p := by
  obtain ⟨p, q, h⟩ := h
  unfold State.array
  rw [h]
  obtain rfl | rfl : n = 0 ∨ n = 1 := by omega
  · exact ⟨p, rfl⟩
  · exact ⟨q, rfl⟩

theorem arrays_length {s : State} (h : s.arraysRest) : s.jk.arrays.length = 2 := by
  obtain ⟨p, q, h⟩ := h
  rw [h]
  rfl

theorem set_rest (p i : BitVec 1) : (ArrayUnit.rest p).set i = AccSet.empty := by
  obtain rfl | rfl := set_number i <;> rfl

/-- An array that has fed and drained one tile is at rest again. -/
theorem arraysRest_setArray {s : State} (h : s.arraysRest) {n : Nat} {f : ArrayUnit → ArrayUnit} (hf : ∀ p, ∃ q, f (.rest p) = .rest q) :
    (s.setArray n f).arraysRest := by
  obtain ⟨p, q, h⟩ := h
  show ∃ p' q' : BitVec 1, modifyNth f n s.jk.arrays = [.rest p', .rest q']
  rw [h]
  obtain ⟨p', hp⟩ := hf p
  obtain ⟨q', hq⟩ := hf q
  match n with
  | 0 => exact ⟨p', q, by rw [modifyNth, hp]⟩
  | 1 => exact ⟨p, q', by rw [modifyNth, modifyNth, hq]⟩
  | n + 2 =>
    refine ⟨p, q, ?_⟩
    rw [modifyNth, modifyNth]
    cases n <;> rfl

/-- Set i of an array is fed with a tile, and the other set is next (R160). -/
def ArrayUnit.fed (u : ArrayUnit) (i : BitVec 1) (t : AccSet) : ArrayUnit := { u.putSet i t with next := i + 1 }

/-- Set i of an array is free again, and its output queue empty (R161). -/
def ArrayUnit.freed (u : ArrayUnit) (i : BitVec 1) : ArrayUnit := { u.putSet i AccSet.empty with queue := [] }

theorem freed_fed_rest (p r : BitVec 1) (t : AccSet) : ((ArrayUnit.rest r).fed p t).freed p = .rest (p + 1) := by
  obtain rfl | rfl := set_number p <;> rfl

theorem set_fed_rest (p : BitVec 1) (t : AccSet) : ((ArrayUnit.rest p).fed p t).set p = t := by
  obtain rfl | rfl := set_number p <;> rfl

theorem queue_fed_rest (p : BitVec 1) (t : AccSet) : ((ArrayUnit.rest p).fed p t).queue = [] := by
  obtain rfl | rfl := set_number p <;> rfl

/-- The tile of C, element by element (R173). -/
def gramTile (c : CatEntry) (cols : List (List W16)) (quant : List (Int × List Int × Nat)) (uv : Nat × Nat) : List W32 :=
  (List.range (c.tileElems uv)).map fun k =>
    gramAt c cols quant (256 * uv.1 + k / stripOf c.edge (256 * uv.2)) (256 * uv.2 + k % stripOf c.edge (256 * uv.2))

/-- What a merge's use of the arrays leaves alone, its own block's memory and records apart. -/
def State.mergeBase (s : State) : Option RunImage × Mem × JqBlock × List Refresh := (s.image, s.hostMem, s.jq, s.jk.queue)

/-- A tile of C goes through its array to the block's vector unit (R161, R173). -/
theorem mergeTile_taken {s : State} (h : s.arraysRest) (m : Merge) (c : CatEntry) (side : Side) (cols : List (List W16))
    (quant : List (Int × List Int × Nat)) (uv : Nat × Nat) (index : Nat) :
    ∃ u : State, u.arraysRest ∧ u.mergeBase = s.mergeBase ∧ u.stateMem = s.stateMem ∧ u.jk.merges = s.jk.merges ∧
      s.mergeTile m c side cols quant uv index = u.mergeTaken m side index (gramTile c cols quant uv) := by
  obtain ⟨p, hp⟩ := array_rest h (tileArray_lt index)
  have hlen := arrays_length h
  have hn : tileArray index < s.jk.arrays.length := hlen ▸ tileArray_lt index
  unfold State.mergeTile
  dsimp only
  generalize ht : (AccSet.mk _ _ _) = t
  have hdst : t.dst = some (.vectorUnit m side index) := by rw [← ht]
  have hdrained : t.drained = gramTile c cols quant uv := by
    rw [← ht]
    unfold AccSet.drained
    dsimp only
    rw [List.map_map]
    rfl
  generalize tileArray index = n at hp hn
  have hfeed : s.feedTile n t = s.setArray n (·.fed p t) := by
    unfold State.feedTile
    dsimp only
    rw [show s.drainSet n (s.array n).next = s by
      unfold State.drainSet
      dsimp only
      rw [hp, set_rest]
      rfl, hp]
    rfl
  have harray := array_setArray_same s n (·.fed p t) hn
  rw [hp] at harray
  have hdrain := drainSet_full (s := s.setArray n (·.fed p t)) (n := n) (i := p) (d := .vectorUnit m side index)
    (by rw [harray, set_fed_rest]; exact hdst) (by show n < (modifyNth _ n s.jk.arrays).length; rw [modifyNth_length]; exact hn)
    (by rw [harray]; exact queue_fed_rest p t)
  rw [harray, set_fed_rest, hdrained] at hdrain
  have hrest := arraysRest_setArray h (n := n) (f := fun u => (u.fed p t).freed p) fun r => ⟨_, freed_fed_rest p r t⟩
  rw [← setArray_setArray s n (·.fed p t) (·.freed p)] at hrest
  rw [hfeed, show (s.array n).next = p by rw [hp]; rfl]
  refine ⟨_, ?_, ?_, ?_, ?_, hdrain⟩
  all_goals generalize (gramTile c cols quant uv).any f32NonFinite = bad
  · cases bad <;> exact hrest
  all_goals cases bad <;> rfl

theorem zipWith_range {α β γ : Type} (f : α → β → γ) (g : Nat → α) (l : List β) (d : β) :
    ((List.range l.length).map g).zipWith f l = (List.range l.length).map fun k => f (g k) (l.getD k d) := by
  refine List.ext_getElem (by simp) fun k hk _ => ?_
  have hk : k < l.length := by simpa using hk
  simp [List.getElem_zipWith, hk]

/-- The merged elements of an output tile: γ C + α F (R173). -/
def State.mergedTile (s : State) (m : Merge) (c : CatEntry) (side : Side) (cols : List (List W16))
    (quant : List (Int × List Int × Nat)) (uv : Nat × Nat) : List W32 :=
  (List.range (c.tileElems uv)).map fun k =>
    f32Fma (m.gamma side) (gramAt c cols quant (256 * uv.1 + k / stripOf c.edge (256 * uv.2)) (256 * uv.2 + k % stripOf c.edge (256 * uv.2)))
      (f32Mul m.alpha ((s.factTile m.tensor c m.block side uv).getD k 0))

theorem mergedVals_gramTile (s : State) (m : Merge) (c : CatEntry) (side : Side) (cols : List (List W16))
    (quant : List (Int × List Int × Nat)) {uv : Nat × Nat} {index : Nat} (huv : c.factTiles.getD index (0, 0) = uv) :
    s.mergedVals m c side index (gramTile c cols quant uv) = s.mergedTile m c side cols quant uv := by
  unfold State.mergedVals State.mergedTile gramTile
  rw [huv, ← factTile_length s m.tensor c m.block side uv]
  exact zipWith_range _ _ _ 0

/-- Output tile k of the factor counts as recorded in a merge. -/
def Merge.advance (m : Merge) (side : Side) (k : Nat) (x : Merge) : Merge := if m.same x then x.record side k else x

/-- A merged tile stands in its place, unless it has a non-finite element, and nothing else of the state tier changes (R173–R175). -/
theorem mergeTile_effect {s : State} (h : s.arraysRest) (hw : Memory.wf s.stateMem = true) {m : Merge} {c : CatEntry}
    (hcat : s.cat m.tensor = some c) (side : Side) (cols : List (List W16)) (quant : List (Int × List Int × Nat)) {k : Nat}
    (hk : k < c.factTiles.length) :
    let t := s.mergeTile m c side cols quant c.factTiles[k] k
    let a := s.factAddr m.tensor c m.block side + c.tileOff k
    let new := s.mergedTile m c side cols quant c.factTiles[k]
    t.arraysRest ∧ Memory.wf t.stateMem = true ∧ t.mergeBase = s.mergeBase ∧ t.jk.merges = s.jk.merges.map (m.advance side (k + 1)) ∧
      (∀ b n, b + n ≤ a ∨ a + 4 * c.tileElems c.factTiles[k] ≤ b → memRead t.stateMem b n = memRead s.stateMem b n) ∧
      t.factTile m.tensor c m.block side c.factTiles[k] =
        if new.any f32NonFinite then s.factTile m.tensor c m.block side c.factTiles[k] else new := by
  intro t a new
  have huv : c.factTiles.getD k (0, 0) = c.factTiles[k] := by
    rw [List.getD_eq_getElem?_getD, List.getElem?_eq_getElem hk, Option.getD_some]
  obtain ⟨u, hrest, hbase, hmem, hmerges, ht⟩ := mergeTile_taken h m c side cols quant c.factTiles[k] k
  have himg : u.image = s.image := congrArg Prod.fst hbase
  have ucat : u.cat m.tensor = some c := (congrArg (fun i : Option RunImage => (i.getD RunImage.empty).catalogue[m.tensor]?) himg).trans hcat
  have hold : u.factTile m.tensor c m.block side c.factTiles[k] = s.factTile m.tensor c m.block side c.factTiles[k] :=
    factTile_congr himg hk fun j _ => by rw [hmem]
  have hnew : u.mergedTile m c side cols quant c.factTiles[k] = new := by
    show u.mergedTile m c side cols quant c.factTiles[k] = s.mergedTile m c side cols quant c.factTiles[k]
    unfold State.mergedTile
    rw [hold]
  change t = _ at ht
  rw [mergeTaken_eq u m ucat, mergedVals_gramTile u m c side cols quant huv, hnew, huv, factTileAddr_eq u m.tensor c m.block side hk,
    factAddr_congr himg] at ht
  have hlen : new.length = c.tileElems c.factTiles[k] := by
    show (State.mergedTile s m c side cols quant c.factTiles[k]).length = _
    unfold State.mergedTile
    rw [List.length_map, List.length_range]
  clear_value t new
  subst ht
  by_cases bad : new.any f32NonFinite = true
  · simp only [if_pos bad]
    have tmem : ∀ v : State, v.stateMem = u.stateMem → v.image = u.image →
        v.factTile m.tensor c m.block side c.factTiles[k] = s.factTile m.tensor c m.block side c.factTiles[k] := fun v vmem vimg =>
      factTile_congr (vimg.trans himg) hk fun j _ => by rw [vmem, hmem]
    exact ⟨hrest, hmem ▸ hw, hbase, congrArg (List.map (m.advance side (k + 1))) hmerges, fun b n _ => congrArg (memRead · b n) hmem,
      tmem _ rfl rfl⟩
  · simp only [if_neg bad]
    have hwrite := stateWrite_noPorts (u.recorded m side k) (u.blockTile m.tensor c m.block) a (new.flatMap bytes32)
    generalize (u.recorded m side k).stateWrite (u.blockTile m.tensor c m.block) a (new.flatMap bytes32) = v at hwrite
    have vmem : v.stateMem = memWrite s.stateMem a (new.flatMap bytes32) :=
      (congrArg State.stateMem hwrite :).trans (congrArg (memWrite · a (new.flatMap bytes32)) hmem)
    have vimg : v.image = u.image := (congrArg State.image hwrite :)
    refine ⟨?_, vmem ▸ wf_memWrite _ _ _ hw, (congrArg State.mergeBase hwrite :).trans hbase,
      (congrArg (fun w : State => w.jk.merges) hwrite :).trans (congrArg (List.map (m.advance side (k + 1))) hmerges), fun b n hb => ?_, ?_⟩
    · obtain ⟨p, q, harrays⟩ := hrest
      exact ⟨p, q, (congrArg (fun w : State => w.jk.arrays) hwrite :).trans harrays⟩
    · rw [vmem, memRead_memWrite_out _ _ _ _ _ hw (by rw [flatMap_bytes32_length, hlen]; exact hb)]
    · unfold State.factTile
      rw [factTileAddr_eq v m.tensor c m.block side hk, factAddr_congr (vimg.trans himg), vmem]
      exact words_memWrite hw a new hlen

/-! ### A factor is merged (R173–R176) -/

theorem same_record (m x : Merge) (side : Side) (k : Nat) : m.same (x.record side k) = m.same x := by
  cases side <;> rfl

theorem advance_advance (m : Merge) (side : Side) (j k : Nat) (x : Merge) :
    m.advance side k (m.advance side j x) = m.advance side k x := by
  unfold Merge.advance
  by_cases h : m.same x = true
  · rw [if_pos h, if_pos ((same_record m x side j).trans h)]
    cases side <;> rw [if_pos h] <;> rfl
  · rw [if_neg h]

/-- The output tiles from number d on, each merged in its turn. -/
def State.mergeFrom (s : State) (m : Merge) (c : CatEntry) (side : Side) (cols : List (List W16)) (quant : List (Int × List Int × Nat))
    (d : Nat) : State :=
  (c.factTiles.zipIdx.drop d).foldl (fun s p => s.mergeTile m c side cols quant p.1 p.2) s

theorem mergeFrom_of_lt (s : State) (m : Merge) (c : CatEntry) (side : Side) (cols : List (List W16))
    (quant : List (Int × List Int × Nat)) {d : Nat} (hd : d < c.factTiles.length) :
    s.mergeFrom m c side cols quant d =
      (s.mergeTile m c side cols quant c.factTiles[d] d).mergeFrom m c side cols quant (d + 1) := by
  unfold State.mergeFrom
  rw [List.drop_eq_getElem_cons (by rw [List.length_zipIdx]; exact hd), List.foldl_cons, List.getElem_zipIdx, Nat.zero_add]

theorem mergedTile_congr {s t : State} {m : Merge} {c : CatEntry} {side : Side} {uv : Nat × Nat}
    (h : t.factTile m.tensor c m.block side uv = s.factTile m.tensor c m.block side uv) (cols : List (List W16))
    (quant : List (Int × List Int × Nat)) : t.mergedTile m c side cols quant uv = s.mergedTile m c side cols quant uv := by
  unfold State.mergedTile
  rw [h]

/-- What is left of an output tile by its merge (R173, R175). -/
def State.afterMerge (s : State) (m : Merge) (c : CatEntry) (side : Side) (cols : List (List W16)) (quant : List (Int × List Int × Nat))
    (uv : Nat × Nat) : List W32 :=
  if (s.mergedTile m c side cols quant uv).any f32NonFinite then s.factTile m.tensor c m.block side uv
  else s.mergedTile m c side cols quant uv

/-- A factor merged from output tile d on: every one of these tiles is merged once, and recorded. -/
structure MergedFrom (m : Merge) (c : CatEntry) (side : Side) (cols : List (List W16)) (quant : List (Int × List Int × Nat)) (d : Nat)
    (s t : State) : Prop where
  rest : t.arraysRest
  wf : Memory.wf t.stateMem = true
  base : t.mergeBase = s.mergeBase
  merges : t.jk.merges = if d < c.factTiles.length then s.jk.merges.map (m.advance side c.factTiles.length) else s.jk.merges
  outside : ∀ b n, b + n ≤ s.factAddr m.tensor c m.block side + c.tileOff d ∨ s.factAddr m.tensor c m.block side + c.factBytes ≤ b →
    memRead t.stateMem b n = memRead s.stateMem b n
  tile : ∀ k (hk : k < c.factTiles.length), d ≤ k →
    t.factTile m.tensor c m.block side c.factTiles[k] = s.afterMerge m c side cols quant c.factTiles[k]

theorem mergeFrom_merged (m : Merge) (c : CatEntry) (side : Side) (cols : List (List W16)) (quant : List (Int × List Int × Nat))
    {d : Nat} (hd : d ≤ c.factTiles.length) {s : State} (h : s.arraysRest) (hw : Memory.wf s.stateMem = true)
    (hcat : s.cat m.tensor = some c) : MergedFrom m c side cols quant d s (s.mergeFrom m c side cols quant d) := by
  induction hd using Nat.decreasingInduction generalizing s with
  | self =>
    have hnone : s.mergeFrom m c side cols quant c.factTiles.length = s := by
      unfold State.mergeFrom
      rw [List.drop_eq_nil_of_le (by rw [List.length_zipIdx])]
      rfl
    rw [hnone]
    exact ⟨h, hw, rfl, (if_neg (lt_irrefl _)).symm, fun _ _ _ => rfl, fun k hk hle => absurd hk (not_lt_of_ge hle)⟩
  | of_succ d hd ih =>
    obtain ⟨urest, uwf, ubase, umerges, uoutside, utile⟩ := mergeTile_effect h hw hcat side cols quant hd
    rw [mergeFrom_of_lt s m c side cols quant hd]
    generalize s.mergeTile m c side cols quant c.factTiles[d] d = u at urest uwf ubase umerges uoutside utile
    have himg : u.image = s.image := congrArg Prod.fst ubase
    have ucat : u.cat m.tensor = some c := (congrArg (fun i : Option RunImage => (i.getD RunImage.empty).catalogue[m.tensor]?) himg).trans hcat
    have rest := ih urest uwf ucat
    generalize u.mergeFrom m c side cols quant (d + 1) = t at rest
    have hoff := tileOff_succ c hd
    have haddr := factAddr_congr himg m.tensor c m.block side
    have hbytes := tile_within c hd
    refine ⟨rest.rest, rest.wf, rest.base.trans ubase, ?_, fun b n hb => ?_, fun k hk hle => ?_⟩
    · rw [rest.merges, umerges, if_pos hd]
      split
      · rw [List.map_map]
        exact List.map_congr_left fun x _ => advance_advance ..
      · rw [show d + 1 = c.factTiles.length by omega]
    · rw [rest.outside b n (by rw [haddr]; omega), uoutside b n (by omega)]
    · by_cases hkd : k = d
      · subst hkd
        rw [factTile_congr (s := u) (congrArg Prod.fst rest.base) hk fun j hj => rest.outside _ _ (by omega)]
        exact utile
      · have hlt : d + 1 ≤ k := by omega
        have hmono := tileOff_mono c hlt hk.le
        have hkeep : u.factTile m.tensor c m.block side c.factTiles[k] = s.factTile m.tensor c m.block side c.factTiles[k] :=
          factTile_congr himg hk fun j _ => uoutside _ _ (by omega)
        rw [rest.tile k hk hlt]
        unfold State.afterMerge
        rw [mergedTile_congr hkeep, hkeep]

/-! ### A block's merges (R173, R175, R176) -/

/-- The columns of the kept rows that a merge reads (R171, R173). -/
def State.mergeCols (s : State) (m : Merge) (c : CatEntry) (side : Side) : List (List W16) :=
  (List.range c.edge).map fun i => (s.keptRows m.tensor c m.block side (m.step.toNat % 2)).map fun r => r.getD i 0

/-- The columns' codes in INT8 mode (R174). -/
def mergeQuant (c : CatEntry) (side : Side) (cols : List (List W16)) : List (Int × List Int × Nat) :=
  if c.factMode = 2 then cols.map (quantFeature (match side with | .L => c.gShift | .R => c.aShift)) else []

theorem mergeSide_merged {m : Merge} {c : CatEntry} {side : Side} (undone : m.done side < c.factTiles.length) {s : State}
    (h : s.arraysRest) (hw : Memory.wf s.stateMem = true) (hcat : s.cat m.tensor = some c) :
    MergedFrom m c side (s.mergeCols m c side) (mergeQuant c side (s.mergeCols m c side)) (m.done side) s (s.mergeSide m c side) := by
  unfold State.mergeSide
  dsimp only
  generalize stick s.jk.clamp _ = clamp
  have hm := mergeFrom_merged m c side (s.mergeCols m c side) (mergeQuant c side (s.mergeCols m c side)) undone.le
    (s := { s with jk := { s.jk with clamp := clamp } }) h hw hcat
  exact ⟨hm.rest, hm.wf, hm.base, hm.merges, hm.outside, hm.tile⟩

theorem of_mergeDue {s : State} {tensor block : Nat} {c : CatEntry} {side : Side} {m : Merge} (h : s.mergeDue tensor block c side = some m) :
    (s.jk.merges.find? fun m => m.tensor == tensor && m.block == block && decide (m.done side < c.factTiles.length)) = some m ∧
      (s.jk.queue.any fun r => r.tensor == tensor && r.block == block && r.side == side && r.due == m.step) = false ∧
      m.tensor = tensor ∧ m.block = block ∧ m.done side < c.factTiles.length := by
  unfold State.mergeDue at h
  split at h
  · cases h
  case h_2 m' hfind =>
    split at h
    · cases h
    · next hqueue =>
      obtain rfl := Option.some.inj h
      have hm := List.find?_some hfind
      simp only [Bool.and_eq_true, beq_iff_eq, decide_eq_true_eq] at hm
      exact ⟨hfind, Bool.eq_false_iff.mpr hqueue, hm.1.1, hm.1.2, hm.2⟩

/-- What a block's merge of one factor leaves: the records of that factor advance, and nothing outside it changes. -/
structure OneSide (tensor block : Nat) (c : CatEntry) (side : Side) (s t : State) : Prop where
  rest : t.arraysRest
  wf : Memory.wf t.stateMem = true
  base : t.mergeBase = s.mergeBase
  merges : ∃ f : Merge → Merge, t.jk.merges = s.jk.merges.map f ∧ ∀ x, f x = x ∨ ∃ n, f x = x.record side n
  outside : ∀ b n, b + n ≤ s.factAddr tensor c block side ∨ s.factAddr tensor c block side + c.factBytes ≤ b →
    memRead t.stateMem b n = memRead s.stateMem b n

theorem mergeFactor_due {s : State} {tensor block : Nat} {c : CatEntry} {side : Side} {m : Merge} (h : s.arraysRest)
    (hw : Memory.wf s.stateMem = true) (hcat : s.cat tensor = some c) (due : s.mergeDue tensor block c side = some m) :
    MergedFrom m c side (s.mergeCols m c side) (mergeQuant c side (s.mergeCols m c side)) (m.done side) s
      (s.mergeFactor tensor block c side) := by
  obtain ⟨-, -, htensor, -, undone⟩ := of_mergeDue due
  unfold State.mergeFactor
  rw [due]
  exact mergeSide_merged undone h hw (htensor ▸ hcat)

theorem mergeFactor_oneSide {s : State} {tensor block : Nat} {c : CatEntry} (side : Side) (h : s.arraysRest)
    (hw : Memory.wf s.stateMem = true) (hcat : s.cat tensor = some c) :
    OneSide tensor block c side s (s.mergeFactor tensor block c side) := by
  cases due : s.mergeDue tensor block c side with
  | none =>
    have hnone : s.mergeFactor tensor block c side = s := by
      unfold State.mergeFactor
      rw [due]
    rw [hnone]
    exact ⟨h, hw, rfl, ⟨id, (List.map_id _).symm, fun _ => .inl rfl⟩, fun _ _ _ => rfl⟩
  | some m =>
    have hm := mergeFactor_due h hw hcat due
    obtain ⟨-, -, rfl, rfl, undone⟩ := of_mergeDue due
    refine ⟨hm.rest, hm.wf, hm.base, ⟨m.advance side c.factTiles.length, hm.merges.trans (if_pos undone), fun x => ?_⟩,
      fun b n hb => hm.outside b n (hb.imp_left fun h => h.trans (Nat.le_add_right ..))⟩
    unfold Merge.advance
    split
    · exact .inr ⟨_, rfl⟩
    · exact .inl rfl

/-- The records of one factor are not the other's (R175). -/
theorem record_other {side other : Side} (hne : other ≠ side) (x : Merge) (n : Nat) :
    (x.record other n).done side = x.done side ∧ (x.record other n).gamma side = x.gamma side := by
  cases side with
  | L =>
    cases other with
    | L => exact absurd rfl hne
    | R => exact ⟨rfl, rfl⟩
  | R =>
    cases other with
    | L => exact ⟨rfl, rfl⟩
    | R => exact absurd rfl hne

theorem record_fields (x : Merge) (side : Side) (n : Nat) : (x.record side n).alpha = x.alpha ∧ (x.record side n).tensor = x.tensor ∧
    (x.record side n).block = x.block ∧ (x.record side n).step = x.step := by
  cases side <;> exact ⟨rfl, rfl, rfl, rfl⟩

/-- A merge that only one factor's record has changed. -/
structure Merge.Alike (side : Side) (m x : Merge) : Prop where
  done : x.done side = m.done side
  gamma : x.gamma side = m.gamma side
  alpha : x.alpha = m.alpha
  tensor : x.tensor = m.tensor
  block : x.block = m.block
  step : x.step = m.step

theorem alike_of_record {side other : Side} (hne : other ≠ side) {f : Merge → Merge} (hf : ∀ x, f x = x ∨ ∃ n, f x = x.record other n)
    (m : Merge) : m.Alike side (f m) := by
  obtain h | ⟨n, h⟩ := hf m
  · rw [h]
    exact ⟨rfl, rfl, rfl, rfl, rfl, rfl⟩
  · rw [h]
    obtain ⟨halpha, htensor, hblock, hstep⟩ := record_fields m other n
    exact ⟨(record_other hne m n).1, (record_other hne m n).2, halpha, htensor, hblock, hstep⟩

theorem same_of_alike {side : Side} {m x y : Merge} (h : m.Alike side x) : x.same y = m.same y := by
  unfold Merge.same
  rw [h.tensor, h.block, h.step]

/-- After the other factor's merge the same merge of this factor is due (R176). -/
theorem mergeDue_oneSide {s t : State} {tensor block : Nat} {c : CatEntry} {side other : Side} (hne : other ≠ side) {m : Merge}
    (h : OneSide tensor block c other s t) (due : s.mergeDue tensor block c side = some m) :
    ∃ x, m.Alike side x ∧ t.mergeDue tensor block c side = some x := by
  obtain ⟨hfind, hqueue, -, -, -⟩ := of_mergeDue due
  obtain ⟨f, hmerges, hf⟩ := h.merges
  have hq : t.jk.queue = s.jk.queue := congrArg (fun b => b.2.2.2) h.base
  have hlike := alike_of_record hne hf m
  refine ⟨f m, hlike, ?_⟩
  have hpred : (fun x : Merge => x.tensor == tensor && x.block == block && decide (x.done side < c.factTiles.length)) ∘ f =
      fun x => x.tensor == tensor && x.block == block && decide (x.done side < c.factTiles.length) := funext fun x => by
    have hx := alike_of_record hne hf x
    show ((f x).tensor == tensor && (f x).block == block && decide ((f x).done side < c.factTiles.length)) = _
    rw [hx.tensor, hx.block, hx.done]
  unfold State.mergeDue
  rw [hmerges, List.find?_map, hpred, hfind, hq]
  dsimp only [Option.map_some]
  rw [hlike.step, hqueue]
  rfl

theorem mergedTile_alike {s : State} {m x : Merge} {side : Side} (h : m.Alike side x) (c : CatEntry) (cols : List (List W16))
    (quant : List (Int × List Int × Nat)) (uv : Nat × Nat) :
    s.mergedTile x c side cols quant uv = s.mergedTile m c side cols quant uv := by
  unfold State.mergedTile
  rw [h.gamma, h.alpha, h.tensor, h.block]

/-- The kept rows that a merge reads stand outside what was merged before (R171). -/
theorem mergeCols_congr {s t : State} {m x : Merge} {c : CatEntry} {side : Side} (himg : t.image = s.image) (h : m.Alike side x)
    (hmem : ∀ j, j < c.strata → memRead t.stateMem (s.sampleAddr m.tensor c m.block side (m.step.toNat % 2) j) (2 * c.edge) =
      memRead s.stateMem (s.sampleAddr m.tensor c m.block side (m.step.toNat % 2) j) (2 * c.edge)) :
    t.mergeCols x c side = s.mergeCols m c side := by
  have haddr (j : Nat) : t.sampleAddr m.tensor c m.block side (m.step.toNat % 2) j = s.sampleAddr m.tensor c m.block side (m.step.toNat % 2) j := by
    unfold State.sampleAddr State.blockBase State.cat State.decl State.img
    rw [himg]
  have hrows : t.keptRows x.tensor c x.block side (x.step.toNat % 2) = s.keptRows m.tensor c m.block side (m.step.toNat % 2) := by
    rw [h.tensor, h.block, h.step]
    unfold State.keptRows
    exact List.map_congr_left fun j hj => by rw [haddr, hmem j (List.mem_range.mp hj)]
  unfold State.mergeCols
  rw [hrows]

/-- Every record of a merge that has gone through a factor's tiles is complete (R175). -/
theorem done_of_merged {m x : Merge} {c : CatEntry} {side : Side} {l : List Merge} (hx : x ∈ l.map (m.advance side c.factTiles.length))
    (same : m.same x = true) : x.done side = c.factTiles.length := by
  obtain ⟨y, -, rfl⟩ := List.mem_map.mp hx
  unfold Merge.advance at same ⊢
  by_cases h : m.same y = true
  · rw [if_pos h]
    cases side <;> rfl
  · rw [if_neg h] at same
    exact absurd same h

/-- What a block's merge leaves of the factor that is due. -/
structure SideMerged (m : Merge) (c : CatEntry) (side : Side) (s t : State) : Prop where
  base : t.mergeBase = s.mergeBase
  done : ∀ x ∈ t.jk.merges, m.same x = true → x.done side = c.factTiles.length
  tile : ∀ k (hk : k < c.factTiles.length), m.done side ≤ k → t.factTile m.tensor c m.block side c.factTiles[k] =
    s.afterMerge m c side (s.mergeCols m c side) (mergeQuant c side (s.mergeCols m c side)) c.factTiles[k]

/-- L is merged first, and R's merge leaves it (R169, R175). -/
theorem sideMerged_L {s : State} {tensor block : Nat} {c : CatEntry} {m : Merge} (h : s.arraysRest) (hw : Memory.wf s.stateMem = true)
    (hcat : s.cat tensor = some c) (due : s.mergeDue tensor block c .L = some m) :
    SideMerged m c .L s ((s.mergeFactor tensor block c .L).mergeFactor tensor block c .R) := by
  have hm := mergeFactor_due h hw hcat due
  obtain ⟨-, -, rfl, rfl, undone⟩ := of_mergeDue due
  generalize s.mergeFactor m.tensor m.block c .L = u at hm
  have himg : u.image = s.image := congrArg Prod.fst hm.base
  have ucat : u.cat m.tensor = some c := (congrArg (fun i : Option RunImage => (i.getD RunImage.empty).catalogue[m.tensor]?) himg).trans hcat
  have hr := mergeFactor_oneSide (block := m.block) .R hm.rest hm.wf ucat
  generalize u.mergeFactor m.tensor m.block c .R = t at hr
  obtain ⟨f, hmerges, hf⟩ := hr.merges
  refine ⟨hr.base.trans hm.base, fun x hx same => ?_, fun k hk hle => ?_⟩
  · rw [hmerges] at hx
    obtain ⟨y, hy, rfl⟩ := List.mem_map.mp hx
    rw [hm.merges, if_pos undone] at hy
    have hlike := alike_of_record (side := .L) (by decide) hf y
    refine hlike.done.trans (done_of_merged hy ?_)
    unfold Merge.same at same ⊢
    rw [hlike.tensor, hlike.block, hlike.step] at same
    exact same
  · have hbytes := tile_within c hk
    have haddr := factAddr_congr himg m.tensor c m.block .R
    have haddrL := factAddr_congr himg m.tensor c m.block .L
    have hbehind := factAddr_R s m.tensor c m.block
    rw [factTile_congr (s := u) (congrArg Prod.fst hr.base) hk fun j hj => hr.outside _ _ (by omega), hm.tile k hk hle]

/-- R's merge goes on from what L's has left (R169, R171, R175). -/
theorem sideMerged_R {s : State} {tensor block : Nat} {c : CatEntry} {m : Merge} (h : s.arraysRest) (hw : Memory.wf s.stateMem = true)
    (hcat : s.cat tensor = some c) (due : s.mergeDue tensor block c .R = some m)
    (apart : ∀ j, j < c.strata → s.sampleAddr tensor c block .R (m.step.toNat % 2) j + 2 * c.edge ≤ s.factAddr tensor c block .L ∨
      s.factAddr tensor c block .L + c.factBytes ≤ s.sampleAddr tensor c block .R (m.step.toNat % 2) j) :
    SideMerged m c .R s ((s.mergeFactor tensor block c .L).mergeFactor tensor block c .R) := by
  have hl := mergeFactor_oneSide (block := block) .L h hw hcat
  generalize s.mergeFactor tensor block c .L = u at hl
  obtain ⟨x, hlike, xdue⟩ := mergeDue_oneSide (side := .R) (by decide) hl due
  have himg : u.image = s.image := congrArg Prod.fst hl.base
  have ucat : u.cat tensor = some c := (congrArg (fun i : Option RunImage => (i.getD RunImage.empty).catalogue[tensor]?) himg).trans hcat
  have hm := mergeFactor_due hl.rest hl.wf ucat xdue
  obtain ⟨-, -, -, -, undone⟩ := of_mergeDue xdue
  obtain ⟨-, -, rfl, rfl, -⟩ := of_mergeDue due
  generalize u.mergeFactor m.tensor m.block c .R = t at hm
  rw [mergeCols_congr himg hlike fun j hj => hl.outside _ _ (apart j hj)] at hm
  refine ⟨hm.base.trans hl.base, fun y hy same => ?_, fun k hk hle => ?_⟩
  · rw [hm.merges, if_pos undone] at hy
    exact done_of_merged hy ((same_of_alike hlike).trans same)
  · have hkeep : u.factTile m.tensor c m.block .R c.factTiles[k] = s.factTile m.tensor c m.block .R c.factTiles[k] :=
      factTile_congr himg hk fun j _ => hl.outside _ _ (by rw [factAddr_R]; omega)
    have htile := hm.tile k hk (hlike.done ▸ hle)
    unfold State.afterMerge at htile ⊢
    rw [mergedTile_alike hlike, hlike.tensor, hlike.block, mergedTile_congr hkeep, hkeep] at htile
    exact htile

theorem factorMerge_eq {s : State} {tensor block : Nat} {c : CatEntry} (hcat : s.cat tensor = some c)
    (mapped : (s.jg.tiles.remap.any fun l => l.toNat == s.blockTile tensor c block) = false) :
    ∃ ended : Merge → Bool, s.factorMerge tensor block =
      let u := (s.mergeFactor tensor block c .L).mergeFactor tensor block c .R
      { u with jk := { u.jk with merges := u.jk.merges.filter fun m => !ended m } } := by
  unfold State.factorMerge
  rw [hcat]
  dsimp only
  rw [mapped]
  exact ⟨_, rfl⟩

/-- Settles O23: a set drains through its taker, and a merge takes every output tile of its factor once. -/
theorem factorsAreGathered : Obligations.FactorsAreGathered := by
  unfold Obligations.FactorsAreGathered
  refine ⟨fun s array acc => ?_, fun s tensor block m c side u v p q hrest hok hcat due hmem mapped apart => ?_⟩
  · intro n a vals
    have hlt : n < 2 := array.isLt
    refine ⟨fun none => does_run (State.drainSet · n acc) rfl ?_, fun d full empty two => ?_⟩
    · have hset : ((s.begin_.array n).set acc).dst = Option.none := none
      unfold State.drainSet
      dsimp only
      rw [hset]
      rfl
    · obtain ⟨harray, hstate, hhost, hnow, hjq⟩ := arrayTileDrain_effect (s := s.begin_) (n := n) (i := acc) full 
        (show n < s.jk.arrays.length from two.symm ▸ hlt) empty
      generalize hu : s.begin_.drainSet n acc = w at harray hstate hhost hnow hjq
      refine exec_to (State.drainSet · n acc) rfl hu ⟨(congrArg (·.set acc) harray :).trans (set_putSet_same ..),
        (congrArg (·.set (acc + 1)) harray :).trans (set_putSet_other ..), (congrArg ArrayUnit.queue harray :),
        (congrArg ArrayUnit.next harray :).trans ?_, hstate, hhost, hnow, hjq⟩
      obtain rfl | rfl := set_number acc <;> rfl
  · intro rows cols quant gamma w old new
    have hw : Memory.wf s.stateMem = true := by
      simp only [State.memOk, Bool.and_eq_true] at hok
      exact hok.1.1.1.1.1.2
    obtain ⟨-, -, rfl, rfl, -⟩ := of_mergeDue due
    have hm : SideMerged m c side s.begin_ ((s.begin_.mergeFactor m.tensor m.block c .L).mergeFactor m.tensor m.block c .R) := by
      cases side with
      | L => exact sideMerged_L (s := s.begin_) ⟨p, q, hrest⟩ hw hcat due
      | R => exact sideMerged_R (s := s.begin_) ⟨p, q, hrest⟩ hw hcat due apart
    obtain ⟨ended, hdo⟩ := factorMerge_eq (s := s.begin_) (block := m.block) hcat mapped
    obtain ⟨k, hk, hle, huv⟩ : ∃ k, ∃ hk : k < c.factTiles.length, m.done side ≤ k ∧ c.factTiles[k] = (u, v) := by
      obtain ⟨i, hi, huv⟩ := List.mem_drop_iff_getElem.mp hmem
      exact ⟨m.done side + i, by omega, by omega, huv⟩
    have htile := hm.tile k hk hle
    rw [huv] at htile
    generalize (s.begin_.mergeFactor m.tensor m.block c .L).mergeFactor m.tensor m.block c .R = t at hm hdo htile
    refine exec_to (State.factorMerge · m.tensor m.block) rfl hdo ⟨fun x hx same => ?_, htile.trans ?_, congrArg (·.2.1) hm.base,
      congrArg (·.2.2.1) hm.base⟩
    · exact (hm.done x (List.mem_of_mem_filter hx) same).ge
    · have hnew : s.mergedTile m c side cols quant (u, v) = new := by
        cases side <;> rfl
      have hafter : s.afterMerge m c side cols quant (u, v) =
          if (s.mergedTile m c side cols quant (u, v)).any f32NonFinite then old else s.mergedTile m c side cols quant (u, v) := rfl
      rw [hnew] at hafter
      exact hafter

end Sys2Proof.Machine
end

section
/-!
The ring exchange: a received chunk takes its tests in order (R113), and the flag records of gathers and transfers.
-/
namespace Sys2Proof.Machine

/-! ### The tests of a received chunk (R113) -/

section

variable {s : State} {port vc : Nat} {raw : BitVec 512} {payload : List Byte}

/-- A chunk that takes a buffer changes the pools' directory and staging alone. -/
theorem stagePut_form (s : State) (pool : Pool) (port vc : Nat) (hdr : BitVec 512) (bytes : List Byte) :
    ∃ st sg, s.stagePut pool port vc hdr bytes = { s with jx := { s.jx with stage := st }, staging := sg } := by
  unfold State.stagePut
  split
  · exact ⟨s.jx.stage, s.staging, rfl⟩
  · exact ⟨_, _, rfl⟩

/-- A received chunk leaves its port for a buffer of the RX pool. -/
def State.intoPool (s : State) (port vc : Nat) (raw : BitVec 512) (payload : List Byte) : State :=
  let b := bytesLE 64 raw.toNat ++ payload
  (s.setPort port fun q => { q with rx := { q.rx with items := dropItem vc b q.rx.items } }).stagePut .rx port vc raw b

/-- The state in which a received chunk takes its tests. -/
def State.chunkSeen (s : State) (port vc : Nat) (raw : BitVec 512) (payload : List Byte) : State :=
  let u := s.intoPool port vc raw payload
  { u with jx := { u.jx with lastHdr := raw, seqRx := if (chunkHdr raw).seq = seqNext s.jx.seqRx port vc
                                                      then seqSet s.jx.seqRx port vc (seqNext s.jx.seqRx port vc + 1)
                                                      else s.jx.seqRx } }

theorem intoPool_form (s : State) (port vc : Nat) (raw : BitVec 512) (payload : List Byte) :
    ∃ l st sg, s.intoPool port vc raw payload = { s with jl := l, jx := { s.jx with stage := st }, staging := sg } := by
  obtain ⟨st, sg, h⟩ := stagePut_form (s.setPort port fun q => { q with rx := { q.rx with items :=
    (dropItem vc (bytesLE 64 raw.toNat ++ payload) q.rx.items) } }) .rx port vc raw (bytesLE 64 raw.toNat ++ payload)
  exact ⟨_, st, sg, h⟩

/-- Test 1 of R113. -/
def State.keyFits (s : State) (h : ChunkHdr) : Bool := match s.dom h.domain with | some d => d.key.toNat == h.key | none => false

theorem keyFits_false {h : ChunkHdr} (hk : ∀ d, s.dom h.domain = some d → d.key.toNat ≠ h.key) : s.keyFits h = false := by
  unfold State.keyFits
  split
  case h_1 d hd => exact beq_eq_false_iff_ne.mpr (hk d hd)
  case h_2 => rfl

theorem keyFits_true {h : ChunkHdr} {d : DomEntry} (hd : s.dom h.domain = some d) (hk : d.key.toNat = h.key) :
    s.keyFits h = true := by
  simp only [State.keyFits, hd, hk, BEq.rfl]

/-- A chunk of another domain's KEY is counted and recorded. -/
def State.keyCounted (s : State) (port : Nat) (raw : BitVec 512) (payload : List Byte) (vc : Nat) : State :=
  ({ s with jx := { s.jx with discKey := stick s.jx.discKey 1 } }).freeChunk ⟨port, vc, raw, payload, false⟩

/-- A chunk out of sequence is counted, and its buffer is free. -/
def State.seqCounted (s : State) (port : Nat) (raw : BitVec 512) (payload : List Byte) (vc : Nat) : State :=
  ({ s with jx := { s.jx with discSeq := stick s.jx.discSeq 1 } }).freeChunk ⟨port, vc, raw, payload, false⟩

theorem seqRx_chunkSeen (h : (chunkHdr raw).seq ≠ seqNext s.jx.seqRx port vc) :
    (s.chunkSeen port vc raw payload).jx.seqRx = s.jx.seqRx := if_neg h

/-- The tests in order. -/
theorem chunkReceive_eq (hr : s.inReset = false) (hvc : vc = 1 ∨ vc = 2) : s.chunkReceive port vc raw payload =
    let u := s.chunkSeen port vc raw payload
    if !u.keyFits (chunkHdr raw) then
      (u.keyCounted port raw payload vc).event 0x2B 0x0301 1
        [i1 port, i2 (chunkHdr raw).domain, i4 (chunkHdr raw).key, i2 (chunkHdr raw).src]
    else if (chunkHdr raw).seq ≠ seqNext s.jx.seqRx port vc then
      ((u.seqCounted port raw payload vc).event 0x2B 0x0302 1
        [i1 port, i1 vc, i4 (seqNext s.jx.seqRx port vc).toNat, i4 (chunkHdr raw).seq.toNat]).fault
    else
      let t := u.useTests ⟨port, vc, raw, payload, false⟩
      t.1.lateTests t.2 := by
  have hg : (s.inReset || (vc != 1 && vc != 2)) = false := by
    rw [hr]
    rcases hvc with h | h <;> subst h <;> rfl
  have hseq : (s.intoPool port vc raw payload).jx.seqRx = s.jx.seqRx := by
    obtain ⟨l, st, sg, h⟩ := intoPool_form s port vc raw payload
    rw [h]
  unfold State.chunkReceive
  rw [if_neg (by simp [hg])]
  unfold State.chunkSeen
  rw [← hseq]
  rfl

/-- What a received chunk leaves alone before its tests. -/
theorem chunkSeen_fields (s : State) (port vc : Nat) (raw : BitVec 512) (payload : List Byte) :
    (s.chunkSeen port vc raw payload).jx.rx = s.jx.rx ∧ (s.chunkSeen port vc raw payload).jx.lastHdr = raw ∧
      (s.chunkSeen port vc raw payload).jx.discKey = s.jx.discKey ∧ (s.chunkSeen port vc raw payload).jx.discSeq = s.jx.discSeq ∧
      (s.chunkSeen port vc raw payload).jq = s.jq ∧ (s.chunkSeen port vc raw payload).js = s.js ∧
      ∀ h : ChunkHdr, (s.chunkSeen port vc raw payload).keyFits h = s.keyFits h := by
  obtain ⟨l, st, sg, h⟩ := intoPool_form s port vc raw payload
  unfold State.chunkSeen
  rw [h]
  exact ⟨rfl, rfl, rfl, rfl, rfl, rfl, fun _ => rfl⟩

/-- Test 1 fails. -/
theorem chunkReceive_badKey (hr : s.inReset = false) (hvc : vc = 1 ∨ vc = 2)
    (hk : ∀ d, s.dom (chunkHdr raw).domain = some d → d.key.toNat ≠ (chunkHdr raw).key) :
    s.chunkReceive port vc raw payload = ((s.chunkSeen port vc raw payload).keyCounted port raw payload vc).event 0x2B 0x0301 1
      [i1 port, i2 (chunkHdr raw).domain, i4 (chunkHdr raw).key, i2 (chunkHdr raw).src] := by
  obtain ⟨-, -, -, -, -, -, hfits⟩ := chunkSeen_fields s port vc raw payload
  exact (chunkReceive_eq hr hvc).trans (if_pos (by rw [hfits, keyFits_false hk]; rfl))

/-- Test 1 passes and test 2 fails. -/
theorem chunkReceive_badSeq {d : DomEntry} (hr : s.inReset = false) (hvc : vc = 1 ∨ vc = 2)
    (hd : s.dom (chunkHdr raw).domain = some d) (hk : d.key.toNat = (chunkHdr raw).key)
    (hs : (chunkHdr raw).seq ≠ seqNext s.jx.seqRx port vc) :
    s.chunkReceive port vc raw payload = (((s.chunkSeen port vc raw payload).seqCounted port raw payload vc).event 0x2B 0x0302 1
      [i1 port, i1 vc, i4 (seqNext s.jx.seqRx port vc).toNat, i4 (chunkHdr raw).seq.toNat]).fault := by
  obtain ⟨-, -, -, -, -, -, hfits⟩ := chunkSeen_fields s port vc raw payload
  exact (chunkReceive_eq hr hvc).trans ((if_neg (by rw [hfits, keyFits_true hd hk]; decide)).trans (if_pos hs))

/-- A chunk that passes tests 1 to 4 takes the later tests. -/
theorem chunkReceive_good {d : DomEntry} (hr : s.inReset = false) (hvc : vc = 1 ∨ vc = 2)
    (hd : s.dom (chunkHdr raw).domain = some d) (hk : d.key.toNat = (chunkHdr raw).key)
    (hs : (chunkHdr raw).seq = seqNext s.jx.seqRx port vc) (hcrc : chunkCrcOk raw payload = true)
    (hf : s.chunkForm raw payload = true) :
    s.chunkReceive port vc raw payload = (s.chunkSeen port vc raw payload).lateTests ⟨port, vc, raw, payload, false⟩ := by
  obtain ⟨-, -, -, -, -, -, hfits⟩ := chunkSeen_fields s port vc raw payload
  have hform : (s.chunkSeen port vc raw payload).chunkForm raw payload = true := by
    obtain ⟨l, st, sg, h⟩ := intoPool_form s port vc raw payload
    unfold State.chunkSeen
    rw [h]
    exact hf
  refine (chunkReceive_eq hr hvc).trans ((if_neg (by rw [hfits, keyFits_true hd hk]; decide)).trans
    ((if_neg (not_not_intro hs)).trans ?_))
  unfold State.useTests
  rw [if_neg (by rw [hcrc]; decide), if_neg (by rw [hform]; decide)]

/-- A lap-1 chunk of the present step and epoch is routed. -/
theorem lateTests_present {c : RxChunk} (ho : (chunkHdr c.hdr).op = 0) (ht : (chunkHdr c.hdr).tepoch = s.jg.epoch.current)
    (hs : (chunkHdr c.hdr).step = s.jq.step) (hm : (chunkHdr c.hdr).mepoch = (chunkHdr c.hdr).step.toNat % 4) :
    s.lateTests c = s.routeChunk c := by
  unfold State.lateTests
  simp [ht, ho, hs, hm]

/-- A lap-1 chunk whose hop is this member's waits in the pool. -/
theorem routeChunk_waits {c : RxChunk} {e : ChunkEntry} {d : DomEntry} {cat : CatEntry} (ho : (chunkHdr c.hdr).op = 0)
    (he : s.chunk (chunkHdr c.hdr).chunk = some e) (hd : s.dom e.domain = some d)
    (hc : s.cat (s.chunkTensor (chunkHdr c.hdr).chunk) = some cat) (ha : s.mapAgrees (chunkHdr c.hdr) e = true)
    (hm : s.lap1Mine c.port (chunkHdr c.hdr) e d = true)
    (hx : s.jx.expired.contains ((chunkHdr c.hdr).chunk, (chunkHdr c.hdr).axis) = false) (hq : s.jq.draining = false) :
    s.routeChunk c = { s with jx := { s.jx with rx := s.jx.rx ++ [c] } } := by
  unfold State.routeChunk
  simp only [he, hd, hc]
  rw [if_neg (by omega), if_neg (by rw [ha]; decide), if_neg (by omega), if_pos hm, if_neg (by rw [hx, hq]; decide)]

/-- A good lap-1 chunk for this member waits in the RX pool, and its port expects the next SEQ. -/
theorem chunkReceive_waits {e : ChunkEntry} {d : DomEntry} {cat : CatEntry} (hr : s.inReset = false) (hvc : vc = 1 ∨ vc = 2)
    (hdom : s.dom (chunkHdr raw).domain = some d) (hk : d.key.toNat = (chunkHdr raw).key)
    (hseq : (chunkHdr raw).seq = seqNext s.jx.seqRx port vc) (hcrc : chunkCrcOk raw payload = true)
    (hf : s.chunkForm raw payload = true) (ho : (chunkHdr raw).op = 0) (ht : (chunkHdr raw).tepoch = s.jg.epoch.current)
    (hs : (chunkHdr raw).step = s.jq.step) (hm : (chunkHdr raw).mepoch = (chunkHdr raw).step.toNat % 4)
    (he : s.chunk (chunkHdr raw).chunk = some e) (hd : s.dom e.domain = some d)
    (hc : s.cat (s.chunkTensor (chunkHdr raw).chunk) = some cat) (ha : s.mapAgrees (chunkHdr raw) e = true)
    (hmine : s.lap1Mine port (chunkHdr raw) e d = true)
    (hx : s.jx.expired.contains ((chunkHdr raw).chunk, (chunkHdr raw).axis) = false) (hq : s.jq.draining = false) :
    s.chunkReceive port vc raw payload =
      let u := s.intoPool port vc raw payload
      { u with jx := { u.jx with lastHdr := raw, seqRx := seqSet s.jx.seqRx port vc ((chunkHdr raw).seq + 1),
                                 rx := s.jx.rx ++ [⟨port, vc, raw, payload, false⟩] } } := by
  obtain ⟨l, st, sg, hi⟩ := intoPool_form s port vc raw payload
  rw [chunkReceive_good hr hvc hdom hk hseq hcrc hf, State.chunkSeen, hi, if_pos hseq, ← hseq]
  refine (lateTests_present ?_ ?_ ?_ ?_).trans (routeChunk_waits (e := e) (d := d) (cat := cat) ?_ ?_ ?_ ?_ ?_ ?_ ?_ ?_)
  exacts [ho, ht, hs, hm, ho, he, hd, hc, ha, hmine, hx, hq]

end

theorem keyCounted_calm (s : State) (port : Nat) (raw : BitVec 512) (payload : List Byte) (vc : Nat) :
    (s.keyCounted port raw payload vc).calm = { s with jx := { s.jx with discKey := stick s.jx.discKey 1 } }.calm :=
  freeChunk_calm ..

theorem seqCounted_calm (s : State) (port : Nat) (raw : BitVec 512) (payload : List Byte) (vc : Nat) :
    (s.seqCounted port raw payload vc).calm = { s with jx := { s.jx with discSeq := stick s.jx.discSeq 1 } }.calm :=
  freeChunk_calm ..

/-- Settles O20: `chunkReceive_badKey`, `chunkReceive_badSeq`, and `chunkReceive_good` with `routeChunk_waits`. -/
theorem chunksAreTested : Obligations.ChunksAreTested := by
  refine ⟨fun s port vc raw payload hr hvc he => ⟨fun hk => ?_, fun ⟨d, hd, hk⟩ hs => ?_⟩,
    fun s port vc raw payload e d c hr hvc => ?_⟩
  · have hvcn : vc.toNat = 1 ∨ vc.toNat = 2 := hvc.imp (congrArg BitVec.toNat) (congrArg BitVec.toNat)
    refine exec_to (fun s => s.chunkReceive port.toNat vc.toNat raw payload) rfl
      (chunkReceive_badKey (s := s.begin_) hr hvcn hk) ?_
    obtain ⟨hrx, hhdr, hdk, -, hjq, hjs, -⟩ := chunkSeen_fields s.begin_ port.toNat vc.toNat raw payload
    have hcalm := keyCounted_calm (s.begin_.chunkSeen port.toNat vc.toNat raw payload) port.toNat raw payload vc.toNat
    generalize s.begin_.chunkSeen port.toNat vc.toNat raw payload = u at *
    generalize u.keyCounted port.toNat raw payload vc.toNat = v at *
    have hring : v.js.ring = s.js.ring := (congrArg (fun u : State => u.js.ring) hcalm :).trans (congrArg JsBlock.ring hjs)
    refine ⟨(congrArg (fun u : State => u.jx.discKey) hcalm :).trans (congrArg (stick · 1) hdk),
      (congrArg (fun u : State => u.jx.rx) hcalm :).trans hrx, (congrArg (fun u : State => u.jx.lastHdr) hcalm :).trans hhdr,
      (congrArg (fun u : State => u.jq.verdict.fault) hcalm :).trans (congrArg (fun q : JqBlock => q.verdict.fault) hjq), ?_⟩
    exact newest_code_of_one (u := v.event ..) (r := v.js.ring) ((congrArg RingBlock.evq hring).trans (evq_of_eventsIn he)) rfl
  · have hvcn : vc.toNat = 1 ∨ vc.toNat = 2 := hvc.imp (congrArg BitVec.toNat) (congrArg BitVec.toNat)
    refine exec_to (fun s => s.chunkReceive port.toNat vc.toNat raw payload) rfl
      (chunkReceive_badSeq (s := s.begin_) hr hvcn hd hk hs) ?_
    obtain ⟨hrx, hhdr, -, hds, -, hjs, -⟩ := chunkSeen_fields s.begin_ port.toNat vc.toNat raw payload
    have hseq := seqRx_chunkSeen (s := s.begin_) (payload := payload) hs
    have hcalm := seqCounted_calm (s.begin_.chunkSeen port.toNat vc.toNat raw payload) port.toNat raw payload vc.toNat
    generalize s.begin_.chunkSeen port.toNat vc.toNat raw payload = u at *
    generalize u.seqCounted port.toNat raw payload vc.toNat = v at *
    have hring : v.js.ring = s.js.ring := (congrArg (fun u : State => u.js.ring) hcalm :).trans (congrArg JsBlock.ring hjs)
    refine ⟨(congrArg (fun u : State => u.jx.discSeq) hcalm :).trans (congrArg (stick · 1) hds),
      (congrArg (fun u : State => u.jx.rx) hcalm :).trans hrx, (congrArg (fun u : State => u.jx.seqRx) hcalm :).trans hseq,
      (congrArg (fun u : State => u.jx.lastHdr) hcalm :).trans hhdr, rfl, ?_⟩
    exact newest_code_of_one (u := (v.event ..).fault) (r := v.js.ring) ((congrArg RingBlock.evq hring).trans (evq_of_eventsIn he)) rfl
  · intro h hd hk hs hcrc hf ho ht hstep hm hchunk hdom hcat hagree hmine hx hq
    have hvcn : vc.toNat = 1 ∨ vc.toNat = 2 := hvc.imp (congrArg BitVec.toNat) (congrArg BitVec.toNat)
    refine does_run (fun s => s.chunkReceive port.toNat vc.toNat raw payload) rfl
      ((chunkReceive_waits (s := s.begin_) hr hvcn hd hk hs hcrc hf ho ht hstep hm hchunk hdom hcat hagree hmine hx hq).trans ?_)
    rfl

/-! ### Flag records (R126, R129, R130) -/

section

variable {s : State}

/-- The record of a full run. -/
def State.runRecorded (s : State) (g : Nat) (ge : GatherEntry) (r : GatherRun) : State :=
  (s.setRun { r with flagged := true }).hostWrite 0x2B (ge.flagBase + 16 * (r.run % ge.nbuf))
    (flagRecord r.step g (if r.bad then 2 else 1) r.run)

/-- The scans of the tensors that a gather completes (R222). -/
def State.scansComplete (s : State) (g : Nat) : State :=
  { s with ju := { s.ju with scans := s.ju.scans.map fun x =>
    if (s.gatherTensors g).contains x.tensor && s.scanDone x.tensor then { x with complete := true } else x } }

theorem gatherFlag_full {g : Nat} {ge : GatherEntry} {r : GatherRun} (hg : s.img.gathers[g]? = some ge)
    (hr : (s.findRun g fun r => !r.flagged) = some r) (hf : s.runFull r = true) :
    s.gatherFlag g = if ge.carryMask then (s.runRecorded g ge r).scansComplete g else s.runRecorded g ge r := by
  unfold State.gatherFlag
  simp only [hg, hr]
  exact (if_neg (by rw [hf]; decide)).trans rfl

theorem runRecorded_fields (s : State) (g : Nat) (ge : GatherEntry) (r : GatherRun) :
    (s.runRecorded g ge r).hostMem = memWrite s.hostMem (ge.flagBase + 16 * (r.run % ge.nbuf))
        (flagRecord r.step g (if r.bad then 2 else 1) r.run) ∧
      (s.runRecorded g ge r).jx.gathers =
        s.jx.gathers.map (fun x => if x.gather == r.gather && x.run == r.run then { r with flagged := true } else x) ∧
      (s.runRecorded g ge r).stateMem = s.stateMem ∧ (s.runRecorded g ge r).jq = s.jq ∧ (s.runRecorded g ge r).ju = s.ju := by
  have h := hostWrite_noPorts (s.setRun { r with flagged := true }) 0x2B (ge.flagBase + 16 * (r.run % ge.nbuf))
    (flagRecord r.step g (if r.bad then 2 else 1) r.run)
  unfold State.runRecorded
  generalize (s.setRun { r with flagged := true }).hostWrite _ _ _ = u at h
  exact ⟨(congrArg State.hostMem h :), (congrArg (fun u : State => u.jx.gathers) h :), (congrArg State.stateMem h :),
    (congrArg State.jq h :), (congrArg State.ju h :)⟩

/-- A transfer whose chunks have all come has its record written, and its run is closed. -/
theorem xferFlag_full {n : Nat} {x : XferEntry} {r : XferRun} (hx : s.img.xfers[n]? = some x)
    (hr : (s.findXfer n fun y => !y.flagged) = some r) (hall : ∀ k, k < x.chunks → k ∈ r.got) :
    s.xferFlag n = (s.setXfer { r with flagged := true }).hostWrite 0x2B x.flag
      (flagRecord (s.jq.step - 1) n (if r.bad then 2 else 1) r.run) := by
  unfold State.xferFlag
  simp only [hx, hr]
  refine (if_pos ?_).trans rfl
  exact List.all_eq_true.mpr fun k hk => List.contains_iff_mem.mpr (hall k (List.mem_range.mp hk))

end

/-- Settles O21: `gatherFlag_full` and `xferFlag_full`. -/
theorem flagRecordsAreWritten : Obligations.FlagRecordsAreWritten := by
  refine ⟨fun s g ge r hg hr hf => ?_, fun s n x r hx hr hall => ?_⟩
  · have hflag := gatherFlag_full (s := s.begin_) hg hr hf
    obtain ⟨hmem, hgathers, hstate, hjq, hju⟩ := runRecorded_fields s.begin_ g ge r
    generalize s.begin_.runRecorded g ge r = u at *
    refine exec_to (fun s => s.gatherFlag g) rfl hflag ?_
    cases hc : ge.carryMask
    case true => exact ⟨hmem, hgathers, hstate, hjq, fun h => absurd h (by decide)⟩
    case false => exact ⟨hmem, hgathers, hstate, hjq, fun _ => hju⟩
  · exact does_run (fun s => s.xferFlag n) rfl (xferFlag_full (s := s.begin_) hx hr hall)

end Sys2Proof.Machine
end

section
/-!
Gates whose deadline has expired (R16, R19): the marks that the expiry sets stay.
-/
namespace Sys2Proof.Machine

/-! ### What an expired gate's work leaves of the verdict's marks (R19) -/

/-- The step's INCOMPLETE and FAULT. -/
def State.marks (s : State) : Bool × Bool := (s.jq.verdict.incomplete, s.jq.verdict.fault)

theorem marks_of_calm {s t : State} (h : t.calm = s.calm) : t.marks = s.marks := (congrArg State.marks h :)

theorem marks_ite {c : Prop} [Decidable c] {a b s : State} (ha : a.marks = s.marks) (hb : b.marks = s.marks) :
    (if c then a else b).marks = s.marks := by
  split
  · exact ha
  · exact hb

section

variable (s : State)

/-! #### The reduce and the result sweep -/

theorem nonFiniteIf_marks (c : Bool) (u : NfUnit) : (s.nonFiniteIf c u).marks = s.marks := by
  cases c <;> rfl

theorem twinSend_marks (item : TwinItem) (msg : TwinMsg) : (s.twinSend item msg).marks = s.marks := marks_ite rfl rfl

theorem sendCell_marks (port : Nat) (h : CellHdr) (payload : List Byte) (t : CellTrl) :
    (s.sendCell port h payload t).marks = s.marks := by
  unfold State.sendCell
  extract_lets hb crc c u first v
  have hu : u.marks = s.marks := twinSend_marks ..
  exact marks_ite rfl (marks_ite (marks_ite (Eq.trans rfl hu) (Eq.trans rfl hu))
    ((marks_of_calm (queueItem_calm ..)).trans (Eq.trans rfl hu)))

theorem copyJudged_marks (agreed : Bool) : (s.copyJudged agreed).marks = s.marks := by
  unfold State.copyJudged
  cases agreed <;> exact marks_ite rfl rfl

theorem replicaJudge_marks : s.replicaJudge.marks = s.marks := by
  unfold State.replicaJudge
  dsimp only
  split
  · exact marks_ite ((copyJudged_marks ..).trans rfl) (Eq.trans rfl (copyJudged_marks s false))
  · rfl

theorem gzInternal_marks (rid : Nat) (l : List GzElem) (decision : Nat) : (s.gzInternal rid l decision).marks = s.marks := by
  unfold State.gzInternal
  dsimp only
  split
  · rfl
  · rfl
  · rfl
  · exact (replicaJudge_marks _).trans rfl
  · exact (replicaJudge_marks _).trans rfl
  · rfl

theorem hostWrite_marks (unit a : Nat) (b : List Byte) : (s.hostWrite unit a b).marks = s.marks :=
  (marks_of_calm (calm_of_noPorts (hostWrite_noPorts ..))).trans rfl

theorem gzWrite_marks (rid : Nat) (g : GzSpec) (run : W32) (incomplete : Bool) (l : List GzElem) :
    (s.gzWrite rid g run incomplete l).marks = s.marks := by
  have h : (if g.dst = 0 then s else s.hostWrite 0x2C g.dst (l.flatMap g.dstBytes)).marks = s.marks := marks_ite rfl (hostWrite_marks ..)
  exact marks_ite h ((hostWrite_marks ..).trans h)

theorem gzDeliver_marks (rid : Nat) (g : GzSpec) (l : List GzElem) (nf : Bool) (decision : Nat) (inc : Bool) :
    (s.gzDeliver rid g l nf decision inc).marks = s.marks := by
  unfold State.gzDeliver
  extract_lets r words u r' v ended z w
  have hw : w.marks = s.marks := Eq.trans rfl (nonFiniteIf_marks s (g.feeds && nf) .gazelle)
  exact marks_ite ((gzInternal_marks ..).trans ((gzWrite_marks ..).trans hw)) hw

theorem spreadResult_marks (rid k : Nat) (g : GzSpec) (d : DomEntry) (epoch : BitVec 2) (run : W32)
    (onAxis : Option (Nat × Nat)) (payload : List Byte) (bad nf : Bool) (decision : Nat) (inc : Bool) :
    (s.spreadResult rid k g d epoch run onAxis payload bad nf decision inc).marks = s.marks := by
  unfold State.spreadResult
  dsimp only
  rw [foldl_view (g := State.marks) (fun s a => ?_)]
  · split
    · rfl
    · exact marks_ite rfl (sendCell_marks ..)
  · have h := marks_ite (c := 0 < (s.gzPlaceOn g d a).nLeft) (sendCell_marks s (axisPort a true)
      (s.gzHdr rid k g epoch run true a true) payload (s.gzTrl g 0 bad nf decision inc)) (rfl : s.marks = s.marks)
    exact marks_ite ((sendCell_marks ..).trans h) h

theorem gzRoot_marks (rid k : Nat) (force : Bool) (g : GzSpec) (d : DomEntry) (r : GzRed) :
    (s.gzRoot rid k force g d r).marks = s.marks := by
  unfold State.gzRoot
  dsimp only
  split
  · split
    · exact marks_ite ((gzDeliver_marks ..).trans ((spreadResult_marks ..).trans rfl)) rfl
    · rfl
  · exact marks_ite ((gzDeliver_marks ..).trans ((spreadResult_marks ..).trans rfl)) rfl

theorem gzAdvance_marks (rid k : Nat) (force : Bool) (fuel : Nat) : (State.gzAdvance rid k force fuel s).marks = s.marks := by
  induction fuel generalizing s with
  | zero => rfl
  | succ fuel ih =>
    rw [State.gzAdvance]
    split
    · rfl
    split
    · rfl
    split
    · rfl
    refine marks_ite rfl ?_
    split
    · exact gzRoot_marks ..
    refine marks_ite ?_ ?_
    · exact marks_ite ((ih _).trans (Eq.trans rfl (nonFiniteIf_marks ..))) rfl
    · split
      · rfl
      · exact marks_ite ((sendCell_marks ..).trans (Eq.trans rfl (nonFiniteIf_marks ..))) rfl

theorem gzExpire_marks (rid : Nat) : (s.gzExpire rid).marks = s.marks := by
  unfold State.gzExpire
  split
  · rfl
  · exact marks_ite rfl (foldl_view (g := State.marks) (fun s k => gzAdvance_marks s ..) _ s)

theorem rootLate_marks : s.rootLate.marks = s.marks := by
  unfold State.rootLate
  dsimp only
  repeat' split
  all_goals rfl

end

section

variable (s : State)

/-! #### Lap 1 -/

theorem stateWrite_marks (unit a : Nat) (b : List Byte) : (s.stateWrite unit a b).marks = s.marks :=
  (marks_of_calm (calm_of_noPorts (stateWrite_noPorts ..))).trans rfl

theorem putResiduals_marks (tensor : Nat) (c : CatEntry) (l : List (Nat × W32)) : (s.putResiduals tensor c l).marks = s.marks := by
  induction l generalizing s with
  | nil => rfl
  | cons p rest ih =>
    refine (ih _).trans ?_
    unfold State.putResidual
    extract_lets b tile u
    have hu : u.marks = s.marks := stateWrite_marks ..
    clear_value u
    exact marks_ite (Eq.trans rfl hu) hu

theorem resUnselected_marks (tensor : Nat) (c : CatEntry) (e : ChunkEntry) (sel : List Nat) :
    (s.resUnselected tensor c e sel).marks = s.marks := by
  refine foldl_view (g := State.marks) (fun s g => marks_ite rfl ?_) _ s
  split
  · exact putResiduals_marks ..
  · rfl

theorem resLost_marks (i tensor : Nat) (c : CatEntry) (e : ChunkEntry) (sel : List Nat) :
    (s.resLost i tensor c e sel).marks = s.marks :=
  marks_ite rfl (marks_ite (putResiduals_marks ..) ((putResiduals_marks ..).trans rfl))

theorem noteMask_marks (i tensor : Nat) (c : CatEntry) (e : ChunkEntry) : (s.noteMask i tensor c e).marks = s.marks :=
  marks_ite rfl (marks_ite rfl rfl)

theorem withhold_marks (i tensor : Nat) (c : CatEntry) (e : ChunkEntry) (d : DomEntry) :
    (s.withhold i tensor c e d).marks = s.marks := by
  unfold State.withhold
  extract_lets x u v
  have hv : v.marks = s.marks := by
    refine (foldl_view (g := State.marks) (fun s g => ?_) _ u).trans rfl
    split
    · unfold State.withheldGroup
      split
      · rfl
      · exact putResiduals_marks ..
    · rfl
  exact marks_ite hv (Eq.trans rfl hv)

theorem addSat_marks (tensor : Nat) (c : CatEntry) (tile n : Nat) : (s.addSat tensor c tile n).marks = s.marks := by
  unfold State.addSat
  extract_lets a old cum now u x v
  have hu : u.marks = s.marks := stateWrite_marks ..
  clear_value u
  have hv : v.marks = s.marks := Eq.trans rfl hu
  clear_value v
  exact marks_ite rfl (marks_ite (Eq.trans rfl hv) hv)

theorem stagePut_marks (pool : Pool) (port vc : Nat) (hdr : BitVec 512) (bytes : List Byte) :
    (s.stagePut pool port vc hdr bytes).marks = s.marks := by
  obtain ⟨st, sg, h⟩ := stagePut_form s pool port vc hdr bytes
  rw [h]
  rfl

theorem sendChunk_marks (port vc : Nat) (h : ChunkHdr) (payload : List Byte) : (s.sendChunk port vc h payload).marks = s.marks :=
  (marks_of_calm (queueItem_calm ..)).trans ((stagePut_marks ..).trans ((twinSend_marks ..).trans rfl))

theorem sendFormed_marks (i tensor : Nat) (c : CatEntry) (e : ChunkEntry) (d : DomEntry) (axis : Nat) (hop : Hop) (sel : List Nat)
    (tileUnit : Bool) (f : Formed) : (s.sendFormed i tensor c e d axis hop sel tileUnit f).marks = s.marks := by
  cases f with
  | asIs h b => exact sendChunk_marks ..
  | vals f =>
    refine (sendChunk_marks ..).trans (marks_ite ?_ ((putResiduals_marks ..).trans ?_))
    all_goals exact (addSat_marks ..).trans (nonFiniteIf_marks ..)

theorem ownerTakes_marks (i tensor : Nat) (c : CatEntry) (e : ChunkEntry) (sel : List Nat) (f : Folded) :
    (s.ownerTakes i tensor c e sel f).marks = s.marks := by
  unfold State.ownerTakes
  extract_lets x flat v w y u z
  have hv : v.marks = s.marks := nonFiniteIf_marks ..
  have hw : w.marks = s.marks := marks_ite hv ((putResiduals_marks ..).trans hv)
  clear_value w
  have hz : z.marks = s.marks := (stagePut_marks u ..).trans (Eq.trans rfl hw)
  clear_value z
  exact marks_ite rfl (Eq.trans rfl hz)

theorem endLap_marks (i tensor : Nat) (c : CatEntry) (e : ChunkEntry) (d : DomEntry) (axis : Nat) (sel : List Nat) (f : Folded) :
    (s.endLap i tensor c e d axis sel f).marks = s.marks :=
  marks_ite (ownerTakes_marks ..) rfl

theorem passPoison_marks (i tensor : Nat) (c : CatEntry) (e : ChunkEntry) (d : DomEntry) (axis : Nat) (hop : Hop) (h : ChunkHdr)
    (b : List Byte) : (s.passPoison i tensor c e d axis hop h b).marks = s.marks :=
  marks_ite (endLap_marks ..) (sendChunk_marks ..)

theorem takeRx_marks (x : RxChunk) : (s.takeRx x).marks = s.marks := (marks_of_calm (freeChunk_calm ..)).trans rfl

theorem firstAxisRes_marks (i tensor : Nat) (c : CatEntry) (e : ChunkEntry) (d : DomEntry) (axis : Nat) (sel : List Nat) :
    (s.firstAxisRes i tensor c e d axis sel).marks = s.marks :=
  marks_ite (resUnselected_marks ..) rfl

theorem lap1Expire_marks (i axis : Nat) : (s.lap1Expire i axis).marks = s.marks := by
  unfold State.lap1Expire
  split
  · rfl
  extract_lets tensor
  split
  · split
    · rfl
    · refine marks_ite rfl ?_
      extract_lets own sel first carried u x v w y z q p
      have hw : w.marks = s.marks := (firstAxisRes_marks v ..).trans (Eq.trans rfl (noteMask_marks s ..))
      have hz : z.marks = s.marks := marks_ite hw (Eq.trans rfl hw)
      have hq : q.marks = s.marks := marks_ite ((resLost_marks ..).trans hz) hz
      exact (passPoison_marks ..).trans hq
  · rfl

theorem hopAct_marks (i tensor : Nat) (c : CatEntry) (e : ChunkEntry) (d : DomEntry) (axis : Nat) (hop : Hop) (withheld : Bool)
    (inc : Option RxChunk) : (s.hopAct i tensor c e d axis hop withheld inc).marks = s.marks := by
  unfold State.hopAct
  extract_lets first own u v sel w share carried x drop base y zero jx
  have hu : u.marks = s.marks := noteMask_marks ..
  have hv : v.marks = s.marks := marks_ite ((withhold_marks ..).trans hu) hu
  have hw : w.marks = s.marks := (firstAxisRes_marks ..).trans hv
  have hx : x.marks = s.marks := marks_ite ((resUnselected_marks ..).trans hw) hw
  have hd (y : State) (hy : y.marks = s.marks) : (drop y).marks = s.marks := marks_ite hy (Eq.trans rfl hy)
  have hy : y.marks = s.marks := hd x hx
  clear_value y share carried zero
  split
  · split
    · refine marks_ite ((passPoison_marks ..).trans hy) ?_
      split
      all_goals exact (sendFormed_marks ..).trans hy
    · split
      all_goals exact (sendFormed_marks ..).trans hy
  · extract_lets h bad sees z
    have hz : z.marks = s.marks := marks_ite (Eq.trans rfl hy) hy
    refine marks_ite ((passPoison_marks ..).trans (marks_ite ((resLost_marks ..).trans hz) hz)) ?_
    split
    · refine marks_ite ((endLap_marks ..).trans ((nonFiniteIf_marks ..).trans hz)) ((sendFormed_marks ..).trans hz)
    · refine marks_ite ((sendFormed_marks ..).trans hz) (marks_ite ((endLap_marks ..).trans hz) (marks_ite ?_ ?_))
      · exact (ownerTakes_marks ..).trans hz
      · exact (endLap_marks ..).trans hz

theorem lap1Add_marks (i axis : Nat) (bypass : Bool) : (s.lap1Add i axis bypass).marks = s.marks := by
  unfold State.lap1Add
  split
  · rfl
  extract_lets tensor
  split
  · split
    · rfl
    · refine marks_ite rfl (marks_ite ((hopAct_marks ..).trans rfl) ?_)
      split
      · rfl
      · exact (hopAct_marks ..).trans ((takeRx_marks ..).trans rfl)
  · rfl

end

/-! #### Gathers and transfers -/

section

variable (s : State)

theorem startLap2_marks (d : DomEntry) (h : ChunkHdr) (payload : List Byte) (axis : Nat) :
    (s.startLap2 d h payload axis).marks = s.marks := by
  unfold State.startLap2
  extract_lets n p u
  have hu : u.marks = s.marks := marks_ite (sendChunk_marks ..) rfl
  exact marks_ite (sendChunk_marks ..) (marks_ite ((sendChunk_marks ..).trans hu) hu)

theorem onwardLap2_marks (d : DomEntry) (hop : Option Lap2Hop) (h : ChunkHdr) (payload : List Byte) :
    (s.onwardLap2 d hop h payload).marks = s.marks := by
  refine (foldl_view (g := State.marks) (fun s a => startLap2_marks s d h payload a) _ _).trans ?_
  split
  · exact marks_ite rfl (sendChunk_marks ..)
  · rfl

theorem openXfer_marks (n : Nat) : (s.openXfer n).marks = s.marks := rfl

theorem xferExpire_marks (n : Nat) : (s.xferExpire n).marks = s.marks := by
  unfold State.xferExpire
  split
  · rfl
  refine marks_ite rfl ?_
  extract_lets u
  have hu : u.marks = s.marks := marks_ite rfl (openXfer_marks ..)
  split
  · exact hu
  · exact (Eq.trans rfl hu :)

end

/-- No mark that the verdict carries is taken back. -/
def MarksStay (s t : State) : Prop :=
  (s.jq.verdict.incomplete = true → t.jq.verdict.incomplete = true) ∧ (s.jq.verdict.fault = true → t.jq.verdict.fault = true)

theorem marksStay_of_marks {s t : State} (h : t.marks = s.marks) : MarksStay s t :=
  ⟨fun hi => (congrArg Prod.fst h).trans hi, fun hf => (congrArg Prod.snd h).trans hf⟩

theorem MarksStay.trans {s t u : State} (h : MarksStay s t) (h' : MarksStay t u) : MarksStay s u :=
  ⟨fun hi => h'.1 (h.1 hi), fun hf => h'.2 (h.2 hf)⟩

theorem marksStay_foldl {α : Type} {f : State → α → State} (h : ∀ s a, MarksStay s (f s a)) (l : List α) (s : State) :
    MarksStay s (l.foldl f s) := by
  induction l generalizing s with
  | nil => exact marksStay_of_marks rfl
  | cons a l ih => exact (h s a).trans (ih _)

/-- A chunk given up sets FAULT. -/
theorem gatherMiss_marksStay (s : State) (r : GatherRun) (i : Nat) (last : Bool) : MarksStay s (s.gatherMiss r i last) := by
  have hb : MarksStay s (s.gatherBad r i) := ⟨id, fun _ => rfl⟩
  unfold State.gatherMiss
  extract_lets u tensor
  split
  · exact hb
  split
  · exact hb.trans (marksStay_of_marks (onwardLap2_marks ..))
  · exact hb

theorem gatherExpire_marksStay (s : State) (g : Nat) : MarksStay s (s.gatherExpire g) := by
  unfold State.gatherExpire
  extract_lets u
  have hu : u.marks = s.marks := marks_ite rfl rfl
  split
  · exact marksStay_of_marks hu
  extract_lets miss v
  exact (marksStay_of_marks (t := v) (Eq.trans rfl hu :)).trans (marksStay_foldl (fun s i => gatherMiss_marksStay ..) _ _)

theorem expireWork_marksStay (s : State) (e : SchedEntry) : MarksStay s (s.expireWork e) := by
  unfold State.expireWork
  extract_lets u v
  have hu : u.marks = s.marks := marks_ite (gzExpire_marks ..) rfl
  have hv : MarksStay s v := marksStay_of_marks (marks_ite ((rootLate_marks ..).trans hu) hu)
  split
  · exact hv
  split
  · exact hv.trans (marksStay_of_marks (lap1Expire_marks ..))
  · exact hv.trans (marksStay_of_marks (marks_ite (lap1Add_marks ..) rfl))
  · exact hv.trans (gatherExpire_marksStay ..)
  · exact hv.trans (marksStay_of_marks (xferExpire_marks ..))
  · exact hv

/-! ### GATE_TIMEOUT (R16, R19) -/

section

variable {s : State}

/-- The expiry is recorded for the entry that waits, and the entry may go on unless its action is 0. -/
def State.gateExpired (s : State) (h : Held) (e : SchedEntry) : State :=
  (s.setHeld (s.jq.held.map fun x => if x = h then { x with reported := true, expired := e.act != 0 } else x)).gateReport h.index e

/-- The expired deadline of an entry that waits in a slot that is not slipped. -/
theorem gateTimeout_expired {phase unit : Nat} {h : Held} {e : SchedEntry} (hb : s.jq.begun = true)
    (hs : s.jq.slipping = false) (hq : s.silent = false) (hr : s.jq.running = true) (hw : s.waiting phase unit = some (h, e))
    (hd : e.deadlineSlots ≤ (s.jq.slot - h.due).toNat) (ho : s.gateOpen e = false ∨ h.lapsed = true) :
    s.gateTimeout phase unit = ((s.gateExpired h e).applyAct e.act).expireWork e := by
  have hopen : (s.gateOpen e && !h.lapsed) = false := by
    rcases ho with ho | ho <;> simp [ho]
  unfold State.gateTimeout State.nextSlot
  simp only [hw, hb, if_true]
  exact (if_neg (by simp only [hs, hq, hr, hopen, decide_eq_false (Nat.not_lt.mpr hd)]; decide)).trans rfl

theorem applyAct_sets (s : State) (act : Nat) : (act = 2 → (s.applyAct act).jq.verdict.incomplete = true) ∧
    (act = 3 → (s.applyAct act).jq.verdict.fault = true) := by
  constructor <;> rintro rfl <;> rfl

/-- An entry that only waits at a doorbell has no work of its own to do at its deadline. -/
theorem expireWork_idle {e : SchedEntry} (hg : e.gate = 1) (hw : s.work e = .idle) : s.expireWork e = s := by
  unfold State.expireWork
  simp [hg, hw]

end

/-- Settles O9: `gateTimeout_expired` with `expireWork_marksStay`, or with `expireWork_idle`. -/
theorem gateTimeoutAppliesTheAction : Obligations.GateTimeoutAppliesTheAction := by
  intro s phase unit h e hb hs hq hr hw hd ho
  have heq := gateTimeout_expired (s := s.begin_) hb hs hq hr hw hd ho
  refine ⟨exec_to (fun s => s.gateTimeout phase.toNat unit.toNat) rfl heq ?_, fun hg hwork => ?_⟩
  · obtain ⟨hi, hf⟩ := applyAct_sets (s.begin_.gateExpired h e) e.act
    have hfix : (((s.begin_.gateExpired h e).applyAct e.act).expireWork e).fixed = s.fixed := by
      simp [State.gateExpired]
    have hstay := expireWork_marksStay ((s.begin_.gateExpired h e).applyAct e.act) e
    generalize ((s.begin_.gateExpired h e).applyAct e.act).expireWork e = t at *
    exact ⟨fun h2 => hstay.1 (hi h2), fun h3 => hstay.2 (hf h3), (congrArg Fixed.slot hfix :), (congrArg Fixed.step hfix :)⟩
  · refine does_run (fun s => s.gateTimeout phase.toNat unit.toNat) rfl (heq.trans ((expireWork_idle hg ?_).trans rfl))
    unfold State.applyAct
    split
    · exact hwork
    split
    · exact hwork
    · exact hwork

end Sys2Proof.Machine
end

section
/-!
The issue pass over one stream (R16, R17), and what SLOT_START keeps (R13, R27).
-/
namespace Sys2Proof.Machine

/-! ### The issue pass over one stream of one entry (R16, R17) -/

section

variable {s : State} {a : Activation} {e : SchedEntry}

theorem stream_of_one (hs : s.sched = [e]) : s.stream e.phase e.unit = [(0, e)] := by
  simp [State.stream, hs, sortBy, insertBy]

theorem unitsOf_of_one (hs : s.sched = [e]) : s.unitsOf e.phase = [e.unit] := by
  simp [State.unitsOf, hs, List.eraseDups_cons]

theorem takeDue_of_one (ha : s.jq.acts = [a]) (hs : s.sched = [e]) (hp : e.phase = a.phase) (hf : s.frozen a = false) :
    s.takeDue = State.runStream a.id e.phase e.unit a.offset false 2 (s, []) := by
  have hstream := stream_of_one hs
  have hunits := unitsOf_of_one hs
  rw [hp] at hstream hunits
  simp [State.takeDue, ha, hf, hunits, hstream, State.olderLeft, hp]

theorem findAct_of_one (ha : s.jq.acts = [a]) : s.findAct a.id = some a := by
  simp [State.findAct, ha]

theorem shift_of_none (hn : a.shifts = []) (unit : Nat) : a.shift unit = ⟨unit, 0, 0⟩ := by
  simp [Activation.shift, hn]

/-- An entry that is not due stays. -/
theorem runStream_undue {fuel : Nat} {out : List Due} (ha : s.jq.acts = [a]) (hs : s.sched = [e]) (hn : a.shifts = [])
    (hh : s.jq.held = []) (hd : a.offset < e.slotOff) :
    State.runStream a.id e.phase e.unit a.offset false (fuel + 1) (s, out) = (s, out) := by
  rw [State.runStream]
  simp [findAct_of_one ha, shift_of_none hn, stream_of_one hs, hh, State.headGoes, hd]

/-- An entry that is due and does not go on is held. -/
theorem runStream_held {fuel : Nat} {out : List Due} (ha : s.jq.acts = [a]) (hs : s.sched = [e]) (hn : a.shifts = [])
    (hh : s.jq.held = []) (hd : e.slotOff ≤ a.offset) (hg : s.headGoes none a.offset 0 e = none) (hf : s.gateFailed e = false) :
    State.runStream a.id e.phase e.unit a.offset false (fuel + 1) (s, out) =
      (s.setHeld [⟨a.id, 0, s.jq.slot, false, false, false⟩], out) := by
  rw [State.runStream]
  simp [findAct_of_one ha, shift_of_none hn, stream_of_one hs, hh, hg, hf, Nat.not_lt.mpr hd]

/-- The state in which the head entry of the stream has been taken. -/
def State.headTaken (s : State) (a : Activation) (e : SchedEntry) : State :=
  (((s.consumeBell e 0).takeResult e).dropHeld a.id 0).setShift a.id ⟨e.unit, a.offset - e.slotOff, 1⟩

theorem headTaken_sched (s : State) (a : Activation) (e : SchedEntry) : (s.headTaken a e).sched = s.sched := by
  unfold State.headTaken State.takeResult State.consumeBell
  split <;> split <;> rfl

theorem headTaken_acts (ha : s.jq.acts = [a]) (hn : a.shifts = []) :
    (s.headTaken a e).jq.acts = [{ a with shifts := [⟨e.unit, a.offset - e.slotOff, 1⟩] }] := by
  have h : ((s.consumeBell e 0).takeResult e).jq.acts = [a] := by
    unfold State.takeResult State.consumeBell
    split <;> split <;> exact ha
  simp [State.headTaken, State.setShift, State.dropHeld, h, hn]

/-- The one entry of the stream goes on, and the stream ends. -/
theorem runStream_goes (ha : s.jq.acts = [a]) (hs : s.sched = [e]) (hn : a.shifts = []) (hh : s.jq.held = [])
    (hg : s.headGoes none a.offset 0 e = some 0) (hf : s.gateFailed e = false) :
    (State.runStream a.id e.phase e.unit a.offset false 2 (s, [])).2 = [⟨false, a.id, e.unit, 0, 0⟩] := by
  have hend : State.runStream a.id e.phase e.unit a.offset false 1 (s.headTaken a e, [⟨false, a.id, e.unit, 0, 0⟩]) =
      (s.headTaken a e, [⟨false, a.id, e.unit, 0, 0⟩]) := by
    have hfind : (s.headTaken a e).findAct a.id = some { a with shifts := [⟨e.unit, a.offset - e.slotOff, 1⟩] } := by
      simp [State.findAct, headTaken_acts ha hn]
    have hstream := stream_of_one ((headTaken_sched s a e).trans hs)
    rw [State.runStream]
    simp [hfind, hstream, Activation.shift]
  rw [State.runStream]
  simp only [findAct_of_one ha, shift_of_none hn, stream_of_one hs, hh, List.find?_nil, Option.map_none, hf, hg,
    List.getElem?_cons_zero]
  exact congrArg Prod.snd hend

end

section

variable {s : State} {a : Activation} {e : SchedEntry}

theorem gateFailed_of_gate (h : e.gate ≠ 3) : s.gateFailed e = false := by
  simp [State.gateFailed, h]

theorem headGoes_open {offset : Nat} (hd : e.slotOff ≤ offset) (ho : s.gateOpen e = true) : s.headGoes none offset 0 e = some 0 := by
  simp [State.headGoes, Nat.not_lt.mpr hd, ho]

theorem headGoes_unrung (offset : Nat) (hg : e.gate = 1) (hb : memGet s.jq.db e.gateArg = 0) :
    s.headGoes none offset 0 e = none := by
  have hopen : s.gateOpen e = false := by simp [State.gateOpen, hg, hb]
  have hlate : s.lateBypass e = false := by
    unfold State.lateBypass
    split <;> simp [hg]
  simp [State.headGoes, hopen, hlate, gateFailed_of_gate (show e.gate ≠ 3 by omega)]

/-- An entry whose gate holds is taken. -/
theorem takeDue_goes (ha : s.jq.acts = [a]) (hs : s.sched = [e]) (hp : e.phase = a.phase) (hn : a.shifts = [])
    (hh : s.jq.held = []) (hfr : s.frozen a = false) (hd : e.slotOff ≤ a.offset) (hg : e.gate ≠ 3) (ho : s.gateOpen e = true) :
    s.takeDue.2 = [⟨false, a.id, e.unit, 0, 0⟩] := by
  rw [takeDue_of_one ha hs hp hfr]
  exact runStream_goes ha hs hn hh (headGoes_open hd ho) (gateFailed_of_gate hg)

/-! ### SLOT_START (R13, R27) -/

/-- What the issue pass reads: the activations, the held entries, and whether the schedule runs or resumes. -/
def State.issueSide (s : State) : List Activation × List Held × Bool × Bool :=
  (s.jq.acts, s.jq.held, s.jq.running, s.jq.resuming)

theorem issueSide_of_jq {s t : State} (h : t.jq = s.jq) : t.issueSide = s.issueSide :=
  congrArg (fun q : JqBlock => (q.acts, q.held, q.running, q.resuming)) h

theorem issueSide_ite {c : Prop} [Decidable c] {a b s : State} (ha : a.issueSide = s.issueSide) (hb : b.issueSide = s.issueSide) :
    (if c then a else b).issueSide = s.issueSide := by
  split
  · exact ha
  · exact hb

theorem jq_of_calm {s t : State} (h : t.calm = s.calm) : t.jq = s.jq := (congrArg State.jq h :)

theorem jq_ite {c : Prop} [Decidable c] {a b s : State} (ha : a.jq = s.jq) (hb : b.jq = s.jq) : (if c then a else b).jq = s.jq := by
  split
  · exact ha
  · exact hb

end

section

variable (s : State)

theorem endSlips_issueSide : s.endSlips.issueSide = s.issueSide := by
  unfold State.endSlips
  split <;> rfl

theorem swapDrive_jq : s.swapDrive.jq = s.jq := jq_ite rfl (jq_ite rfl rfl)

theorem nextSlot_issueSide : s.nextSlot.issueSide = s.issueSide := by
  unfold State.nextSlot
  exact issueSide_ite rfl ((issueSide_of_jq (swapDrive_jq _)).trans ((endSlips_issueSide _).trans rfl))

theorem memberFail_jq (cause : Nat) : (s.memberFail cause).jq = s.jq := by
  obtain ⟨-, -, hjq, -⟩ := memberFail_spec s cause
  exact hjq

theorem twinPairs_jq : s.twinPairs.jq = s.jq := by
  refine (foldl_view (g := State.jq) (fun s x => ?_) _ _).trans rfl
  unfold State.twinCompare
  split
  · rfl
  · exact jq_ite rfl (jq_ite rfl rfl)

theorem queuesReset_jq : s.queuesReset.jq = s.jq := by
  refine (foldl_view (g := State.jq) (f := fun (s : State) (q : Queue) => (s.exportEnds q.num 6).dropTx q.num) (fun s q => ?_) s.je.queues s)
  exact jq_ite (jq_ite rfl rfl) rfl

theorem fenceTwin_issueSide (who : Bool) (cause : Nat) : (s.fenceTwin who cause).issueSide = s.issueSide := by
  unfold State.fenceTwin
  extract_lets t drives moved now u v w
  have hv : v.jq = s.jq := jq_ite rfl rfl
  have hw : w.jq = s.jq := jq_ite ((queuesReset_jq ..).trans hv) hv
  exact issueSide_ite ((Eq.trans rfl (issueSide_of_jq hw) :)) (issueSide_of_jq hw)

theorem selfTestEnds_issueSide (r : SelfTest) : (s.selfTestEnds r).issueSide = s.issueSide := by
  unfold State.selfTestEnds
  split
  · exact fenceTwin_issueSide ..
  · exact fenceTwin_issueSide ..
  · exact issueSide_ite rfl rfl
  · exact (issueSide_of_jq (memberFail_jq ..)).trans (issueSide_ite rfl rfl)

theorem twinSlot_issueSide (st : SelfTest) : (s.twinSlot st).issueSide = s.issueSide := by
  unfold State.twinSlot
  extract_lets u v
  have hu : u.issueSide = s.issueSide := issueSide_of_jq (twinPairs_jq s)
  have hv : v.issueSide = s.issueSide := by
    unfold v
    split
    · exact hu
    · exact issueSide_ite hu (issueSide_ite hu ((selfTestEnds_issueSide ..).trans hu))
  refine issueSide_ite rfl ?_
  split
  · exact hv
  · exact hv
  · exact (fenceTwin_issueSide ..).trans hv

theorem remapTiles_issueSide : s.remapTiles.issueSide = s.issueSide := by
  unfold State.remapTiles
  refine issueSide_ite rfl ((issueSide_of_jq (foldl_view (g := State.jq) (fun s l => ?_) _ _)).trans rfl)
  unfold State.remapOne
  split
  · exact memberFail_jq ..
  · rfl

theorem rampStep_jq : s.rampStep.jq = s.jq := rfl

theorem ballastStep_jq (units : List Nat) : (s.ballastStep units).jq = s.jq := by
  unfold State.ballastStep
  extract_lets awake busy sure d jp d' jp' u jp''
  have hu : u.jq = s.jq := jq_ite rfl rfl
  clear_value u
  exact jq_ite hu hu

theorem copyProgress_jq : s.copyProgress.jq = s.jq := by
  unfold State.copyProgress
  split
  · rfl
  extract_lets o ju u ext data v
  have hu : u.jq = s.jq := rfl
  have hv : v.jq = u.jq := jq_of_calm (passCopy_calm ..)
  clear_value u v
  exact jq_ite hu (hv.trans hu)

/-- The start of a slot, for the parts that only the sequencer changes. -/
theorem slotStart_fixed (st : SelfTest) (hr : s.inReset = false) :
    (s.slotStart st).fixed = { s.fixedNext with begun := false } := by
  unfold State.slotStart
  rw [if_neg (by rw [hr]; decide)]
  extract_lets u jq v w x y
  have hu : u.fixed = s.fixedNext := nextSlot_fixed s
  have hv : v.fixed = { s.fixedNext with begun := false } := (congrArg (fun f : Fixed => { f with begun := false }) hu :)
  have hw : w.fixed = v.fixed := by simp [w]
  have hx : x.fixed = w.fixed := by
    unfold x
    split <;> simp
  have hy : y.fixed = x.fixed := by
    unfold y
    split <;> simp
  rw [resumeStep_fixed, hy, hx, hw, hv]

/-- A block whose schedule neither runs nor resumes issues nothing. -/
theorem slotStart_issueSide (st : SelfTest) (hrun : s.jq.running = false) (hres : s.jq.resuming = false) :
    (s.slotStart st).issueSide = s.issueSide := by
  unfold State.slotStart
  refine issueSide_ite rfl ?_
  extract_lets u jq v w x y
  have hu : u.issueSide = s.issueSide := nextSlot_issueSide s
  clear_value u
  have hw : w.issueSide = s.issueSide := (issueSide_of_jq (rampStep_jq _)).trans
    ((remapTiles_issueSide _).trans ((twinSlot_issueSide v st).trans (Eq.trans rfl hu)))
  clear_value w
  have hwrun : w.jq.running = false := (congrArg (fun x => x.2.2.1) hw :).trans hrun
  have hx : x.issueSide = s.issueSide := by
    unfold x
    rw [hwrun]
    exact (issueSide_of_jq (ballastStep_jq ..)).trans hw
  have hy : y.issueSide = s.issueSide := issueSide_ite hx ((issueSide_of_jq (copyProgress_jq x)).trans hx)
  have hyres : y.jq.resuming = false := (congrArg (fun x => x.2.2.2) hy :).trans hres
  clear_value y
  have hend : y.resumeStep = y := by
    unfold State.resumeStep
    exact if_pos (by rw [hyres]; rfl)
  rw [hend]
  exact hy

end

/-- Settles O7: `slotStart_fixed` and `slotStart_issueSide`; `runStream_undue`, `takeDue_goes` and `runStream_held`. -/
theorem slotsStartAndIssue : Obligations.SlotsStartAndIssue := by
  refine ⟨fun s st hr => ?_, fun s a e ha hs hp hn hh hf => ⟨fun hd => ?_, fun hd hg => ?_, fun hd hg hb => ?_, fun hd hg hb => ?_⟩⟩
  · refine exec_to (fun s => s.slotStart st) rfl rfl ?_
    have hfix := slotStart_fixed s.begin_ st hr
    have hside := slotStart_issueSide s.begin_ st
    generalize s.begin_.slotStart st = t at *
    have hslot : t.jq.slot = s.begin_.fixedNext.slot := (congrArg Fixed.slot hfix :)
    have hstep : t.jq.step = s.begin_.fixedNext.step := (congrArg Fixed.step hfix :)
    have hcur : t.jg.epoch.current = s.begin_.fixedNext.current := (congrArg Fixed.current hfix :)
    unfold State.fixedNext at hslot hstep hcur
    refine ⟨?_, (congrArg Fixed.begun hfix :), ?_, ?_, fun hrun hres => ?_⟩
    · exact hslot.trans (apply_ite Fixed.slot ..)
    · exact hstep.trans ((apply_ite Fixed.step ..).trans (ite_self _))
    · exact hcur.trans ((apply_ite Fixed.current ..).trans (ite_self _))
    · have h := hside hrun hres
      exact ⟨congrArg Prod.fst h, congrArg (fun x => x.2.1) h⟩
  · rw [takeDue_of_one ha hs hp hf]
    exact runStream_undue ha hs hn hh hd
  · exact takeDue_goes ha hs hp hn hh hf hd (by omega) (by simp [State.gateOpen, hg])
  · exact takeDue_goes ha hs hp hn hh hf hd (by omega) (by simp only [State.gateOpen, hg]; exact bne_iff_ne.mpr hb)
  · rw [takeDue_of_one ha hs hp hf]
    exact runStream_held ha hs hn hh hd (headGoes_unrung _ hg hb) (gateFailed_of_gate (by omega))

end Sys2Proof.Machine
end

section
/-!
Tile queues and intake (R76–R83, R101, R287–R289).
-/
namespace Sys2Proof.Machine

/-! ### What intake keeps: the queues, the latched descriptor and the groups received (R81, R83) -/

/-- The queues, the latched descriptor and the groups received. -/
def State.intakeSide (s : State) : List Tq × BitVec 256 × List GradGroup := (s.ji.tqs, s.ji.lastDesc, s.ji.grads)

theorem intakeSide_of_calm {s t : State} (h : t.calm = s.calm) : t.intakeSide = s.intakeSide := (congrArg State.intakeSide h :)

theorem intakeSide_ite {c : Prop} [Decidable c] {a b s : State} (ha : a.intakeSide = s.intakeSide) (hb : b.intakeSide = s.intakeSide) :
    (if c then a else b).intakeSide = s.intakeSide := by
  split
  · exact ha
  · exact hb

/-- Every group received stays received, and the queues and the latched descriptor stay. -/
def IntakeGrows (s t : State) : Prop :=
  t.ji.tqs = s.ji.tqs ∧ t.ji.lastDesc = s.ji.lastDesc ∧
    ∀ tensor g, (s.gPrime tensor g).isSome = true → (t.gPrime tensor g).isSome = true

theorem gPrime_of_grads {s t : State} (h : t.ji.grads = s.ji.grads) (tensor g : Nat) : t.gPrime tensor g = s.gPrime tensor g := by
  unfold State.gPrime
  rw [h]

theorem intakeGrows_of_intakeSide {s t : State} (h : t.intakeSide = s.intakeSide) : IntakeGrows s t := by
  have hg : t.ji.grads = s.ji.grads := congrArg (fun x => x.2.2) h
  exact ⟨congrArg Prod.fst h, congrArg (fun x => x.2.1) h, fun tensor g hs => (gPrime_of_grads hg tensor g) ▸ hs⟩

theorem IntakeGrows.trans {s t u : State} (h : IntakeGrows s t) (h' : IntakeGrows t u) : IntakeGrows s u := by
  obtain ⟨hq, hd, hg⟩ := h
  obtain ⟨hq', hd', hg'⟩ := h'
  exact ⟨hq'.trans hq, hd'.trans hd, fun tensor g hs => hg' _ _ (hg _ _ hs)⟩

theorem intakeGrows_foldl {α : Type} {f : State → α → State} (h : ∀ s a, IntakeGrows s (f s a)) (l : List α) (s : State) :
    IntakeGrows s (l.foldl f s) := by
  induction l generalizing s with
  | nil => exact intakeGrows_of_intakeSide rfl
  | cons a l ih => exact (h s a).trans (ih _)

section

variable (s : State)

theorem stateWrite_intakeSide (unit a : Nat) (b : List Byte) : (s.stateWrite unit a b).intakeSide = s.intakeSide :=
  (intakeSide_of_calm (calm_of_noPorts (stateWrite_noPorts ..))).trans rfl

theorem nonFiniteIf_intakeSide (c : Bool) (u : NfUnit) : (s.nonFiniteIf c u).intakeSide = s.intakeSide := by
  cases c <;> rfl

theorem putResiduals_intakeSide (tensor : Nat) (c : CatEntry) (l : List (Nat × W32)) : (s.putResiduals tensor c l).intakeSide = s.intakeSide := by
  induction l generalizing s with
  | nil => rfl
  | cons p rest ih =>
    refine (ih _).trans ?_
    unfold State.putResidual
    extract_lets b tile u
    have hu : u.intakeSide = s.intakeSide := stateWrite_intakeSide ..
    clear_value u
    exact intakeSide_ite (Eq.trans rfl hu) hu

theorem withheldGroup_intakeSide (tensor : Nat) (c : CatEntry) (i group : Nat) (vals : List W32) :
    (s.withheldGroup tensor c i group vals).intakeSide = s.intakeSide := by
  unfold State.withheldGroup
  split
  · rfl
  · exact putResiduals_intakeSide ..

theorem poisonedGroup_intakeSide (tensor : Nat) (c : CatEntry) (i group : Nat) (vals : List W32) :
    (s.poisonedGroup tensor c i group vals).intakeSide = s.intakeSide := by
  unfold State.poisonedGroup
  split
  · rfl
  · exact intakeSide_ite rfl (putResiduals_intakeSide ..)

/-- A group's arrival, apart from its residuals. -/
def State.withGroup (s : State) (tensor group : Nat) (vals : List W32) : State :=
  { s with ji := { s.ji with grads := s.ji.grads ++ [GradGroup.mk tensor group vals] } }

theorem gPrime_withGroup_same (tensor group : Nat) (vals : List W32) :
    ((s.withGroup tensor group vals).gPrime tensor group).isSome = true := by
  simp [State.gPrime, State.withGroup]

theorem gPrime_withGroup_keeps (tensor group : Nat) (vals : List W32) {tensor' group' : Nat}
    (h : (s.gPrime tensor' group').isSome = true) : ((s.withGroup tensor group vals).gPrime tensor' group').isSome = true := by
  simp only [State.gPrime, State.withGroup, Option.isSome_map, List.find?_append, Option.isSome_or] at h ⊢
  rw [h, Bool.true_or]

theorem storeGroup_intakeSide (tensor : Nat) (c : CatEntry) (group : Nat) (g : List W32) :
    (s.gPrime tensor group).isSome = true ∧ s.storeGroup tensor c group g = s ∨
      ∃ vals, (s.storeGroup tensor c group g).intakeSide = (s.withGroup tensor group vals).intakeSide := by
  unfold State.storeGroup
  split
  case isTrue h => exact .inl ⟨h, rfl⟩
  case isFalse =>
    refine .inr ⟨g.mapIdx fun i x => f32Add x (s.residual c (32 * group + i)), ?_⟩
    extract_lets vals ovf ji u v
    have hv : v.intakeSide = (s.withGroup tensor group vals).intakeSide := nonFiniteIf_intakeSide u ovf .tiles
    clear_value v
    split
    · exact intakeSide_ite ((withheldGroup_intakeSide ..).trans hv) (intakeSide_ite ((poisonedGroup_intakeSide ..).trans hv)
        (intakeSide_ite ((putResiduals_intakeSide ..).trans hv) hv))
    · exact hv

/-- A group that comes in is received. -/
theorem storeGroup_received (tensor : Nat) (c : CatEntry) (group : Nat) (g : List W32) :
    ((s.storeGroup tensor c group g).gPrime tensor group).isSome = true := by
  rcases storeGroup_intakeSide s tensor c group g with ⟨h, hs⟩ | ⟨vals, hv⟩
  · rw [hs]
    exact h
  · rw [gPrime_of_grads (congrArg (fun x => x.2.2) hv)]
    exact gPrime_withGroup_same ..

theorem storeGroup_grows (tensor : Nat) (c : CatEntry) (group : Nat) (g : List W32) :
    IntakeGrows s (s.storeGroup tensor c group g) := by
  rcases storeGroup_intakeSide s tensor c group g with ⟨-, hs⟩ | ⟨vals, hv⟩
  · rw [hs]
    exact intakeGrows_of_intakeSide rfl
  · exact IntakeGrows.trans (t := s.withGroup tensor group vals) ⟨rfl, rfl, fun _ _ => gPrime_withGroup_keeps s tensor group vals⟩ (intakeGrows_of_intakeSide hv)

end

section

variable {s : State} {n : Nat} {raw : BitVec 512} {payload : List Byte} {last : Bool} {c : CatEntry}

/-- Once a group has come in a fold, it stays received. -/
theorem foldl_received {α : Type} {f : State → α → State} {tensor g : Nat} (hf : ∀ s a, IntakeGrows s (f s a)) {l : List α} {a : α}
    (ha : a ∈ l) (hr : ∀ s, ((f s a).gPrime tensor g).isSome = true) (s : State) : ((l.foldl f s).gPrime tensor g).isSome = true := by
  induction l generalizing s with
  | nil => exact absurd ha (by simp)
  | cons b l ih =>
    rcases List.mem_cons.mp ha with h | h
    · obtain ⟨-, -, hg⟩ := intakeGrows_foldl hf l (f s b)
      exact hg _ _ (h ▸ hr s)
    · exact ih h _

theorem takeGradient_grows (s : State) (d : DescHdr) (c : CatEntry) (b : List Byte) : IntakeGrows s (s.takeGradient d c b) :=
  intakeGrows_foldl (fun s _ => storeGroup_grows s ..) _ s

/-- Every group of the rectangle is received. -/
theorem takeGradient_received (s : State) (d : DescHdr) (c : CatEntry) (b : List Byte) {g : Nat} (hg : g ∈ d.groups c) :
    ((s.takeGradient d c b).gPrime d.tensor g).isSome = true := by
  obtain ⟨r, hr, hrg⟩ := List.mem_flatMap.mp hg
  obtain ⟨k, hk, rfl⟩ := List.mem_map.mp hrg
  rw [List.mem_range] at hr hk
  have hpos : 0 < (d.ncols + 31) / 32 := by omega
  have hrow : (r * ((d.ncols + 31) / 32) + k) / ((d.ncols + 31) / 32) = r := by
    rw [Nat.add_comm, Nat.add_mul_div_right _ _ hpos, Nat.div_eq_of_lt hk, Nat.zero_add]
  have hcol : (r * ((d.ncols + 31) / 32) + k) % ((d.ncols + 31) / 32) = k := by
    rw [Nat.add_comm, Nat.add_mul_mod_self_right, Nat.mod_eq_of_lt hk]
  have hmem : r * ((d.ncols + 31) / 32) + k ∈ List.range (d.nrows * ((d.ncols + 31) / 32)) := by
    rw [List.mem_range]
    calc r * ((d.ncols + 31) / 32) + k < (r + 1) * ((d.ncols + 31) / 32) := by rw [Nat.succ_mul]; omega
      _ ≤ d.nrows * ((d.ncols + 31) / 32) := Nat.mul_le_mul_right _ hr
  refine foldl_received (fun s _ => storeGroup_grows s ..) hmem (fun s => ?_) s
  dsimp only
  rw [hrow, hcol]
  exact storeGroup_received s ..

theorem endIntake_grows (s : State) : IntakeGrows s s.endIntake := by
  unfold State.endIntake
  split
  · exact intakeGrows_of_intakeSide rfl
  extract_lets u v slot rows missing stats w
  have hv : IntakeGrows s v := by
    refine (intakeGrows_of_intakeSide (t := u) rfl).trans (intakeGrows_foldl (fun s p => intakeGrows_foldl (fun s g => ?_) _ s) _ u)
    split
    · exact intakeGrows_of_intakeSide rfl
    · exact storeGroup_grows s ..
  have hw : w.intakeSide = v.intakeSide := foldl_view (g := State.intakeSide) (fun s r => stateWrite_intakeSide s ..) _ v
  clear_value w
  exact hv.trans (intakeGrows_of_intakeSide (Eq.trans rfl hw :))

theorem setTq_st (s : State) (n : Nat) : ((s.setTq n .idle).tq n).st = .idle := by
  unfold State.tq State.setTq
  by_cases h : n < s.ji.tqs.length
  · rw [modifyNth_getD_same _ _ _ _ h]
  · rw [List.getD_eq_default _ _ (by rw [modifyNth_length]; omega)]

theorem scan_intakeSide (s : State) (d : DescHdr) (b : List Byte) (lo hi : Nat) : (s.scan d b lo hi).intakeSide = s.intakeSide := by
  unfold State.scan
  extract_lets pad bad j j'
  have hj : (j'.tqs, j'.lastDesc, j'.grads) = s.intakeSide := by
    unfold j'
    split <;> rfl
  exact intakeSide_ite rfl hj

theorem scan_cat (s : State) (d : DescHdr) (b : List Byte) (lo hi : Nat) : (s.scan d b lo hi).cat = s.cat := by
  unfold State.scan
  extract_lets pad bad j j'
  split <;> rfl

/-- The whole payload of a gradient tile comes in: its groups are received. -/
theorem tileDone_gradient (s : State) {d : DescHdr} (b : List Byte) (hk : d.kind = 0) (hc : s.cat d.tensor = some c) :
    IntakeGrows s (s.tileDone n d b) ∧ ∀ g ∈ d.groups c, ((s.tileDone n d b).gPrime d.tensor g).isSome = true := by
  unfold State.tileDone
  rw [if_neg (by omega)]
  simp only [hc, hk, if_true]
  have hgrows := takeGradient_grows s d c b
  have hrec (g : Nat) (hg : g ∈ d.groups c) := takeGradient_received s d c b hg
  generalize s.takeGradient d c b = u at *
  split
  · obtain ⟨-, -, hend⟩ := endIntake_grows u
    exact ⟨hgrows.trans (endIntake_grows u), fun g hg => hend _ _ (hrec g hg)⟩
  · exact ⟨hgrows, hrec⟩

/-- The beats of a whole tile, as many as the descriptor says. -/
theorem payloadIn_whole (s : State) (hk : (descHdr raw).kind ≠ 3)
    (hl : payload.length = ((descHdr raw).bytes + 63) / 64 * 64) :
    ∃ lo hi, s.payloadIn n raw [] payload last =
      ((s.scan (descHdr raw) payload lo hi).setTq n .idle).tileDone n (descHdr raw) (payload.take (descHdr raw).bytes) := by
  unfold State.payloadIn
  extract_lets d b sz u v j
  have hu : u = s.scan d b (min 0 d.bytes / sz) (min b.length d.bytes / sz) := if_neg hk
  have hb : b.length = (d.bytes + 63) / 64 * 64 := hl
  exact ⟨_, _, (if_neg (by omega)).trans ((if_neg (by omega)).trans
    (congrArg (fun u : State => (u.setTq n .idle).tileDone n d (b.take d.bytes)) hu))⟩

theorem payloadIn_gradient (hk : (descHdr raw).kind = 0) (hc : s.cat (descHdr raw).tensor = some c)
    (hl : payload.length = ((descHdr raw).bytes + 63) / 64 * 64) :
    (∀ g ∈ (descHdr raw).groups c, ((s.payloadIn n raw [] payload last).gPrime (descHdr raw).tensor g).isSome = true) ∧
      (s.payloadIn n raw [] payload last).ji.lastDesc = s.ji.lastDesc ∧ ((s.payloadIn n raw [] payload last).tq n).st = .idle := by
  obtain ⟨lo, hi, heq⟩ := payloadIn_whole (n := n) (last := last) s (by omega) hl
  rw [heq]
  have hu := scan_intakeSide s (descHdr raw) payload lo hi
  have hcu : (s.scan (descHdr raw) payload lo hi).cat (descHdr raw).tensor = some c := (congrFun (scan_cat ..) _).trans hc
  generalize s.scan (descHdr raw) payload lo hi = u at *
  obtain ⟨⟨htqs, hdesc, -⟩, hrec⟩ := tileDone_gradient (u.setTq n .idle) (n := n) (payload.take (descHdr raw).bytes) hk hcu
  refine ⟨hrec, hdesc.trans (congrArg (fun x => x.2.1) hu), ?_⟩
  exact (congrArg (fun l : List Tq => (l.getD n ⟨false, .idle⟩).st) htqs).trans (setTq_st u n)

/-- The descriptor of the tile in hand. -/
def State.latchDesc (s : State) (raw : BitVec 512) : State := { s with ji := { s.ji with lastDesc := raw.extractLsb' 0 256 } }

theorem openTile_eq (s : State) (hk : (descHdr raw).kind ≠ 3) :
    s.openTile n raw payload last = (s.latchDesc raw).payloadIn n raw [] payload last :=
  congrArg (fun u : State => u.payloadIn n raw [] payload last) (if_neg hk)

/-- An accepted descriptor with its whole payload. -/
theorem openTile_gradient (hk : (descHdr raw).kind = 0) (hc : s.cat (descHdr raw).tensor = some c)
    (hl : payload.length = ((descHdr raw).bytes + 63) / 64 * 64) :
    (∀ g ∈ (descHdr raw).groups c, ((s.openTile n raw payload last).gPrime (descHdr raw).tensor g).isSome = true) ∧
      (s.openTile n raw payload last).ji.lastDesc = raw.extractLsb' 0 256 ∧ ((s.openTile n raw payload last).tq n).st = .idle := by
  rw [openTile_eq s (by omega)]
  exact payloadIn_gradient (s := s.latchDesc raw) hk hc hl

theorem mustHold_of_step {d : DescHdr} (hp : s.phase 0 = true) (hs : d.step = s.jq.step.toNat % 2 ^ 16) : s.mustHold d = false := by
  simp [State.mustHold, hp, hs]

/-! ### TILE_RECEIVE (R76, R288) -/

/-- A descriptor beat of an idle queue that may take beats. -/
theorem tileReceive_desc (hr : s.tqReady n = true) (hi : (s.tq n).st = .idle) :
    s.tileReceive n (some raw) payload last = s.descIn n raw payload last := by
  unfold State.tileReceive State.tqTakes
  simp [hr, hi]

theorem descIn_tag (h : (descHdr raw).kind ≤ 2 ∧ (descHdr raw).step ≠ s.jq.step.toNat % 2 ^ 16 ∧
    (descHdr raw).step ≠ (s.jq.step.toNat + 1) % 2 ^ 16) : s.descIn n raw payload last = s.failDesc n raw .tag last := if_pos h

section

variable (h : ¬((descHdr raw).kind ≤ 2 ∧ (descHdr raw).step ≠ s.jq.step.toNat % 2 ^ 16 ∧
  (descHdr raw).step ≠ (s.jq.step.toNat + 1) % 2 ^ 16))

include h

theorem descIn_kind (hk : s.kindOk (descHdr raw) = false) : s.descIn n raw payload last = s.failDesc n raw .kind last :=
  (if_neg h).trans (if_pos (by rw [hk]; rfl))

theorem descIn_held (hk : s.kindOk (descHdr raw) = true) (hm : s.mustHold (descHdr raw) = true) :
    s.descIn n raw payload last = s.setTq n (.held raw) :=
  (if_neg h).trans ((if_neg (by rw [hk]; decide)).trans (if_pos hm))

theorem descIn_dup (hk : s.kindOk (descHdr raw) = true) (hm : s.mustHold (descHdr raw) = false)
    (hdup : s.isDup n (descHdr raw) = true) : s.descIn n raw payload last = s.failDesc n raw .dup last :=
  (if_neg h).trans ((if_neg (by rw [hk]; decide)).trans ((if_neg (by rw [hm]; decide)).trans (if_pos hdup)))

theorem descIn_opens (hk : s.kindOk (descHdr raw) = true) (hm : s.mustHold (descHdr raw) = false)
    (hdup : s.isDup n (descHdr raw) = false) : s.descIn n raw payload last = s.openTile n raw payload last :=
  (if_neg h).trans ((if_neg (by rw [hk]; decide)).trans ((if_neg (by rw [hm]; decide)).trans (if_neg (by rw [hdup]; decide))))

end

/-- A held descriptor of the step, released into INTAKE. -/
theorem heldRelease_opens (hst : (s.tq n).st = .held raw) (hp : s.phase 0 = true) (hup : (s.tq n).pup = true)
    (hr : s.inReset = false) (hen : s.ji.tqEn.getLsbD n = true) (hs : (descHdr raw).step = s.jq.step.toNat % 2 ^ 16)
    (hg : s.jq.gen = false) (hdup : s.isDup n (descHdr raw) = false) :
    s.heldRelease n payload last = s.openTile n raw payload last := by
  unfold State.heldRelease
  simp only [hst, hp, hup, hr, hen, hg, hdup]
  rw [if_neg (by decide), if_neg (by omega), if_neg (not_not_intro hs)]
  rfl

/-- A queue that is not enabled keeps what it holds. -/
theorem heldRelease_disabled (hst : (s.tq n).st = .held raw) (hen : s.ji.tqEn.getLsbD n = false) :
    s.heldRelease n payload last = s := by
  unfold State.heldRelease
  simp [hst, hen]

/-! ### The producer (R77, R289) -/

/-- The producer of a queue is down. -/
def State.pupLow (s : State) (n : Nat) : State :=
  { s with ji := { s.ji with tqs := modifyNth (fun q => { q with pup := false }) n s.ji.tqs } }

theorem pup_pupLow (s : State) (n : Nat) : ((s.pupLow n).tq n).pup = false := by
  unfold State.tq State.pupLow
  by_cases hn : n < s.ji.tqs.length
  · rw [modifyNth_getD_same _ _ _ _ hn]
  · rw [List.getD_eq_default _ _ (by rw [modifyNth_length]; omega)]

theorem tqReady_of_down (h : (s.tq n).pup = false) : s.tqReady n = false := by
  have hp : (s.ji.tqs.getD n ⟨false, .idle⟩).pup = false := h
  unfold State.tqReady
  simp only [hp, Bool.and_false, Bool.false_and]

theorem producerReset_notReady (s : State) (n : Nat) : (s.producerReset n).tqReady n = false := tqReady_of_down (pup_pupLow _ n)

/-- A reset that finds an open tile cuts it short. -/
theorem producerReset_open {d : BitVec 512} {got : List Byte} (h : (s.tq n).st = .isOpen d got) :
    (s.producerReset n).ji.discPartial = stick s.ji.discPartial 1 := by
  simp only [State.producerReset, h]
  rfl

/-- A reset drops a held descriptor, which is not counted as a tile cut short. -/
theorem producerReset_held {d : BitVec 512} (h : (s.tq n).st = .held d) : (s.producerReset n).ji.discPartial = s.ji.discPartial := by
  simp only [State.producerReset, h]
  rfl

theorem producerReset_grads (s : State) (n : Nat) : (s.producerReset n).ji.grads = s.ji.grads := by
  unfold State.producerReset
  split <;> rfl

end

/-- Settles O18: `tileReceive_desc` with the tests of `descIn`; `openTile_gradient`; `producerReset` and its flags. -/
theorem tileQueuesReceive : Obligations.TileQueuesReceive := by
  refine ⟨fun s n raw payload last hr hi => ?_, fun s n raw payload last c => ?_, fun s n => ⟨?_, ?_⟩⟩
  · intro d t gone tagBad
    have hin := tileReceive_desc (s := s.begin_) (raw := raw) (payload := payload) (last := last) hr hi
    refine ⟨fun h => ?_, fun h hk => ?_, fun h hk hm hdup => ?_, fun h hk hm => ?_⟩
    · exact does_run (fun s => s.tileReceive n.toNat (some raw) payload last) rfl (hin.trans (descIn_tag (s := s.begin_) h))
    · exact does_run (fun s => s.tileReceive n.toNat (some raw) payload last) rfl (hin.trans (descIn_kind (s := s.begin_) h hk))
    · exact does_run (fun s => s.tileReceive n.toNat (some raw) payload last) rfl (hin.trans (descIn_dup (s := s.begin_) h hk hm hdup))
    · exact does_run (fun s => s.tileReceive n.toNat (some raw) payload last) rfl (hin.trans (descIn_held (s := s.begin_) h hk hm))
  · intro d hkind hphase hstep hdup hc hl hpos
    obtain ⟨hrec, hdesc, hidle⟩ := openTile_gradient (s := s.begin_) (n := n.toNat) (last := last) hkind hc hl
    have hfix : (s.begin_.openTile n.toNat raw payload last).fixed = s.fixed := by simp
    have htag : ¬(d.kind ≤ 2 ∧ d.step ≠ s.jq.step.toNat % 2 ^ 16 ∧ d.step ≠ (s.jq.step.toNat + 1) % 2 ^ 16) :=
      fun h => h.2.1 hstep
    refine ⟨fun hr hi hk => ?_, fun hst hup hr hg => ⟨fun hen => ?_, fun hen => ?_⟩⟩
    · refine exec_to (fun s => s.tileReceive n.toNat (some raw) payload last) rfl ((tileReceive_desc (s := s.begin_) hr hi).trans
        (descIn_opens (s := s.begin_) htag hk (mustHold_of_step (s := s.begin_) hphase hstep) hdup)) ?_
      exact ⟨hrec, hdesc, hidle, (congrArg Fixed.step hfix :)⟩
    · refine exec_to (fun s => s.heldRelease n.toNat payload last) rfl
        (heldRelease_opens (s := s.begin_) hst hphase hup hr hen hstep hg hdup) ?_
      exact ⟨hrec, hdesc, hidle, (congrArg Fixed.step hfix :)⟩
    · exact does_run (fun s => s.heldRelease n.toNat payload last) rfl (heldRelease_disabled (s := s.begin_) hst hen)
  · refine exec_to (fun s => s.producerReset n.toNat) rfl rfl ⟨producerReset_notReady s.begin_ n.toNat, fun d got h => ?_,
      fun d h => ?_, producerReset_grads s.begin_ n.toNat⟩
    · exact producerReset_open (s := s.begin_) h
    · exact producerReset_held (s := s.begin_) h
  · exact does_run (fun s => { s with ji := { s.ji with tqs := modifyNth (fun q => { q with pup := true }) n.toNat s.ji.tqs } })
      rfl rfl

end Sys2Proof.Machine
end
